-- ==== Sys2Proof/Word.lean ====
section
/-! DEFINITION. The word types of the NZ12 (R7, R13) and their plainest arithmetic. -/

namespace Sys2Proof

/-- A scalar register or control register (R36). -/
abbrev Word := BitVec 64
/-- An instruction word (R51). -/
abbrev IWord := BitVec 32
/-- One vector lane (R36). -/
abbrev Lane := BitVec 32
/-- One byte of memory. -/
abbrev Byte := BitVec 8

/-- Bits `[lo + len - 1 : lo]` of a number. -/
def bits (w lo len : Nat) : Nat := w / 2 ^ lo % 2 ^ len

/-- Two's complement reading of the low `n` bits of `v` (R13). -/
def toS (n v : Nat) : Int :=
  let u := v % 2 ^ n
  if 2 * u < 2 ^ n then (u : Int) else (u : Int) - (2 ^ n : Nat)

/-- The low `n` bits of an integer (wrapping, R14). -/
def ofS (n : Nat) (i : Int) : Nat := (i % ((2 ^ n : Nat) : Int)).toNat

/-- Clamp an integer between two bounds (R68 `sat`). -/
def clampI (lo hi i : Int) : Int := if i < lo then lo else if hi < i then hi else i

end Sys2Proof
end

