-- ==== Sys2Proof/Syntax.lean ====
section
/-! DEFINITION. The syntax of the NZ12: one constructor per row of the opcode table.
The first part holds the machine's own indivisible steps, which the table lists beside the
instruction words (95_what_each_step_holds.md); the second the encoded instructions (R51-R193). -/

namespace Sys2Proof

/-- A class-X register that can be written: x0 to x61 (R56). -/
abbrev XReg := Fin 62
/-- A class-X5 register, x0 to x31 (chapter 06, "Tiles and decode tables"). -/
abbrev X5Reg := Fin 32
/-- Classes A, V, M, T, C, S and QS/QR (R56). -/
abbrev AReg := Fin 8
abbrev VReg := Fin 32
abbrev MReg := Fin 4
abbrev TReg := Fin 4
abbrev CReg := Fin 2
abbrev SReg := Fin 8
abbrev QReg := Fin 8

/-- A class-X source: a register or a literal (R52). -/
inductive XSrc where
  | reg (r : XReg)
  | lit32 (v : BitVec 32)
  | lit64 (v : BitVec 64)
  deriving DecidableEq, Repr

/-- Rounding modes (R21). -/
inductive Rm where
  | rne | rtz | rup | rdn
  deriving DecidableEq, Repr

/-- Conditions of CMP and CMPI (R85). -/
inductive Cond where
  | eq | ne | lt | ge | ltu | geu | le | gt | leu | gtu
  deriving DecidableEq, Repr

/-- Conditions of VCMP (R141). -/
inductive VCond where
  | eq | ne | lt | le | ltu | leu | feq | fne | flt | fle | unord
  deriving DecidableEq, Repr

/-- Types of LD and LDX (R77). -/
inductive LdType where
  | s8 | z8 | s16 | z16 | s32 | z32 | b64 | p
  deriving DecidableEq, Repr

/-- Width codes of ST and STX (chapter 05). -/
inductive StWidth where
  | b1 | b2 | b4 | b8 | p
  deriving DecidableEq, Repr

/-- Scopes (R223). -/
inductive Scope where
  | task | core | quad | router | layer | stack | package | node | domain | group | enclave | system
  deriving DecidableEq, Repr

/-- The optional lane mask of a vector instruction (R138): `none` is MK = 0. -/
abbrev Mask := Option MReg

/-- Address mode of VLD and VST (R114). -/
inductive VMode where
  | contiguous (base : XSrc)
  | strided (base stride : XSrc)
  | indexed (offs : VReg) (base : XSrc)
  deriving DecidableEq, Repr

/-- Asserted type of an MMA (R154): the six formats, or none. -/
inductive Ty where
  | bf16 | f16 | f32 | c8 | i8 | s4 | any
  deriving DecidableEq, Repr

/-- Accumulator type code TP (chapter 06, "Accumulators"). -/
inductive Tp where
  | f32 | bf16 | f16 | s32 | img
  deriving DecidableEq, Repr

/-- The kind of a place a soft error or the scrubber can strike (R354, R357). -/
inductive Place where
  /-- a 16-byte part of a vault, by space-1 offset -/
  | vault (a : Nat)
  /-- a 16-byte part of HBM or the second tier, by physical address -/
  | hbm (a : Nat)
  /-- a 16-byte part of the mirrored region -/
  | mirror (a : Nat)
  /-- a 16-byte part of a core's local memory -/
  | localMem (core a : Nat)
  /-- a register, by its cell in the core's state window (R135, R364) -/
  | reg (core cell : Nat)
  /-- a cell of a well: a segment's element (R275) -/
  | wellCell (home idx seg elem : Nat)
  /-- a 16-byte part of one layer's own copy of the mirrored region; 12 is the base die's -/
  | mirrorCopy (layer a : Nat)
  /-- a 16-byte part held by a memory-side cache, by physical address -/
  | cache (a : Nat)
  /-- a 16-byte part of a table or queue of the base die, by its offset in space 4 -/
  | table (a : Nat)
  /-- an entry of the base die's queue of stores to space 3 (R251, R354) -/
  | queue (k : Nat)
  /-- a coil channel of a sender of the broadcast, found by a slot that it spoils (R250, R370) -/
  | coil (sender slot : Nat)
  deriving DecidableEq, Repr

/-- Kinds of packet that can die of age (R240, R247). -/
inductive LostKind where
  | store | ack | request | response | flit | gate | reservation | segment | setup | reply | teardown
  | walk | slotRequest
  /-- of core k: the next fetch of an instruction word, the next request of its instruction to memory or to a
  barrier or join unit, and the next answer to such a request -/
  | fetch | access | value
  /-- part `p` of core k's range-lock entry `e` -/
  | part (e p : Nat)
  /-- the vector of a DISPATCH in this package (R348) -/
  | vector
  /-- the request of an RREAD or RDELTA, and what comes back to it (R266) -/
  | read | readResult
  deriving DecidableEq, Repr

/-- A packet that dies of age (R247): its kind, its place in the list of its kind, and the router that it is
found at, 384 in the base die. -/
structure Lost where
  kind : LostKind
  k : Nat
  at_ : Nat
  deriving DecidableEq, Repr

/-- One constructor per row of spec/opcode_table.json. -/
inductive Instr where
  /- The machine's other steps. `n` is a core number, `r` a router, `l` a layer, `k` a place in
  the list that holds the thing concerned, `t` a task's model number, `g` a group. -/
  | repfPassStep (n : Nat) | vmuResourceGrant (quad : Nat)
  | storeBufferDrain (n : Nat) | storePerformAtHome (k : Nat) | acknowledgementReceive (k : Nat)
  | remoteRequestReceive (k : Nat) | remoteResponseArrival (k : Nat) | remoteLoadWrite (n : Nat)
  | remoteXlatRetry (t : Nat)
  | copyEnginePart (n e part : Nat) | copyEngineComplete (n e : Nat)
  | spinwWake (t : Nat) | spinwTimeout (t : Nat) | yieldExpiry (t : Nat)
  | taskStart (n : Nat) | taskAgingPromotion (r t : Nat)
  | flitDelivery (k : Nat) | handlerStart (k : Nat) | flitBounceReturn (k : Nat)
  | packetAgeDiscard (p : Lost)
  | loadMonitorWindow (l maxLink sum : Nat)
  | routerPowerDownPropose (r : Nat) | routerPowerDownCommit (r : Nat)
  | routerWakeLine (r : Nat) | routerWakeDone (r : Nat)
  | circuitSetupHop (k : Nat) | circuitReply (k : Nat) | circuitIdleTimeout (n id : Nat)
  | circuitTeardownAck (k : Nat)
  | flitCrcReplay (r port : Nat)
  | mirrorSlotSend (k : Nat) | mirrorFrameApply (crcBad : BitVec 64)
  | gangStopCommand (c : Nat) | resumeCommand (c : Nat)
  | layerWakeCommand (l : Nat) | layerDrowsyCommand (l : Nat) | layerSleepCommand (l : Nat)
  | layerRetireCommand (l : Nat)
  | slot0RecordLost (l : Nat) | wakeChunkMerge (l chunk : Nat)
  | gangStopDrainComplete (c : Nat) | recordRestore (c r rec : Nat)
  | translationWalk (k : Nat) | resolveWrite (idx : Nat) | fqhWrite (v : Nat)
  | migrationStart (dst src : Nat) | migrationAbort | migrationPinsClear | migrationDrainDone
  | migrationCommit
  | wareaWrite (r slice n : Nat) | space4RegisterWrite (off size : Nat) (v : Nat) | erdropRead
  | cecClear (l : Nat) | cecWindowEnd (l : Nat) | scrubRead (p : Place)
  | contextStart (c : Nat) | contextFree (c : Nat)
  | hostDoorbell (q tail : Nat) | launchSlotStart (q : Nat) | copySlotStart (q : Nat)
  | slotCompletion (k : Nat)
  | phaseStart (k : Nat) | launchTaskEnqueue (k : Nat) | phaseEnd (k : Nat)
  | wellReservationRequest (k : Nat) | wellReservationReply (n : Nat)
  | wellSegmentStage (k seg : Nat) | wellTermClassify (k : Nat)
  | wellBankEvent (home idx seg : Nat)
  | wellReadRequest (n : Nat) | wellReadDeadline (n : Nat) | wellReadRetry (n : Nat)
  | wellReadResult (n : Nat)
  | wellTermAgeDiscard (k : Nat) | wellSlotQuarantineEnd (home idx : Nat)
  | gateListAtRouter (k : Nat) | gateListHoldExpiry (k : Nat) | gateListAtRoot (k : Nat)
  | dispatchSlotRequest (k : Nat)
  | collectiveEntryFire (qp : Nat) | collectivePartArrival (k : Nat)
  | collectiveEntryComplete (k : Nat) | collectiveTimeout (k : Nat)
  | abortReqReceive (g : Nat) (seq reason pkg : Nat) | abortReceive (g : Nat) (seq reason pkg : Nat)
  | abortAckReceive (g child : Nat) | abortDoneReceive (g : Nat) (seq : Nat)
  | abortWaitTimeout (g : Nat)
  | uePacketReceive (k : Nat) | uePeerFailure (p : Nat)
  | cxlLinkFailure (p : Nat) | cxlWriteFailure (a : Nat)
  | hostWindowRead (f off size : Nat) | hostWindowWrite (f off size : Nat) (v : Nat)
  | hostAtomic (f off : Nat) (op : Nat) (wide : Bool) (v e : Nat)
  | quote | extend | policy | frames | revoke | report
  | revocationMessageReceive (encl epoch part : Nat) (sigs : Nat)
  | groupKeyReceive (kn : Nat) | oldKeyExpiry
  | temperatureSample (l temp vdd : Nat)
  | thermalLimit (l : Nat) | packageReset
  | illEncoding (w : BitVec 32)
  | loadValueReturn (n : Nat) | vmuInstructionComplete (quad : Nat)
  | softError (p : Place) (uncorrectable : Bool)
  | thermalLimitLift (l : Nat)
  /- The instructions that a repeat frame can capture (R60, R163). -/
  -- lane arithmetic, R139
  | vadd (d a b : VReg) (m : Mask) | vsub (d a b : VReg) (m : Mask)
  | vadds (d a b : VReg) (m : Mask) | vsubs (d a b : VReg) (m : Mask)
  | vaddus (d a b : VReg) (m : Mask) | vsubus (d a b : VReg) (m : Mask)
  | vmul (d a b : VReg) (m : Mask) | vmulh (d a b : VReg) (m : Mask)
  | vmulhu (d a b : VReg) (m : Mask) | vmac (d a b : VReg) (m : Mask)
  | vdot4 (d a b : VReg) (m : Mask)
  | vand (d a b : VReg) (m : Mask) | vor (d a b : VReg) (m : Mask)
  | vxor (d a b : VReg) (m : Mask) | vandn (d a b : VReg) (m : Mask) | vnot (d a : VReg) (m : Mask)
  | vsll (d a b : VReg) (m : Mask) | vsrl (d a b : VReg) (m : Mask)
  | vsra (d a b : VReg) (m : Mask) | vror (d a b : VReg) (m : Mask)
  | vslli (d a : VReg) (n : BitVec 5) (m : Mask) | vsrli (d a : VReg) (n : BitVec 5) (m : Mask)
  | vsrai (d a : VReg) (n : BitVec 5) (m : Mask) | vrori (d a : VReg) (n : BitVec 5) (m : Mask)
  | vmin (d a b : VReg) (m : Mask) | vmax (d a b : VReg) (m : Mask)
  | vminu (d a b : VReg) (m : Mask) | vmaxu (d a b : VReg) (m : Mask) | vabs (d a : VReg) (m : Mask)
  | vfadd (d a b : VReg) (m : Mask) (r : Rm) | vfsub (d a b : VReg) (m : Mask) (r : Rm)
  | vfmul (d a b : VReg) (m : Mask) (r : Rm) | vfma (d a b : VReg) (m : Mask) (r : Rm)
  | vfms (d a b : VReg) (m : Mask) (r : Rm) | vfnma (d a b : VReg) (m : Mask) (r : Rm)
  | vfmin (d a b : VReg) (m : Mask) | vfmax (d a b : VReg) (m : Mask)
  | vfabs (d a : VReg) (m : Mask) | vfneg (d a : VReg) (m : Mask)
  | vfdiv (d a b : VReg) (m : Mask) (r : Rm) | vfsqrt (d a : VReg) (m : Mask) (r : Rm)
  | vfrecip (d a : VReg) (m : Mask) (r : Rm) | vfrsqrt (d a : VReg) (m : Mask) (r : Rm)
  -- VCVT, R140
  | vcvtS32 (d a : VReg) (m : Mask) (r : Rm) | vcvtZ32 (d a : VReg) (m : Mask) (r : Rm)
  | vcvtF32S32 (d a : VReg) (m : Mask) (r : Rm) | vcvtF32Z32 (d a : VReg) (m : Mask) (r : Rm)
  | vcvtPbf16 (d a b : VReg) (r : Rm) | vcvtPf16 (d a b : VReg) (r : Rm)
  | vcvtUbf16Lo (d a : VReg) (m : Mask) | vcvtUbf16Hi (d a : VReg) (m : Mask)
  | vcvtUf16Lo (d a : VReg) (m : Mask) | vcvtUf16Hi (d a : VReg) (m : Mask)
  -- masks and selection, R141-R142
  | vcmp (d : MReg) (a b : VReg) (m : Mask) (c : VCond)
  | vmaskAnd (d a b : MReg) | vmaskOr (d a b : MReg) | vmaskXor (d a b : MReg)
  | vmaskAndn (d a b : MReg) | vmaskNot (d a : MReg) | vmaskSet (d : MReg) | vmaskClr (d : MReg)
  | vsel (d a b : VReg) (m : MReg)
  -- moving lanes, R143
  | vperm (d a b : VReg) (m : Mask) | vrev (d a : VReg) (m : Mask)
  -- across the lanes, R144-R145
  | vredSumS32 (d a : VReg) (m : Mask) | vredSumF32 (d a : VReg) (m : Mask) (r : Rm)
  | vredMinS32 (d a : VReg) (m : Mask) | vredMaxS32 (d a : VReg) (m : Mask)
  | vredMinF32 (d a : VReg) (m : Mask) | vredMaxF32 (d a : VReg) (m : Mask)
  | vredArgminF32 (d a : VReg) (m : Mask) | vredArgmaxF32 (d a : VReg) (m : Mask)
  | vtopk (d a : VReg) (n : BitVec 5) (m : Mask)
  | vlaneIota (d : VReg) (m : Mask) | vlaneCompress (d a : VReg) (m : Mask)
  | vslide (d a b : VReg) (m : Mask) (s : BitVec 6)
  -- matrix, R153-R155
  | mma (c : CReg) (a b : TReg) (s e : Bool) (y : Ty)
  | mmaw (c : CReg) (a : TReg) (b : Fin 32) (s e : Bool) (y : Ty)
  -- accumulators, R159, R162
  | accrd (d : VReg) (c : CReg) (row : BitVec 6) (s : Bool) (r : Rm) (p : Tp)
  | accclr (c : CReg) (i : Bool)
  -- tile moves, R149
  | tmov (d a : TReg) | tmovT16 (d a : TReg) | tmovT8 (d a : TReg)
  | tmovVr (d : TReg) (a : VReg) (b : Fin 32) | tmovRv (d : VReg) (a : TReg) (b : Fin 32)
  | tmovZero (d : TReg)
  /- The other instructions. -/
  -- ALU, R80
  | add (d : XReg) (s t : XSrc) | sub (d : XReg) (s t : XSrc) | and (d : XReg) (s t : XSrc)
  | or (d : XReg) (s t : XSrc) | xor (d : XReg) (s t : XSrc) | andn (d : XReg) (s t : XSrc)
  | orn (d : XReg) (s t : XSrc) | xnor (d : XReg) (s t : XSrc) | sll (d : XReg) (s t : XSrc)
  | srl (d : XReg) (s t : XSrc) | sra (d : XReg) (s t : XSrc) | ror (d : XReg) (s t : XSrc)
  | min (d : XReg) (s t : XSrc) | max (d : XReg) (s t : XSrc) | minu (d : XReg) (s t : XSrc)
  | maxu (d : XReg) (s t : XSrc) | addW (d : XReg) (s t : XSrc) | subW (d : XReg) (s t : XSrc)
  | sllW (d : XReg) (s t : XSrc) | srlW (d : XReg) (s t : XSrc) | sraW (d : XReg) (s t : XSrc)
  | rorW (d : XReg) (s t : XSrc)
  -- immediate arithmetic, R81
  | addi (d : XReg) (s : XSrc) (i : BitVec 13) | andi (d : XReg) (s : XSrc) (i : BitVec 13)
  | ori (d : XReg) (s : XSrc) (i : BitVec 13) | xori (d : XReg) (s : XSrc) (i : BitVec 13)
  -- SHI, R82
  | slli (d : XReg) (s : XSrc) (w : Bool) (n : BitVec 6)
  | srli (d : XReg) (s : XSrc) (w : Bool) (n : BitVec 6)
  | srai (d : XReg) (s : XSrc) (w : Bool) (n : BitVec 6)
  | rori (d : XReg) (s : XSrc) (w : Bool) (n : BitVec 6)
  -- MUL, R83
  | mul (d : XReg) (s t : XSrc) | mulh (d : XReg) (s t : XSrc) | mulhu (d : XReg) (s t : XSrc)
  | mulhsu (d : XReg) (s t : XSrc) | mulW (d : XReg) (s t : XSrc) | madd (d : XReg) (s t : XSrc)
  -- DIV, R84
  | div (d : XReg) (s t : XSrc) | divu (d : XReg) (s t : XSrc) | rem (d : XReg) (s t : XSrc)
  | remu (d : XReg) (s t : XSrc) | divW (d : XReg) (s t : XSrc) | divuW (d : XReg) (s t : XSrc)
  | remW (d : XReg) (s t : XSrc) | remuW (d : XReg) (s t : XSrc)
  -- CMP, CMPI, R85
  | cmp (d : XReg) (s t : XSrc) (c : Cond) | cmpi (d : XReg) (s : XSrc) (c : Cond) (i : BitVec 9)
  -- SEL, R86
  | sel (d : XReg) (s t : XSrc) (c : XReg) | seln (d : XReg) (s t : XSrc) (c : XReg)
  -- BITF, R87
  | extz (d : XReg) (s t : XSrc) | exts (d : XReg) (s t : XSrc) | ins (d : XReg) (s t : XSrc)
  | clz (d : XReg) (s : XSrc) | ctz (d : XReg) (s : XSrc) | popc (d : XReg) (s : XSrc)
  | brev (d : XReg) (s : XSrc) | bswap (d : XReg) (s : XSrc)
  -- ADDSH, R88
  | addsh (d : XReg) (s t : XSrc) (k : BitVec 3)
  -- SFP, R89
  | fadd (d : XReg) (s t : XSrc) (r : Rm) | fsub (d : XReg) (s t : XSrc) (r : Rm)
  | fmul (d : XReg) (s t : XSrc) (r : Rm) | fdiv (d : XReg) (s t : XSrc) (r : Rm)
  | fsqrt (d : XReg) (s : XSrc) (r : Rm) | fmadd (d : XReg) (s t : XSrc) (r : Rm)
  | fmin (d : XReg) (s t : XSrc) | fmax (d : XReg) (s t : XSrc) | feq (d : XReg) (s t : XSrc)
  | flt (d : XReg) (s t : XSrc) | fle (d : XReg) (s t : XSrc) | fclass (d : XReg) (s : XSrc)
  | fneg (d : XReg) (s : XSrc) | fabs (d : XReg) (s : XSrc)
  | fcvti (d : XReg) (s : XSrc) (r : Rm) | fcvtiu (d : XReg) (s : XSrc) (r : Rm)
  | fcvtf (d : XReg) (s : XSrc) (r : Rm) | fcvtfu (d : XReg) (s : XSrc) (r : Rm)
  | fnarrowBf16 (d : XReg) (s : XSrc) (r : Rm) | fnarrowF16 (d : XReg) (s : XSrc) (r : Rm)
  | fwidenBf16 (d : XReg) (s : XSrc) | fwidenF16 (d : XReg) (s : XSrc)
  -- HINT, R66
  | hint (x : BitVec 25)
  -- branches and jumps, R90-R93
  | beq (s t : XSrc) (o : BitVec 13) | bne (s t : XSrc) (o : BitVec 13)
  | blt (s t : XSrc) (o : BitVec 13) | bge (s t : XSrc) (o : BitVec 13)
  | loop (s : XReg) (o : BitVec 13)
  | jr (s : XSrc) | jalr (d : XReg) (s : XSrc) | ret (s : XSrc)
  | j (o : BitVec 25) | call (o : BitVec 25)
  -- moves, R95-R102
  | mov (d : XReg) (s : XSrc) | movx (d : XReg) (s : XSrc) (k : BitVec 13)
  | movxw (d s : XSrc) (k : BitVec 13)
  | movaToPointer (d : AReg) (s : XSrc) | movaFromPointer (d : XReg) (s : AReg)
  | adda (d s : AReg) (t : XSrc) | movaPointerPointer (d s : AReg)
  | movqSend (d : QReg) (s : XSrc) | movqReadSend (d : XReg) (s : QReg)
  | movqReceive (d : XReg) (s : QReg)
  | movs (d : XReg) (s : SReg) | movsS (d : XReg) (s : SReg)
  | li (d : XReg) (h : BitVec 6) (i : BitVec 13)
  | movmToMask (d : MReg) (s : XSrc) | movmFromMask (d : XReg) (s : MReg)
  | movmMaskMask (d s : MReg)
  -- loads and stores, R111-R113
  | ld (d : XReg) (s : XSrc) (la : BitVec 4) (t : LdType) (o : BitVec 6)
  | ldx (d : XReg) (s r : XSrc) (k : Bool) (t : LdType)
  | lda (d : XReg) (s : XSrc) (c : Scope) (t : LdType) (q a : Bool) (o : BitVec 4)
  | st (d s : XSrc) (w : StWidth) (o : BitVec 10)
  | stx (d s r : XSrc) (k : Bool) (w : StWidth)
  | stl (d s : XSrc) (c : Scope) (w : StWidth) (q a : Bool) (o : BitVec 4)
  -- vector memory, R114
  | vld (d : VReg) (m : VMode) (k : Mask) | vst (d : VReg) (m : VMode) (k : Mask)
  -- AMO, R116
  | amoSwap (d : XReg) (s t : XSrc) (w q r : Bool) | amoAdd (d : XReg) (s t : XSrc) (w q r : Bool)
  | amoAnd (d : XReg) (s t : XSrc) (w q r : Bool) | amoOr (d : XReg) (s t : XSrc) (w q r : Bool)
  | amoXor (d : XReg) (s t : XSrc) (w q r : Bool) | amoMin (d : XReg) (s t : XSrc) (w q r : Bool)
  | amoMax (d : XReg) (s t : XSrc) (w q r : Bool) | amoMinu (d : XReg) (s t : XSrc) (w q r : Bool)
  | amoMaxu (d : XReg) (s t : XSrc) (w q r : Bool) | amoCas (d : XReg) (s t : XSrc) (w q r : Bool)
  | amoFadd (d : XReg) (s t : XSrc) (q r : Bool)
  -- BKOP, R117
  | bkopSumS32 (d : XReg) (s t : XSrc) | bkopSumF32 (d : XReg) (s t : XSrc)
  | bkopMinS32 (d : XReg) (s t : XSrc) | bkopMaxS32 (d : XReg) (s t : XSrc)
  | bkopMinF32 (d : XReg) (s t : XSrc) | bkopMaxF32 (d : XReg) (s t : XSrc)
  | bkopArgminS32 (d : XReg) (s t : XSrc) | bkopArgmaxS32 (d : XReg) (s t : XSrc)
  | bkopFill (d s t : XSrc)
  -- ordering, waiting, regions, R118-R121
  | fenceFull (c : Scope) | fenceAcq (c : Scope) | fenceRel (c : Scope)
  | spinw (d : XReg) (s : XSrc) (l : BitVec 4) (e : BitVec 5)
  | touch (s : XSrc) (w : Bool) (o : BitVec 12)
  | region
  -- remote blocks, R115
  | gld (d s : XSrc) (l : BitVec 4) (z : BitVec 2) | gst (s t : XSrc) (z : BitVec 2) (r : Bool)
  -- copies and streams, R122-R125
  | copy (d : XReg) (s : XSrc) | copys (d : SReg) (s : XSrc)
  | sbind (d : SReg) (s t : XSrc) (w : BitVec 2)
  | sctlUnbind (d : SReg) | sctlSkip (d : SReg) (t : XSrc) | sctlPos (d : XReg) (s : SReg)
  | sctlLeft (d : XReg) (s : SReg)
  | waitr (s : XSrc) | waitrAll
  -- residual objects, R127-R132
  | rnew (d : XReg) (s : XSrc) | rpost (d s t : XSrc) (l c f : Bool)
  | rread (d : XReg) (s t : XSrc) (f : Bool) | rdelta (d : XReg) (s t : XSrc) (f : Bool)
  | rabsent (s t : XSrc) | radv (d : XReg) (s : XSrc) | rfree (s : XSrc)
  | rstatGen (d : XReg) (s : XSrc) | rstatLanded (d : XReg) (s t : XSrc)
  | rstatAbsent (d : XReg) (s t : XSrc) | rstatLate (d : XReg) (s : XSrc)
  | rstatCounts (d : XReg) (s : XSrc) | rstatFlags (d : XReg) (s t : XSrc)
  | rstatClear (d : XReg) (s : XSrc)
  -- crossing, R146
  | vbcast (d : VReg) (s : XSrc) | vbcastLane (d s : VReg) (t : XSrc)
  | vmovx (d : XReg) (s : VReg) (t : XSrc) | vmovxS (d : XReg) (s : VReg) (t : XSrc)
  -- MMAM, R156
  | mmam (c : CReg) (s : XSrc) (t : TReg) (d k e : Bool) (y : Ty)
  -- accumulators, R157-R162
  | accst (c : CReg) (a b : X5Reg) (e s : Bool) (r : Rm) (p : Tp)
  | accld (c : CReg) (a b : X5Reg) (e s : Bool) (r : Rm) (p : Tp)
  | accswap | accstat (d : XReg) (s : CReg)
  -- tiles and tables, R147-R152
  | tld (d : TReg) (a b : X5Reg) | tldW (d : Fin 32) (a : X5Reg) | tst (d : TReg) (a b : X5Reg)
  | tabld (a : X5Reg) (o : Bool) | tabldPreset (p : Fin 4)
  | enc (d a : VReg) (q : Fin 4) | dec (d a : VReg) (q : Fin 4)
  -- REPF, R59-R62
  | repf (k : BitVec 4) (n : BitVec 8) (s : BitVec 5) (e : BitVec 3)
  -- tasks, R167-R170
  | done | phaseOr (s : XSrc) | phaseMax (s : XSrc) | yield (s : XSrc) | spawn (s t : XSrc)
  -- barriers and joins, R171-R173
  | barInit (d : XReg) (s t : XSrc) | barArr (d : XReg) (s : XSrc) | barw (s t : XSrc)
  | barSync (s : XSrc) | barRead (d : XReg) (s : XSrc)
  | joinArm (d : XReg) (s t : XSrc) | joinArr (d : XReg) (s : XSrc) | joinRead (d : XReg) (s : XSrc)
  -- messages, R174
  | msgPoll (d : XReg) | msgHdr (d : XReg) | msgDrop
  -- ligatures, R175-R176
  | compose (d : XReg) (s : XSrc) | decompose
  -- circuits, R177
  | csetup (d : XReg) (s t : XSrc) | crel (s : XSrc)
  -- collectives, R178-R181
  | cqpost (d : XReg) (s t : XSrc) | trigAdd (s t : XSrc) | trigSet (s t : XSrc)
  | trigRead (d : XReg) (s : XSrc) | cqwait (d : XReg) (s t : XSrc) | cabort (s : XSrc)
  | cabortSeq (d : XReg) (s : XSrc)
  -- experts, R182-R184
  | gatek (v : VReg) (t : XSrc) | gatekOpen (d : XReg) (s t : XSrc) | dispatch (d : XReg) (s : XSrc)
  -- control registers, R185
  | csrr (d : XReg) (c : BitVec 12) | csrw (d : XSrc) (c : BitVec 12)
  | csrs (d : XSrc) (c : BitVec 12) | csrc (d : XSrc) (c : BitVec 12)
  -- traps, R187-R189
  | trap (i : BitVec 13) | brk (i : BitVec 13) | eret
  -- privileged, R190-R193
  | xinvPage (s t : XSrc) | xinvAsid (t : XSrc) | xinvAll | xinvSync
  | gstop (d : XReg) (s : XSrc) | gstopGo (d : XReg) (s : XSrc)
  | freeze (d : XReg) (s : XSrc) | unfreeze (d : XReg) (s : XSrc)
  | lctlSleep (d : XReg) (s : XSrc) | lctlDrowsy (d : XReg) (s : XSrc)
  | lctlWake (d : XReg) (s : XSrc) | lctlRetire (d : XReg) (s : XSrc)
  deriving DecidableEq, Repr

end Sys2Proof
end

