-- ==== Sys2Proof/Machine/Float.lean ====
section
/-! DEFINITION. Floating point to the bit (R17-R23): exact values as signed dyadic numbers, one
rounding of an exact quotient, and the conversions. -/

namespace Sys2Proof.Machine

/-- A format of R17: exponent bits, fraction bits, bias. -/
structure Fmt where
  eb : Nat
  fb : Nat
  bias : Nat
  deriving DecidableEq, Repr

def fmtF32 : Fmt := ⟨8, 23, 127⟩
def fmtBf16 : Fmt := ⟨8, 7, 127⟩
def fmtF16 : Fmt := ⟨5, 10, 15⟩
def fmtE8m10 : Fmt := ⟨8, 10, 127⟩
def fmtA36 : Fmt := ⟨8, 27, 127⟩

/-- The value of a code: NaN, an infinity, or (-1)^neg * m * 2^e exactly (R18). -/
inductive FV where
  | nan
  | inf (neg : Bool)
  | fin (neg : Bool) (m : Nat) (e : Int)
  deriving DecidableEq, Repr

/-- The fields of R17. -/
def Fmt.frac (f : Fmt) (w : Nat) : Nat := w % 2 ^ f.fb
def Fmt.expo (f : Fmt) (w : Nat) : Nat := w / 2 ^ f.fb % 2 ^ f.eb
def Fmt.sign (f : Fmt) (w : Nat) : Bool := w / 2 ^ (f.fb + f.eb) % 2 == 1
/-- The exponent field of infinities and NaNs. -/
def Fmt.emax (f : Fmt) : Nat := 2 ^ f.eb - 1
/-- The sign bit in place. -/
def Fmt.signBit (f : Fmt) (neg : Bool) : Nat := if neg then 2 ^ (f.fb + f.eb) else 0
/-- R19: the canonical NaN. -/
def Fmt.nan (f : Fmt) : Nat := f.emax * 2 ^ f.fb + 2 ^ (f.fb - 1)
def Fmt.inf (f : Fmt) (neg : Bool) : Nat := f.signBit neg + f.emax * 2 ^ f.fb
def Fmt.maxFinite (f : Fmt) (neg : Bool) : Nat := f.signBit neg + f.emax * 2 ^ f.fb - 1
def Fmt.zero (f : Fmt) (neg : Bool) : Nat := f.signBit neg

/-- R18: the value of a code. -/
def Fmt.value (f : Fmt) (w : Nat) : FV :=
  if f.expo w = f.emax then (if f.frac w = 0 then .inf (f.sign w) else .nan)
  else if f.expo w = 0 then .fin (f.sign w) (f.frac w) (1 - (f.bias : Int) - f.fb)
  else .fin (f.sign w) (2 ^ f.fb + f.frac w) ((f.expo w : Int) - f.bias - f.fb)

/-- floor(log2 (num/den)) for positive num and den. -/
def log2Ratio (num den : Nat) : Int :=
  let a := Nat.log2 num
  let b := Nat.log2 den
  if den * 2 ^ (a - b) ≤ num * 2 ^ (b - a) then (a : Int) - b else (a : Int) - b - 1

/-- `num/den * 2^k` as a fraction of naturals. -/
def scale2 (num den : Nat) (k : Int) : Nat × Nat := (num * 2 ^ k.toNat, den * 2 ^ (-k).toNat)

/-- Round the non-negative fraction num/den to an integer (R21); `neg` is the sign of the value.
The flag says that bits were lost. -/
def roundNat (rm : Rm) (neg : Bool) (num den : Nat) : Nat × Bool :=
  let q := num / den
  let r := num % den
  let up := match rm with
    | .rne => den < 2 * r || (2 * r == den && q % 2 == 1)
    | .rtz => false
    | .rup => !neg && r != 0
    | .rdn => neg && r != 0
  (if up then q + 1 else q, r != 0)

/-- A rounded result with the events R30, R31 and R35 speak of. -/
structure Rounded where
  code : Nat
  inexact : Bool
  /-- the rounding left the finite range -/
  past : Bool
  /-- tiny after rounding (R21) and not exact -/
  under : Bool
  deriving DecidableEq, Repr

/-- R21's overflow results. -/
def Fmt.overflow (f : Fmt) (rm : Rm) (neg : Bool) : Nat :=
  match rm, neg with
  | .rne, n => f.inf n
  | .rtz, n => f.maxFinite n
  | .rup, false => f.inf false
  | .rup, true => f.maxFinite true
  | .rdn, false => f.maxFinite false
  | .rdn, true => f.inf true

/-- Round (-1)^neg * num/den * 2^e, with num and den positive, to the format (R21). -/
def Fmt.round (f : Fmt) (rm : Rm) (neg : Bool) (num den : Nat) (e : Int) : Rounded :=
  let lead := log2Ratio num den + e
  let emin : Int := 1 - f.bias
  let qmin : Int := emin - f.fb
  let q := if lead - f.fb < qmin then qmin else lead - f.fb
  let nd := scale2 num den (e - q)
  let r := roundNat rm neg nd.1 nd.2
  let code := (q - qmin).toNat * 2 ^ f.fb + r.1
  let nu := scale2 num den (e - (lead - f.fb))
  let u := roundNat rm neg nu.1 nu.2
  let tiny := decide (lead < emin) && !(decide (lead = emin - 1) && u.1 == 2 ^ (f.fb + 1))
  if f.emax * 2 ^ f.fb ≤ code then ⟨f.overflow rm neg, true, true, false⟩
  else ⟨f.signBit neg + code, r.2, false, tiny && r.2⟩

/-- Round an exact value to the format. -/
def Fmt.ofFV (f : Fmt) (rm : Rm) : FV → Rounded
  | .nan => ⟨f.nan, false, false, false⟩
  | .inf n => ⟨f.inf n, false, false, false⟩
  | .fin n 0 _ => ⟨f.zero n, false, false, false⟩
  | .fin n m e => f.round rm n m 1 e

/-- The signed integer of a finite value at the scale 2^e0, for e0 not above its exponent. -/
def atScale (neg : Bool) (m : Nat) (e e0 : Int) : Int :=
  let v : Int := ((m * 2 ^ (e - e0).toNat : Nat) : Int)
  if neg then -v else v

/-- The exact value of an integer times 2^e; `z` is the sign of a zero. -/
def FV.ofInt (i e : Int) (z : Bool) : FV :=
  if i = 0 then .fin z 0 e else .fin (decide (i < 0)) i.natAbs e

/-- The sign of an exact zero sum of x and y (IEEE 754: +0, but -0 under RDN; equal signs stay). -/
def zeroSign (rm : Rm) (n1 n2 : Bool) : Bool := if n1 == n2 then n1 else rm == .rdn

def FV.add (rm : Rm) : FV → FV → FV
  | .nan, _ => .nan
  | _, .nan => .nan
  | .inf a, .inf b => if a == b then .inf a else .nan
  | .inf a, _ => .inf a
  | _, .inf b => .inf b
  | .fin n1 m1 e1, .fin n2 m2 e2 =>
    let e0 := if e1 ≤ e2 then e1 else e2
    FV.ofInt (atScale n1 m1 e1 e0 + atScale n2 m2 e2 e0) e0 (zeroSign rm n1 n2)

def FV.neg : FV → FV
  | .nan => .nan
  | .inf a => .inf (!a)
  | .fin n m e => .fin (!n) m e

def FV.abs : FV → FV
  | .nan => .nan
  | .inf _ => .inf false
  | .fin _ m e => .fin false m e

def FV.mul : FV → FV → FV
  | .nan, _ => .nan
  | _, .nan => .nan
  | .inf a, .inf b => .inf (a != b)
  | .inf a, .fin n m _ => if m = 0 then .nan else .inf (a != n)
  | .fin n m _, .inf b => if m = 0 then .nan else .inf (n != b)
  | .fin n1 m1 e1, .fin n2 m2 e2 => .fin (n1 != n2) (m1 * m2) (e1 + e2)

def FV.isNan : FV → Bool
  | .nan => true
  | _ => false
def FV.isZero : FV → Bool
  | .fin _ 0 _ => true
  | _ => false
def FV.signNeg : FV → Bool
  | .nan => false
  | .inf n => n
  | .fin n _ _ => n

/-- `a < b` on values that are not NaN; zeros are equal. -/
def FV.lt : FV → FV → Bool
  | .nan, _ => false
  | _, .nan => false
  | .inf a, .inf b => a && !b
  | .inf a, .fin _ _ _ => a
  | .fin _ _ _, .inf b => !b
  | .fin n1 m1 e1, .fin n2 m2 e2 =>
    let e0 := if e1 ≤ e2 then e1 else e2
    decide (atScale n1 m1 e1 e0 < atScale n2 m2 e2 e0)

/-- Numeric equality of values that are not NaN. -/
def FV.eqv (a b : FV) : Bool := !a.isNan && !b.isNan && !a.lt b && !b.lt a

/-- R20: minimum of two codes. -/
def Fmt.minC (f : Fmt) (a b : Nat) : Nat :=
  if (f.value a).isNan || (f.value b).isNan then f.nan
  else if (f.value a).lt (f.value b) then a
  else if (f.value b).lt (f.value a) then b
  else if f.sign a then a else b
/-- R20: maximum of two codes. -/
def Fmt.maxC (f : Fmt) (a b : Nat) : Nat :=
  if (f.value a).isNan || (f.value b).isNan then f.nan
  else if (f.value a).lt (f.value b) then b
  else if (f.value b).lt (f.value a) then a
  else if f.sign a then b else a

def Fmt.addC (f : Fmt) (rm : Rm) (a b : Nat) : Nat :=
  (f.ofFV rm (FV.add rm (f.value a) (f.value b))).code
def Fmt.subC (f : Fmt) (rm : Rm) (a b : Nat) : Nat :=
  (f.ofFV rm (FV.add rm (f.value a) (f.value b).neg)).code
def Fmt.mulC (f : Fmt) (rm : Rm) (a b : Nat) : Nat :=
  (f.ofFV rm (FV.mul (f.value a) (f.value b))).code
/-- c + a * b with one rounding. -/
def Fmt.fmaC (f : Fmt) (rm : Rm) (a b c : FV) : Nat :=
  (f.ofFV rm (FV.add rm c (FV.mul a b))).code

/-- R89 op 3. -/
def Fmt.divC (f : Fmt) (rm : Rm) (a b : Nat) : Nat :=
  match f.value a, f.value b with
  | .nan, _ => f.nan
  | _, .nan => f.nan
  | .inf _, .inf _ => f.nan
  | .inf x, .fin y _ _ => f.inf (x != y)
  | .fin x _ _, .inf y => f.zero (x != y)
  | .fin x m1 e1, .fin y m2 e2 =>
    if m2 = 0 then (if m1 = 0 then f.nan else f.inf (x != y))
    else if m1 = 0 then f.zero (x != y)
    else (f.round rm (x != y) m1 m2 (e1 - e2)).code

/-- floor(sqrt n) for n below 4^k, bit by bit. -/
def isqrtAux : Nat → Nat → Nat → Nat
  | 0, _, r => r
  | k + 1, n, r => if (r + 2 ^ k) * (r + 2 ^ k) ≤ n then isqrtAux k n (r + 2 ^ k) else isqrtAux k n r
def isqrt (n : Nat) : Nat := isqrtAux (Nat.log2 n / 2 + 1) n 0

/-- sqrt(num/den * 2^e) rounded once: 64 significant bits of the root and a sticky half-unit, which
no rounding boundary of the formats can fall on. -/
def Fmt.rootOf (f : Fmt) (rm : Rm) (num den : Nat) (e : Int) : Nat :=
  let e' := if e % 2 = 0 then e else e - 1
  let num' := if e % 2 = 0 then num else 2 * num
  -- 4^k scales the radicand so that its integer part has at least 128 bits
  let k := Nat.log2 den + 70
  let n := num' * 4 ^ k
  let r := isqrt (n / den)
  let exact := r * r * den == n
  let h := if exact then 2 * r else 2 * r + 1
  (f.round rm false h 1 (e' / 2 - k - 1)).code

/-- R89 op 4. -/
def Fmt.sqrtC (f : Fmt) (rm : Rm) (a : Nat) : Nat :=
  match f.value a with
  | .nan => f.nan
  | .inf n => if n then f.nan else f.inf false
  | .fin n m e => if m = 0 then f.zero n else if n then f.nan else f.rootOf rm m 1 e

/-- 1/a, rounded once. -/
def Fmt.recipC (f : Fmt) (rm : Rm) (a : Nat) : Nat :=
  match f.value a with
  | .nan => f.nan
  | .inf n => f.zero n
  | .fin n m e => if m = 0 then f.inf n else (f.round rm n 1 m (-e)).code

/-- 1/sqrt a, rounded once. -/
def Fmt.rsqrtC (f : Fmt) (rm : Rm) (a : Nat) : Nat :=
  match f.value a with
  | .nan => f.nan
  | .inf n => if n then f.nan else f.zero false
  | .fin n m e => if m = 0 then f.inf n else if n then f.nan else f.rootOf rm 1 m (-e)

/-- R89 op 12 and 13, on codes. -/
def Fmt.negC (f : Fmt) (a : Nat) : Nat :=
  if (f.value a).isNan then f.nan else (f.signBit (!f.sign a)) + a % 2 ^ (f.fb + f.eb)
def Fmt.absC (f : Fmt) (a : Nat) : Nat :=
  if (f.value a).isNan then f.nan else a % 2 ^ (f.fb + f.eb)

/-- Conversion between formats (R22). -/
def Fmt.convert (src dst : Fmt) (rm : Rm) (a : Nat) : Nat := (dst.ofFV rm (src.value a)).code

/-- Integer to a format (R22); zero is +0. -/
def Fmt.ofInt (f : Fmt) (rm : Rm) (i : Int) : Nat := (f.ofFV rm (FV.ofInt i 0 false)).code

/-- Round an exact finite value to an integer (R22). -/
def roundInt (rm : Rm) (neg : Bool) (m : Nat) (e : Int) : Int :=
  let nd := scale2 m 1 e
  let r : Int := ((roundNat rm neg nd.1 nd.2).1 : Nat)
  if neg then -r else r

/-- A format to an integer type with the given bounds (R22). -/
def Fmt.toInt (f : Fmt) (rm : Rm) (lo hi : Int) (a : Nat) : Int :=
  match f.value a with
  | .nan => 0
  | .inf n => if n then lo else hi
  | .fin n m e => clampI lo hi (roundInt rm n m e)

/-- R89 op 11. -/
def Fmt.classC (f : Fmt) (a : Nat) : Nat :=
  let neg := f.sign a
  if f.expo a = f.emax then
    if f.frac a = 0 then (if neg then 1 else 128)
    else if f.frac a < 2 ^ (f.fb - 1) then 256 else 512
  else if f.expo a = 0 then
    if f.frac a = 0 then (if neg then 8 else 16) else (if neg then 4 else 32)
  else (if neg then 2 else 64)

/-- R23: the three e8m10 parts of a finite FP32 code, each truncated to the 2^-136 grid; the flag
says that the truncation discarded bits. -/
def splitF32 (w : Nat) : List FV × Bool :=
  let neg := fmtF32.sign w
  match fmtF32.value w with
  | .fin _ s e =>
    -- s is the 24-bit significand S, the value S * 2^e
    let grid (v : Nat) (k : Int) : Nat × Int × Bool :=
      if k < -136 then (v / 2 ^ (-136 - k).toNat, -136, v % 2 ^ (-136 - k).toNat != 0) else (v, k, false)
    let h := grid (s / 2 ^ 13) (e + 13)
    let m := grid (s / 4 % 2 ^ 11) (e + 2)
    let l := grid (s % 4) e
    ([.fin neg h.1 h.2.1, .fin neg m.1 m.2.1, .fin neg l.1 l.2.1], h.2.2 || m.2.2 || l.2.2)
  | v => ([v], false)

/-- floor(log2 |v|) of a value, for the predictor of R33: none for zero. -/
inductive Weight where
  | negInf | at (h : Int) | posInf
  deriving DecidableEq, Repr

def FV.weight : FV → Weight
  | .nan => .posInf
  | .inf _ => .posInf
  | .fin _ 0 _ => .negInf
  | .fin _ m e => .at ((Nat.log2 m : Int) + e)

def Weight.max : Weight → Weight → Weight
  | .posInf, _ => .posInf
  | _, .posInf => .posInf
  | .negInf, b => b
  | a, .negInf => a
  | .at a, .at b => .at (if a < b then b else a)

/-- `H < t` (R33). -/
def Weight.below : Weight → Int → Bool
  | .negInf, _ => true
  | .posInf, _ => false
  | .at h, t => decide (h < t)

end Sys2Proof.Machine
end

