-- ==== Sys2Proof/Config.lean ====
section
/-! DEFINITION. What the manual leaves to a part or to a run: free values, with no body, so that
nothing can be proved of which value they have. -/

namespace Sys2Proof.Config

/-- The cycle count that a record holds (R317, R361) and that a phase is timed by (R298), from the
model's step count: the model counts no cycles. -/
opaque cycle : Nat → BitVec 64

/-- A byte that the manual calls undefined, by the number of free values drawn before it (R323). -/
opaque freeByte : Nat → BitVec 8

/-- The router position, 0 to 31, that the shift register of a core's network interface draws at its
n-th draw: the manual gives neither its seed nor its taps (R242). -/
opaque draw : Nat → Nat → BitVec 5

/-- A number that the manual leaves to the part, by the number of free values drawn before it: the array
number of a failing SRAM word and the address of a cell of a well (R358, R361). -/
opaque freeNat : Nat → BitVec 64

/-! ### The security processor (R367-R376) -/

/-- The corrected response of the part's unclonable function, for the helper data (R371). -/
opaque puf : List (BitVec 8) → List (BitVec 8)
/-- The public key of a certificate that chains to the Ovnati root; the manual gives no format. -/
opaque certKey : List (BitVec 8) → Option (List (BitVec 8))
/-- Where a byte that the host writes through BAR2 in reset goes: `true` and its place in the configuration
record, or `false` and its place in the firmware image (R382); the manual gives neither area's offset. -/
opaque bootPlace : Nat → Option (Bool × Nat)
/-- Does a firmware image verify (R382)? -/
opaque imageOk : List (BitVec 8) → Bool
/-- The key that signs configuration records, where its certificate chains to the root in the image
(R367). -/
opaque recordKey : List (BitVec 8) → List (BitVec 8) → Option (List (BitVec 8))

/-- A policy record's fields (R373); its first `body` bytes are signed, and `len` bytes are the record.
`packages` are (package, participant), `measures` the admitted pairs of M0 and M1, `funcs` and `ctxs`
(package, number). -/
structure Policy where
  keys : List (List (BitVec 8))
  quorum : Nat
  packages : List (Nat × Nat)
  measures : List (List (BitVec 8) × List (BitVec 8))
  funcs : List (Nat × Nat)
  ctxs : List (Nat × Nat)
  sigs : List (List (BitVec 8))
  body : Nat
  len : Nat
  deriving DecidableEq, Repr

/-- A policy record, of which the manual gives the fields and no layout. -/
opaque policy : List (BitVec 8) → Option Policy
/-- The nonce of a quote that members exchange (R373), by the number of free values drawn before it. -/
opaque quoteNonce : Nat → List (BitVec 8)
/-- The 56 bytes of an ephemeral X448 key (R373), by the number of free values drawn before it. -/
opaque ephemeral : Nat → List (BitVec 8)
/-- A group key, by the number of free values drawn before it. -/
opaque groupKey : Nat → List (BitVec 8)
/-- A key wrapped under a pairwise key, and what unwrapping answers (AES-256-GCM). -/
opaque wrap : List (BitVec 8) → List (BitVec 8) → List (BitVec 8)
opaque unwrap : List (BitVec 8) → List (BitVec 8) → Option (List (BitVec 8))
/-- The evidence that REPORT gives for the places that have failed (R370). -/
opaque evidence : List (List Nat) → List (BitVec 8)

end Sys2Proof.Config
end

