-- ==== Sys2Proof/WellFormed.lean ====
section
/-! DEFINITION. Which terms of Instr are instructions: the operand limits that the reference
entries state and that the types of Syntax.lean do not already carry. A word that breaks one of
them raises ILL (R52, R65). -/

namespace Sys2Proof

/-- 1 for a literal operand (R52). -/
def XSrc.lit : XSrc → Nat
  | .reg _ => 0
  | .lit32 _ => 1
  | .lit64 _ => 1

/-- R52: at most one field of an instruction holds a literal code. -/
def oneLit (xs : List XSrc) : Bool := (xs.map XSrc.lit).sum ≤ 1

/-- R106: the register of a pair is even and in 2 to 60. -/
def pairReg (n : Nat) : Bool := n % 2 == 0 && 2 ≤ n && n ≤ 60

/-- R106 for a load's destination. -/
def ldOk (d : XReg) : LdType → Bool
  | .p => pairReg d.val
  | _ => true

/-- R106 and chapter 05: the data source of a store; a pair takes no literal. -/
def stOk (d : XSrc) : StWidth → Bool
  | .p => match d with | .reg r => pairReg r.val | _ => false
  | _ => true

/-- R113: without ACQ or REL the scope field must be 0. -/
def scopeOk (ordered : Bool) (c : Scope) : Bool := ordered || c == .task

/-- The literal-capable sources of VLD and VST. -/
def VMode.srcs : VMode → List XSrc
  | .contiguous b => [b]
  | .strided b t => [b, t]
  | .indexed _ b => [b]

/-- The checks, instruction by instruction. Every constructor without an arm of its own takes any
operands its types allow; the steps that are not instruction words take any. -/
def wellFormed : Instr → Bool
  | .add _ s t | .sub _ s t | .and _ s t | .or _ s t | .xor _ s t | .andn _ s t | .orn _ s t
  | .xnor _ s t | .sll _ s t | .srl _ s t | .sra _ s t | .ror _ s t | .min _ s t | .max _ s t
  | .minu _ s t | .maxu _ s t | .addW _ s t | .subW _ s t | .sllW _ s t | .srlW _ s t
  | .sraW _ s t | .rorW _ s t | .mul _ s t | .mulh _ s t | .mulhu _ s t | .mulhsu _ s t
  | .mulW _ s t | .madd _ s t | .div _ s t | .divu _ s t | .rem _ s t | .remu _ s t
  | .divW _ s t | .divuW _ s t | .remW _ s t | .remuW _ s t | .cmp _ s t _ | .sel _ s t _
  | .seln _ s t _ | .extz _ s t | .exts _ s t | .ins _ s t | .addsh _ s t _ | .fadd _ s t _
  | .fsub _ s t _ | .fmul _ s t _ | .fdiv _ s t _ | .fmadd _ s t _ | .fmin _ s t | .fmax _ s t
  | .feq _ s t | .flt _ s t | .fle _ s t | .beq s t _ | .bne s t _ | .blt s t _ | .bge s t _
  | .movxw s t _ | .amoSwap _ s t _ _ _ | .amoAdd _ s t _ _ _ | .amoAnd _ s t _ _ _
  | .amoOr _ s t _ _ _ | .amoXor _ s t _ _ _ | .amoMin _ s t _ _ _ | .amoMax _ s t _ _ _
  | .amoMinu _ s t _ _ _ | .amoMaxu _ s t _ _ _ | .amoCas _ s t _ _ _ | .amoFadd _ s t _ _
  | .bkopSumS32 _ s t | .bkopSumF32 _ s t | .bkopMinS32 _ s t | .bkopMaxS32 _ s t
  | .bkopMinF32 _ s t | .bkopMaxF32 _ s t | .bkopArgminS32 _ s t | .bkopArgmaxS32 _ s t
  | .gld s t _ _ | .gst s t _ _ | .sbind _ s t _ | .rread _ s t _ | .rdelta _ s t _
  | .rabsent s t | .rstatLanded _ s t | .rstatAbsent _ s t | .rstatFlags _ s t | .spawn s t
  | .barInit _ s t | .barw s t | .joinArm _ s t | .csetup _ s t | .cqpost _ s t | .trigAdd s t
  | .trigSet s t | .cqwait _ s t | .gatekOpen _ s t | .xinvPage s t => oneLit [s, t]
  | .bkopFill d s t | .rpost d s t _ _ _ => oneLit [d, s, t]
  | .ld d _ _ t _ => ldOk d t
  | .ldx d s r _ t => ldOk d t && oneLit [s, r]
  | .lda d _ c t q _ _ => ldOk d t && scopeOk q c
  | .st d s w _ => stOk d w && oneLit [d, s]
  | .stx d s r _ w => stOk d w && oneLit [d, s, r]
  | .stl d s c w q _ _ => stOk d w && oneLit [d, s] && scopeOk q c
  | .vld _ m _ | .vst _ m _ => oneLit m.srcs
  | .loop s _ => s.val != 0                                   -- R91
  | .spinw _ _ _ e => e.toNat == 0 || (6 ≤ e.toNat && e.toNat ≤ 26)
  | .vtopk _ _ n _ => 1 ≤ n.toNat && n.toNat ≤ 8              -- R145
  | .accrd _ _ _ _ _ p => p != .img                           -- R159
  | .accst _ _ b e s r p => p != .img || (b.val == 0 && !e && !s && r == .rne)   -- R160
  | .accld _ _ b e s r p => (p == .f32 || p == .img) && b.val == 0 && !e && !s && r == .rne -- R161
  | _ => true

end Sys2Proof
end

