-- ==== Sys2Proof/Decode.lean ====
section
/-! DEFINITION. Decoding (R51-R66 and the encodings of chapters 04 to 07) and, after it, the
encoder. The decoder is total; a word that is no instruction is rejected by name, and executing
such a word raises ILL (R65). Lean's runtime can build only the first 244 constructors of one type
that carry operands, so the definitions that build later ones are marked noncomputable: the kernel
evaluates them, and no code is compiled for them. -/

namespace Sys2Proof

/-- Why a word is not an instruction (R65). -/
inductive DecodeError where
  /-- a major that is not an instruction (R63) -/
  | major
  /-- a sub-code the family's entry does not list -/
  | sub
  /-- a nonzero reserved or unused field (R10) -/
  | reserved
  /-- a register code outside its class, or a literal code where none may stand (R52, R56) -/
  | register
  /-- two literal codes in one word (R52) -/
  | literals
  /-- an operand value the entry excludes -/
  | operand
  deriving DecidableEq, Repr

/-- The answer of a decoder. -/
abbrev Dec := Except DecodeError Instr

/-! ### Fields (R54) -/

/-- The major opcode. -/
def fOp (w : Nat) : Nat := bits w 25 7
def fRd (w : Nat) : Nat := bits w 19 6
def fRs (w : Nat) : Nat := bits w 13 6
def fRt (w : Nat) : Nat := bits w 7 6
def fFn (w : Nat) : Nat := bits w 0 7
def fI13 (w : Nat) : Nat := bits w 0 13
def fD5 (w : Nat) : Nat := bits w 20 5
def fA5 (w : Nat) : Nat := bits w 15 5
def fB5 (w : Nat) : Nat := bits w 10 5
def fFl (w : Nat) : Nat := bits w 0 10
def fBit (w i : Nat) : Bool := bits w i 1 == 1

/-! ### Operand classes (R52, R56) -/

/-- Refuse with `e` unless `c` holds. -/
def need (c : Bool) (e : DecodeError) : Except DecodeError Unit := if c then .ok () else .error e

/-- A code of a class with `n` registers. -/
def cls (n c : Nat) : Except DecodeError (Fin n) :=
  if h : c < n then .ok ⟨c, h⟩ else .error .register

/-- A class-X source; `l0` and `l1` are the words after the instruction (R52). -/
def xsrc (l0 l1 c : Nat) : XSrc :=
  if h : c < 62 then .reg ⟨c, h⟩
  else if c = 62 then .lit32 (BitVec.ofNat 32 l0)
  else .lit64 (BitVec.ofNat 64 (l0 + 2 ^ 32 * l1))

/-- R52: no two of the fields hold literal codes. -/
def lits2 (a b : Nat) : Except DecodeError Unit := need (!(62 ≤ a && 62 ≤ b)) .literals
def lits3 (a b c : Nat) : Except DecodeError Unit := do lits2 a b; lits2 a c; lits2 b c

def rmOf : Nat → Rm
  | 0 => .rne | 1 => .rtz | 2 => .rup | _ => .rdn
def condOf : Nat → Except DecodeError Cond
  | 0 => .ok .eq | 1 => .ok .ne | 2 => .ok .lt | 3 => .ok .ge | 4 => .ok .ltu | 5 => .ok .geu
  | 6 => .ok .le | 7 => .ok .gt | 8 => .ok .leu | 9 => .ok .gtu | _ => .error .sub
def vcondOf : Nat → Except DecodeError VCond
  | 0 => .ok .eq | 1 => .ok .ne | 2 => .ok .lt | 3 => .ok .le | 4 => .ok .ltu | 5 => .ok .leu
  | 8 => .ok .feq | 9 => .ok .fne | 10 => .ok .flt | 11 => .ok .fle | 12 => .ok .unord
  | _ => .error .sub
def ldTypeOf : Nat → LdType
  | 0 => .s8 | 1 => .z8 | 2 => .s16 | 3 => .z16 | 4 => .s32 | 5 => .z32 | 6 => .b64 | _ => .p
def stWidthOf : Nat → Except DecodeError StWidth
  | 0 => .ok .b1 | 1 => .ok .b2 | 2 => .ok .b4 | 3 => .ok .b8 | 4 => .ok .p | _ => .error .sub
def scopeOf : Nat → Except DecodeError Scope
  | 0 => .ok .task | 1 => .ok .core | 2 => .ok .quad | 3 => .ok .router | 4 => .ok .layer
  | 5 => .ok .stack | 6 => .ok .package | 7 => .ok .node | 8 => .ok .domain | 9 => .ok .group
  | 10 => .ok .enclave | 11 => .ok .system | _ => .error .sub
def tyOf : Nat → Except DecodeError Ty
  | 0 => .ok .bf16 | 1 => .ok .f16 | 2 => .ok .f32 | 3 => .ok .c8 | 4 => .ok .i8 | 5 => .ok .s4
  | 7 => .ok .any | _ => .error .sub
def tpOf : Nat → Except DecodeError Tp
  | 0 => .ok .f32 | 1 => .ok .bf16 | 2 => .ok .f16 | 3 => .ok .s32 | 7 => .ok .img
  | _ => .error .sub

/-- MK and mk: without MK, mk must be 0 (R114, R138). -/
def maskOf (mk : Bool) (m : Nat) : Except DecodeError Mask := do
  if mk then let r ← cls 4 m; .ok (some r) else do need (m == 0) .reserved; .ok none

/-- The mask of a V/T word (R138). -/
def vMask (w : Nat) : Except DecodeError Mask := maskOf (fBit w 7) (bits w 8 2)

/-- The final check of a decoded term: the operand limits of WellFormed. -/
def checked (i : Instr) : Dec := if wellFormed i then .ok i else .error .operand

/-! ### Shapes -/

def dR3 (w l0 l1 : Nat) (k : XReg → XSrc → XSrc → Instr) : Dec := do
  let d ← cls 62 (fRd w); lits2 (fRs w) (fRt w)
  .ok (k d (xsrc l0 l1 (fRs w)) (xsrc l0 l1 (fRt w)))
def dR2 (w l0 l1 : Nat) (k : XReg → XSrc → Instr) : Dec := do
  let d ← cls 62 (fRd w); need (fRt w == 0) .reserved
  .ok (k d (xsrc l0 l1 (fRs w)))
def dI (w l0 l1 : Nat) (k : XReg → XSrc → BitVec 13 → Instr) : Dec := do
  let d ← cls 62 (fRd w)
  .ok (k d (xsrc l0 l1 (fRs w)) (BitVec.ofNat 13 (fI13 w)))
/-- rs and rt sources, rd zero -/
def dS2 (w l0 l1 : Nat) (k : XSrc → XSrc → Instr) : Dec := do
  need (fRd w == 0) .reserved; lits2 (fRs w) (fRt w)
  .ok (k (xsrc l0 l1 (fRs w)) (xsrc l0 l1 (fRt w)))
/-- rs a source, rd and rt zero -/
def dS1 (w l0 l1 : Nat) (k : XSrc → Instr) : Dec := do
  need (fRd w == 0 && fRt w == 0) .reserved
  .ok (k (xsrc l0 l1 (fRs w)))
/-- all of [24:0] zero -/
def dZ (w : Nat) (i : Instr) : Dec := do need (bits w 0 25 == 0) .reserved; .ok i
def dB (w l0 l1 : Nat) (k : XSrc → XSrc → BitVec 13 → Instr) : Dec := do
  lits2 (fRd w) (fRs w)
  .ok (k (xsrc l0 l1 (fRd w)) (xsrc l0 l1 (fRs w)) (BitVec.ofNat 13 (fI13 w)))
def dV3 (w : Nat) (k : VReg → VReg → VReg → Mask → Instr) : Dec := do
  let m ← vMask w; let d ← cls 32 (fD5 w); let a ← cls 32 (fA5 w); let b ← cls 32 (fB5 w)
  .ok (k d a b m)
def dV2 (w : Nat) (k : VReg → VReg → Mask → Instr) : Dec := do
  let m ← vMask w; let d ← cls 32 (fD5 w); let a ← cls 32 (fA5 w); need (fB5 w == 0) .reserved
  .ok (k d a m)
def dVn (w : Nat) (k : VReg → VReg → BitVec 5 → Mask → Instr) : Dec := do
  let m ← vMask w; let d ← cls 32 (fD5 w); let a ← cls 32 (fA5 w)
  .ok (k d a (BitVec.ofNat 5 (fB5 w)) m)

/-! ### Families -/

def decAlu (w l0 l1 : Nat) : Dec :=
  match fFn w with
  | 0x00 => dR3 w l0 l1 .add | 0x01 => dR3 w l0 l1 .sub | 0x02 => dR3 w l0 l1 .and
  | 0x03 => dR3 w l0 l1 .or | 0x04 => dR3 w l0 l1 .xor | 0x05 => dR3 w l0 l1 .andn
  | 0x06 => dR3 w l0 l1 .orn | 0x07 => dR3 w l0 l1 .xnor | 0x08 => dR3 w l0 l1 .sll
  | 0x09 => dR3 w l0 l1 .srl | 0x0A => dR3 w l0 l1 .sra | 0x0B => dR3 w l0 l1 .ror
  | 0x0C => dR3 w l0 l1 .min | 0x0D => dR3 w l0 l1 .max | 0x0E => dR3 w l0 l1 .minu
  | 0x0F => dR3 w l0 l1 .maxu | 0x10 => dR3 w l0 l1 .addW | 0x11 => dR3 w l0 l1 .subW
  | 0x18 => dR3 w l0 l1 .sllW | 0x19 => dR3 w l0 l1 .srlW | 0x1A => dR3 w l0 l1 .sraW
  | 0x1B => dR3 w l0 l1 .rorW | _ => .error .sub

def decShi (w l0 l1 : Nat) : Dec := do
  need (bits w 10 3 == 0 && !fBit w 6) .reserved
  let d ← cls 62 (fRd w)
  let s := xsrc l0 l1 (fRs w)
  let b := fBit w 7
  let n := BitVec.ofNat 6 (bits w 0 6)
  match bits w 8 2 with
  | 0 => .ok (.slli d s b n) | 1 => .ok (.srli d s b n) | 2 => .ok (.srai d s b n)
  | _ => .ok (.rori d s b n)

def decMul (w l0 l1 : Nat) : Dec :=
  match fFn w with
  | 0 => dR3 w l0 l1 .mul | 1 => dR3 w l0 l1 .mulh | 2 => dR3 w l0 l1 .mulhu
  | 3 => dR3 w l0 l1 .mulhsu | 4 => dR3 w l0 l1 .mulW | 8 => dR3 w l0 l1 .madd
  | _ => .error .sub

def decDiv (w l0 l1 : Nat) : Dec :=
  match fFn w with
  | 0 => dR3 w l0 l1 .div | 1 => dR3 w l0 l1 .divu | 2 => dR3 w l0 l1 .rem
  | 3 => dR3 w l0 l1 .remu | 4 => dR3 w l0 l1 .divW | 5 => dR3 w l0 l1 .divuW
  | 6 => dR3 w l0 l1 .remW | 7 => dR3 w l0 l1 .remuW | _ => .error .sub

def decCmp (w l0 l1 : Nat) : Dec := do
  let c ← condOf (fFn w); dR3 w l0 l1 fun d s t => .cmp d s t c

noncomputable def decCmpi (w l0 l1 : Nat) : Dec := do
  let c ← condOf (bits w 9 4); let d ← cls 62 (fRd w)
  .ok (.cmpi d (xsrc l0 l1 (fRs w)) c (BitVec.ofNat 9 (bits w 0 9)))

noncomputable def decSel (w l0 l1 : Nat) : Dec := do
  let c ← cls 62 (bits w 0 6)
  if fBit w 6 then dR3 w l0 l1 fun d s t => .seln d s t c
  else dR3 w l0 l1 fun d s t => .sel d s t c

noncomputable def decBitf (w l0 l1 : Nat) : Dec :=
  match fFn w with
  | 0 => dR3 w l0 l1 .extz | 1 => dR3 w l0 l1 .exts | 2 => dR3 w l0 l1 .ins
  | 3 => dR2 w l0 l1 .clz | 4 => dR2 w l0 l1 .ctz | 5 => dR2 w l0 l1 .popc
  | 6 => dR2 w l0 l1 .brev | 7 => dR2 w l0 l1 .bswap | _ => .error .sub

noncomputable def decAddsh (w l0 l1 : Nat) : Dec := do
  need (bits w 3 4 == 0) .reserved
  dR3 w l0 l1 fun d s t => .addsh d s t (BitVec.ofNat 3 (bits w 0 3))

/-- rm field of SFP, and the members that must have it zero (R89). -/
def rm0 (w : Nat) : Except DecodeError Unit := need (bits w 0 2 == 0) .reserved

noncomputable def decSfp (w l0 l1 : Nat) : Dec :=
  let r := rmOf (bits w 0 2)
  match bits w 2 5 with
  | 0 => dR3 w l0 l1 (.fadd · · · r) | 1 => dR3 w l0 l1 (.fsub · · · r)
  | 2 => dR3 w l0 l1 (.fmul · · · r) | 3 => dR3 w l0 l1 (.fdiv · · · r)
  | 4 => dR2 w l0 l1 (.fsqrt · · r) | 5 => dR3 w l0 l1 (.fmadd · · · r)
  | 6 => do rm0 w; dR3 w l0 l1 .fmin
  | 7 => do rm0 w; dR3 w l0 l1 .fmax
  | 8 => do rm0 w; dR3 w l0 l1 .feq
  | 9 => do rm0 w; dR3 w l0 l1 .flt
  | 10 => do rm0 w; dR3 w l0 l1 .fle
  | 11 => do rm0 w; dR2 w l0 l1 .fclass
  | 12 => do rm0 w; dR2 w l0 l1 .fneg
  | 13 => do rm0 w; dR2 w l0 l1 .fabs
  | 14 => dR2 w l0 l1 (.fcvti · · r) | 15 => dR2 w l0 l1 (.fcvtiu · · r)
  | 16 => dR2 w l0 l1 (.fcvtf · · r) | 17 => dR2 w l0 l1 (.fcvtfu · · r)
  | 18 => dR2 w l0 l1 (.fnarrowBf16 · · r) | 19 => dR2 w l0 l1 (.fnarrowF16 · · r)
  | 20 => do rm0 w; dR2 w l0 l1 .fwidenBf16
  | 21 => do rm0 w; dR2 w l0 l1 .fwidenF16
  | _ => .error .sub

noncomputable def decLoop (w : Nat) : Dec := do
  need (fRs w == 0) .reserved
  let s ← cls 62 (fRd w); checked (.loop s (BitVec.ofNat 13 (fI13 w)))

noncomputable def decJr (w l0 l1 : Nat) : Dec :=
  match fFn w with
  | 0 => dS1 w l0 l1 .jr | 1 => dR2 w l0 l1 .jalr | 2 => dS1 w l0 l1 .ret | _ => .error .sub

noncomputable def decMov (w l0 l1 : Nat) : Dec := match fFn w with | 0 => dR2 w l0 l1 .mov | _ => .error .sub

noncomputable def decMovxw (w l0 l1 : Nat) : Dec := do
  lits2 (fRd w) (fRs w)
  .ok (.movxw (xsrc l0 l1 (fRd w)) (xsrc l0 l1 (fRs w)) (BitVec.ofNat 13 (fI13 w)))

noncomputable def decMova (w l0 l1 : Nat) : Dec :=
  match fFn w with
  | 0 => do let d ← cls 8 (fRd w); need (fRt w == 0) .reserved
            .ok (.movaToPointer d (xsrc l0 l1 (fRs w)))
  | 1 => do let d ← cls 62 (fRd w); let s ← cls 8 (fRs w); need (fRt w == 0) .reserved
            .ok (.movaFromPointer d s)
  | 2 => do let d ← cls 8 (fRd w); let s ← cls 8 (fRs w); .ok (.adda d s (xsrc l0 l1 (fRt w)))
  | 3 => do let d ← cls 8 (fRd w); let s ← cls 8 (fRs w); need (fRt w == 0) .reserved
            .ok (.movaPointerPointer d s)
  | _ => .error .sub

noncomputable def decMovq (w l0 l1 : Nat) : Dec :=
  match fFn w with
  | 0 => do let d ← cls 8 (fRd w); need (fRt w == 0) .reserved
            .ok (.movqSend d (xsrc l0 l1 (fRs w)))
  | 1 => do let d ← cls 62 (fRd w); let s ← cls 8 (fRs w); need (fRt w == 0) .reserved
            .ok (.movqReadSend d s)
  | 2 => do let d ← cls 62 (fRd w); let s ← cls 8 (fRs w); need (fRt w == 0) .reserved
            .ok (.movqReceive d s)
  | _ => .error .sub

noncomputable def decMovs (w : Nat) : Dec :=
  match fFn w with
  | 0 => do let d ← cls 62 (fRd w); let s ← cls 8 (fRs w); need (fRt w == 0) .reserved
            .ok (.movs d s)
  | 1 => do let d ← cls 62 (fRd w); let s ← cls 8 (fRs w); need (fRt w == 0) .reserved
            .ok (.movsS d s)
  | _ => .error .sub

noncomputable def decLi (w : Nat) : Dec := do
  let d ← cls 62 (fRd w)
  .ok (.li d (BitVec.ofNat 6 (fRs w)) (BitVec.ofNat 13 (fI13 w)))

noncomputable def decMovm (w l0 l1 : Nat) : Dec :=
  match fFn w with
  | 0 => do let d ← cls 4 (fRd w); need (fRt w == 0) .reserved
            .ok (.movmToMask d (xsrc l0 l1 (fRs w)))
  | 1 => do let d ← cls 62 (fRd w); let s ← cls 4 (fRs w); need (fRt w == 0) .reserved
            .ok (.movmFromMask d s)
  | 2 => do let d ← cls 4 (fRd w); let s ← cls 4 (fRs w); need (fRt w == 0) .reserved
            .ok (.movmMaskMask d s)
  | _ => .error .sub

noncomputable def decLd (w l0 l1 : Nat) : Dec := do
  let d ← cls 62 (fRd w)
  checked (.ld d (xsrc l0 l1 (fRs w)) (BitVec.ofNat 4 (bits w 9 4)) (ldTypeOf (bits w 6 3))
    (BitVec.ofNat 6 (bits w 0 6)))

noncomputable def decLdx (w l0 l1 : Nat) : Dec := do
  let d ← cls 62 (fRd w); need (bits w 4 3 == 0) .reserved
  checked (.ldx d (xsrc l0 l1 (fRs w)) (xsrc l0 l1 (fRt w)) (fBit w 3) (ldTypeOf (bits w 0 3)))

noncomputable def decLda (w l0 l1 : Nat) : Dec := do
  let d ← cls 62 (fRd w); let c ← scopeOf (bits w 9 4)
  checked (.lda d (xsrc l0 l1 (fRs w)) c (ldTypeOf (bits w 6 3)) (fBit w 5) (fBit w 4)
    (BitVec.ofNat 4 (bits w 0 4)))

noncomputable def decSt (w l0 l1 : Nat) : Dec := do
  let wc ← stWidthOf (bits w 10 3)
  checked (.st (xsrc l0 l1 (fRd w)) (xsrc l0 l1 (fRs w)) wc (BitVec.ofNat 10 (bits w 0 10)))

noncomputable def decStx (w l0 l1 : Nat) : Dec := do
  need (bits w 4 3 == 0) .reserved; let wc ← stWidthOf (bits w 0 3)
  checked (.stx (xsrc l0 l1 (fRd w)) (xsrc l0 l1 (fRs w)) (xsrc l0 l1 (fRt w)) (fBit w 3) wc)

noncomputable def decStl (w l0 l1 : Nat) : Dec := do
  let c ← scopeOf (bits w 9 4); let wc ← stWidthOf (bits w 6 3)
  checked (.stl (xsrc l0 l1 (fRd w)) (xsrc l0 l1 (fRs w)) c wc (fBit w 5) (fBit w 4)
    (BitVec.ofNat 4 (bits w 0 4)))

def vmodeOf (w l0 l1 : Nat) : Except DecodeError VMode :=
  match bits w 5 2 with
  | 0 => do need (fRt w == 0) .reserved; .ok (.contiguous (xsrc l0 l1 (fRs w)))
  | 1 => .ok (.strided (xsrc l0 l1 (fRs w)) (xsrc l0 l1 (fRt w)))
  | 2 => do let v ← cls 32 (fRs w); .ok (.indexed v (xsrc l0 l1 (fRt w)))
  | _ => .error .sub

def decVmem (w l0 l1 : Nat) (k : VReg → VMode → Mask → Instr) : Dec := do
  need (bits w 0 2 == 0) .reserved
  let d ← cls 32 (fRd w); let m ← vmodeOf w l0 l1; let mk ← maskOf (fBit w 4) (bits w 2 2)
  checked (k d m mk)

noncomputable def decAmo (w l0 l1 : Nat) : Dec :=
  let b2 := fBit w 2
  let b1 := fBit w 1
  let b0 := fBit w 0
  match bits w 3 4 with
  | 0 => dR3 w l0 l1 (.amoSwap · · · b2 b1 b0) | 1 => dR3 w l0 l1 (.amoAdd · · · b2 b1 b0)
  | 2 => dR3 w l0 l1 (.amoAnd · · · b2 b1 b0) | 3 => dR3 w l0 l1 (.amoOr · · · b2 b1 b0)
  | 4 => dR3 w l0 l1 (.amoXor · · · b2 b1 b0) | 5 => dR3 w l0 l1 (.amoMin · · · b2 b1 b0)
  | 6 => dR3 w l0 l1 (.amoMax · · · b2 b1 b0) | 7 => dR3 w l0 l1 (.amoMinu · · · b2 b1 b0)
  | 8 => dR3 w l0 l1 (.amoMaxu · · · b2 b1 b0) | 9 => dR3 w l0 l1 (.amoCas · · · b2 b1 b0)
  | 10 => do need (!b2) .sub; dR3 w l0 l1 (.amoFadd · · · b1 b0)
  | _ => .error .sub

noncomputable def decBkop (w l0 l1 : Nat) : Dec :=
  match fFn w with
  | 0 => dR3 w l0 l1 .bkopSumS32 | 1 => dR3 w l0 l1 .bkopSumF32 | 2 => dR3 w l0 l1 .bkopMinS32
  | 3 => dR3 w l0 l1 .bkopMaxS32 | 4 => dR3 w l0 l1 .bkopMinF32 | 5 => dR3 w l0 l1 .bkopMaxF32
  | 6 => dR3 w l0 l1 .bkopArgminS32 | 7 => dR3 w l0 l1 .bkopArgmaxS32
  | 8 => do lits3 (fRd w) (fRs w) (fRt w)
            .ok (.bkopFill (xsrc l0 l1 (fRd w)) (xsrc l0 l1 (fRs w)) (xsrc l0 l1 (fRt w)))
  | _ => .error .sub

noncomputable def decFence (w : Nat) : Dec := do
  need (fRd w == 0 && fRs w == 0 && fFn w == 0) .reserved
  let c ← scopeOf (bits w 9 4)
  match bits w 7 2 with
  | 0 => .ok (.fenceFull c) | 1 => .ok (.fenceAcq c) | 2 => .ok (.fenceRel c) | _ => .error .sub

noncomputable def decSpinw (w l0 l1 : Nat) : Dec := do
  need (bits w 5 4 == 0) .reserved; let d ← cls 62 (fRd w)
  checked (.spinw d (xsrc l0 l1 (fRs w)) (BitVec.ofNat 4 (bits w 9 4)) (BitVec.ofNat 5 (bits w 0 5)))

noncomputable def decTouch (w l0 l1 : Nat) : Dec := do
  need (fRd w == 0) .reserved
  .ok (.touch (xsrc l0 l1 (fRs w)) (fBit w 12) (BitVec.ofNat 12 (bits w 0 12)))

noncomputable def decGld (w l0 l1 : Nat) : Dec := do
  need (fFn w == 0) .reserved; lits2 (fRd w) (fRs w)
  .ok (.gld (xsrc l0 l1 (fRd w)) (xsrc l0 l1 (fRs w)) (BitVec.ofNat 4 (bits w 9 4))
    (BitVec.ofNat 2 (bits w 7 2)))

noncomputable def decGst (w l0 l1 : Nat) : Dec := do
  need (fRd w == 0 && bits w 0 4 == 0) .reserved; lits2 (fRs w) (fRt w)
  .ok (.gst (xsrc l0 l1 (fRs w)) (xsrc l0 l1 (fRt w)) (BitVec.ofNat 2 (bits w 5 2)) (fBit w 4))

noncomputable def decCopy (w l0 l1 : Nat) : Dec := match fFn w with | 0 => dR2 w l0 l1 .copy | _ => .error .sub
noncomputable def decCopys (w l0 l1 : Nat) : Dec := do
  need (fFn w == 0) .sub; need (fRt w == 0) .reserved
  let d ← cls 8 (fRd w); .ok (.copys d (xsrc l0 l1 (fRs w)))
noncomputable def decSbind (w l0 l1 : Nat) : Dec := do
  need (bits w 2 5 == 0) .reserved; let d ← cls 8 (fRd w); lits2 (fRs w) (fRt w)
  .ok (.sbind d (xsrc l0 l1 (fRs w)) (xsrc l0 l1 (fRt w)) (BitVec.ofNat 2 (bits w 0 2)))

noncomputable def decSctl (w l0 l1 : Nat) : Dec :=
  match fFn w with
  | 0 => do let d ← cls 8 (fRd w); need (fRs w == 0 && fRt w == 0) .reserved; .ok (.sctlUnbind d)
  | 1 => do let d ← cls 8 (fRd w); need (fRs w == 0) .reserved
            .ok (.sctlSkip d (xsrc l0 l1 (fRt w)))
  | 2 => do let d ← cls 62 (fRd w); let s ← cls 8 (fRs w); need (fRt w == 0) .reserved
            .ok (.sctlPos d s)
  | 3 => do let d ← cls 62 (fRd w); let s ← cls 8 (fRs w); need (fRt w == 0) .reserved
            .ok (.sctlLeft d s)
  | _ => .error .sub

noncomputable def decWaitr (w l0 l1 : Nat) : Dec :=
  match fFn w with
  | 0 => dS1 w l0 l1 .waitr
  | 1 => do need (fRd w == 0 && fRs w == 0 && fRt w == 0) .reserved; .ok .waitrAll
  | _ => .error .sub

noncomputable def decRnew (w l0 l1 : Nat) : Dec := match fFn w with | 0 => dR2 w l0 l1 .rnew | _ => .error .sub
noncomputable def decRpost (w l0 l1 : Nat) : Dec := do
  need (bits w 3 4 == 0) .reserved; lits3 (fRd w) (fRs w) (fRt w)
  .ok (.rpost (xsrc l0 l1 (fRd w)) (xsrc l0 l1 (fRs w)) (xsrc l0 l1 (fRt w))
    (fBit w 2) (fBit w 1) (fBit w 0))
noncomputable def decRread (w l0 l1 : Nat) : Dec := do
  need (bits w 1 6 == 0) .reserved; dR3 w l0 l1 (.rread · · · (fBit w 0))
noncomputable def decRdelta (w l0 l1 : Nat) : Dec := do
  need (bits w 1 6 == 0) .reserved; dR3 w l0 l1 (.rdelta · · · (fBit w 0))
noncomputable def decRabsent (w l0 l1 : Nat) : Dec :=
  match fFn w with | 0 => dS2 w l0 l1 .rabsent | _ => .error .sub
noncomputable def decRadv (w l0 l1 : Nat) : Dec := match fFn w with | 0 => dR2 w l0 l1 .radv | _ => .error .sub
noncomputable def decRfree (w l0 l1 : Nat) : Dec := match fFn w with | 0 => dS1 w l0 l1 .rfree | _ => .error .sub
noncomputable def decRstat (w l0 l1 : Nat) : Dec :=
  match fFn w with
  | 0 => dR2 w l0 l1 .rstatGen | 1 => dR3 w l0 l1 .rstatLanded | 2 => dR3 w l0 l1 .rstatAbsent
  | 3 => dR2 w l0 l1 .rstatLate | 4 => dR2 w l0 l1 .rstatCounts | 5 => dR3 w l0 l1 .rstatFlags
  | 6 => dR2 w l0 l1 .rstatClear | _ => .error .sub

/-- Lane members without a rounding mode (R138): rm and the high fn bits together. -/
def decViadd (w : Nat) : Dec :=
  match fFn w with
  | 0 => dV3 w .vadd | 1 => dV3 w .vsub | 2 => dV3 w .vadds | 3 => dV3 w .vsubs
  | 4 => dV3 w .vaddus | 5 => dV3 w .vsubus | _ => .error .sub
def decVimul (w : Nat) : Dec :=
  match fFn w with
  | 0 => dV3 w .vmul | 1 => dV3 w .vmulh | 2 => dV3 w .vmulhu | 3 => dV3 w .vmac
  | 4 => dV3 w .vdot4 | _ => .error .sub
def decVlogic (w : Nat) : Dec :=
  match fFn w with
  | 0 => dV3 w .vand | 1 => dV3 w .vor | 2 => dV3 w .vxor | 3 => dV3 w .vandn
  | 4 => dV2 w .vnot | _ => .error .sub
def decVshift (w : Nat) : Dec :=
  match fFn w with
  | 0 => dV3 w .vsll | 1 => dV3 w .vsrl | 2 => dV3 w .vsra | 3 => dV3 w .vror
  | 4 => dVn w .vslli | 5 => dVn w .vsrli | 6 => dVn w .vsrai | 7 => dVn w .vrori
  | _ => .error .sub
def decVimin (w : Nat) : Dec :=
  match fFn w with
  | 0 => dV3 w .vmin | 1 => dV3 w .vmax | 2 => dV3 w .vminu | 3 => dV3 w .vmaxu
  | 4 => dV2 w .vabs | _ => .error .sub
/-- The rounding mode of a V/T word (R138). -/
def vRm (w : Nat) : Rm := rmOf (bits w 5 2)
def decVfadd (w : Nat) : Dec :=
  match bits w 0 5 with
  | 0 => dV3 w (.vfadd · · · · (vRm w)) | 1 => dV3 w (.vfsub · · · · (vRm w)) | _ => .error .sub
def decVfmul (w : Nat) : Dec :=
  match bits w 0 5 with | 0 => dV3 w (.vfmul · · · · (vRm w)) | _ => .error .sub
def decVfma (w : Nat) : Dec :=
  match bits w 0 5 with
  | 0 => dV3 w (.vfma · · · · (vRm w)) | 1 => dV3 w (.vfms · · · · (vRm w))
  | 2 => dV3 w (.vfnma · · · · (vRm w)) | _ => .error .sub
def decVfmin (w : Nat) : Dec :=
  match fFn w with
  | 0 => dV3 w .vfmin | 1 => dV3 w .vfmax | 2 => dV2 w .vfabs | 3 => dV2 w .vfneg
  | _ => .error .sub
def decVfdiv (w : Nat) : Dec :=
  match bits w 0 5 with
  | 0 => dV3 w (.vfdiv · · · · (vRm w)) | 1 => dV2 w (.vfsqrt · · · (vRm w))
  | 2 => dV2 w (.vfrecip · · · (vRm w)) | 3 => dV2 w (.vfrsqrt · · · (vRm w))
  | _ => .error .sub
/-- The packing members of VCVT take no mask (R140). -/
def dPack (w : Nat) (k : VReg → VReg → VReg → Rm → Instr) : Dec := do
  need (bits w 7 3 == 0) .reserved
  let d ← cls 32 (fD5 w); let a ← cls 32 (fA5 w); let b ← cls 32 (fB5 w); .ok (k d a b (vRm w))
def rmV0 (w : Nat) : Except DecodeError Unit := need (bits w 5 2 == 0) .reserved
def decVcvt (w : Nat) : Dec :=
  match bits w 0 5 with
  | 0 => dV2 w (.vcvtS32 · · · (vRm w)) | 1 => dV2 w (.vcvtZ32 · · · (vRm w))
  | 2 => dV2 w (.vcvtF32S32 · · · (vRm w)) | 3 => dV2 w (.vcvtF32Z32 · · · (vRm w))
  | 4 => dPack w .vcvtPbf16 | 5 => dPack w .vcvtPf16
  | 6 => do rmV0 w; dV2 w .vcvtUbf16Lo
  | 7 => do rmV0 w; dV2 w .vcvtUbf16Hi
  | 8 => do rmV0 w; dV2 w .vcvtUf16Lo
  | 9 => do rmV0 w; dV2 w .vcvtUf16Hi
  | _ => .error .sub
def decVcmp (w : Nat) : Dec := do
  rmV0 w; let c ← vcondOf (bits w 0 5); let m ← vMask w
  let d ← cls 4 (fD5 w); let a ← cls 32 (fA5 w); let b ← cls 32 (fB5 w); .ok (.vcmp d a b m c)
def decVmask (w : Nat) : Dec := do
  need (bits w 5 5 == 0) .reserved; let d ← cls 4 (fD5 w); let a ← cls 4 (fA5 w)
  let b ← cls 4 (fB5 w)
  match bits w 0 5 with
  | 0 => .ok (.vmaskAnd d a b) | 1 => .ok (.vmaskOr d a b) | 2 => .ok (.vmaskXor d a b)
  | 3 => .ok (.vmaskAndn d a b)
  | 4 => do need (fB5 w == 0) .reserved; .ok (.vmaskNot d a)
  | 5 => do need (fA5 w == 0 && fB5 w == 0) .reserved; .ok (.vmaskSet d)
  | 6 => do need (fA5 w == 0 && fB5 w == 0) .reserved; .ok (.vmaskClr d)
  | _ => .error .sub
def decVsel (w : Nat) : Dec := do
  need (bits w 0 8 == 0) .reserved; let m ← cls 4 (bits w 8 2)
  let d ← cls 32 (fD5 w); let a ← cls 32 (fA5 w); let b ← cls 32 (fB5 w); .ok (.vsel d a b m)
def decVperm (w : Nat) : Dec :=
  match fFn w with | 0 => dV3 w .vperm | 1 => dV2 w .vrev | _ => .error .sub
noncomputable def decVbcast (w l0 l1 : Nat) : Dec :=
  match fFn w with
  | 0 => do let d ← cls 32 (fRd w); need (fRt w == 0) .reserved
            .ok (.vbcast d (xsrc l0 l1 (fRs w)))
  | 1 => do let d ← cls 32 (fRd w); let s ← cls 32 (fRs w)
            .ok (.vbcastLane d s (xsrc l0 l1 (fRt w)))
  | _ => .error .sub
def decVred (w : Nat) : Dec :=
  match bits w 0 5 with
  | 0 => do rmV0 w; dV2 w .vredSumS32
  | 1 => dV2 w (.vredSumF32 · · · (vRm w))
  | 2 => do rmV0 w; dV2 w .vredMinS32
  | 3 => do rmV0 w; dV2 w .vredMaxS32
  | 4 => do rmV0 w; dV2 w .vredMinF32
  | 5 => do rmV0 w; dV2 w .vredMaxF32
  | 6 => do rmV0 w; dV2 w .vredArgminF32
  | 7 => do rmV0 w; dV2 w .vredArgmaxF32
  | _ => .error .sub
def decVtopk (w : Nat) : Dec := do
  need (fFn w == 0) .sub; let m ← vMask w; let d ← cls 32 (fD5 w); let a ← cls 32 (fA5 w)
  checked (.vtopk d a (BitVec.ofNat 5 (fB5 w)) m)
noncomputable def decVmovx (w l0 l1 : Nat) : Dec :=
  match fFn w with
  | 0 => do let d ← cls 62 (fRd w); let s ← cls 32 (fRs w); .ok (.vmovx d s (xsrc l0 l1 (fRt w)))
  | 1 => do let d ← cls 62 (fRd w); let s ← cls 32 (fRs w); .ok (.vmovxS d s (xsrc l0 l1 (fRt w)))
  | _ => .error .sub
def decVlane (w : Nat) : Dec :=
  match fFn w with
  | 0 => do let m ← vMask w; let d ← cls 32 (fD5 w)
            need (fA5 w == 0 && fB5 w == 0) .reserved; .ok (.vlaneIota d m)
  | 1 => dV2 w .vlaneCompress
  | _ => .error .sub
def decVslide (w : Nat) : Dec := do
  need (!fBit w 6) .reserved
  dV3 w fun d a b m => .vslide d a b m (BitVec.ofNat 6 (bits w 0 6))

def decMma (w : Nat) : Dec := do
  need (!fBit w 9 && bits w 3 4 == 0) .reserved; let y ← tyOf (bits w 0 3)
  let c ← cls 2 (fD5 w); let a ← cls 4 (fA5 w); let b ← cls 4 (fB5 w)
  .ok (.mma c a b (fBit w 8) (fBit w 7) y)
def decMmaw (w : Nat) : Dec := do
  need (!fBit w 9 && bits w 3 4 == 0) .reserved; let y ← tyOf (bits w 0 3)
  let c ← cls 2 (fD5 w); let a ← cls 4 (fA5 w); let b ← cls 32 (fB5 w)
  .ok (.mmaw c a b (fBit w 8) (fBit w 7) y)
noncomputable def decMmam (w l0 l1 : Nat) : Dec := do
  need (!fBit w 3) .reserved; let y ← tyOf (bits w 0 3)
  let c ← cls 2 (fRd w); let t ← cls 4 (fRt w)
  .ok (.mmam c (xsrc l0 l1 (fRs w)) t (fBit w 6) (fBit w 5) (fBit w 4) y)
def decAccrd (w : Nat) : Dec := do
  need (bits w 0 3 == 0) .reserved; let p ← tpOf (bits w 3 3)
  let d ← cls 32 (fD5 w); let c ← cls 2 (fA5 w)
  checked (.accrd d c (BitVec.ofNat 6 (bits w 9 1 * 32 + fB5 w)) (fBit w 8) (rmOf (bits w 6 2)) p)
noncomputable def decAccst (w : Nat) : Dec := do
  need (bits w 0 3 == 0) .reserved; let p ← tpOf (bits w 3 3)
  let c ← cls 2 (fD5 w); let a ← cls 32 (fA5 w); let b ← cls 32 (fB5 w)
  checked (.accst c a b (fBit w 9) (fBit w 8) (rmOf (bits w 6 2)) p)
noncomputable def decAccld (w : Nat) : Dec := do
  need (bits w 0 3 == 0) .reserved; let p ← tpOf (bits w 3 3)
  let c ← cls 2 (fD5 w); let a ← cls 32 (fA5 w); let b ← cls 32 (fB5 w)
  checked (.accld c a b (fBit w 9) (fBit w 8) (rmOf (bits w 6 2)) p)
def decAccclr (w : Nat) : Dec := do
  need (bits w 1 19 == 0) .reserved; let c ← cls 2 (fD5 w); .ok (.accclr c (fBit w 0))
noncomputable def decAccstat (w : Nat) : Dec := do
  need (fRt w == 0 && fFn w == 0) .reserved; let d ← cls 62 (fRd w); let c ← cls 2 (fRs w)
  .ok (.accstat d c)
noncomputable def decTld (w : Nat) : Dec := do
  need (bits w 1 9 == 0) .reserved; let a ← cls 32 (fA5 w)
  if fBit w 0 then do
    need (fB5 w == 0) .reserved; let d ← cls 32 (fD5 w); .ok (.tldW d a)
  else do
    let d ← cls 4 (fD5 w); let b ← cls 32 (fB5 w); .ok (.tld d a b)
noncomputable def decTst (w : Nat) : Dec := do
  need (fFl w == 0) .reserved; let a ← cls 32 (fA5 w); let d ← cls 4 (fD5 w)
  let b ← cls 32 (fB5 w); .ok (.tst d a b)
def decTmov (w : Nat) : Dec := do
  need (bits w 3 7 == 0) .reserved
  match bits w 0 3 with
  | 0 => do let d ← cls 4 (fD5 w); let a ← cls 4 (fA5 w); need (fB5 w == 0) .reserved
            .ok (.tmov d a)
  | 1 => do let d ← cls 4 (fD5 w); let a ← cls 4 (fA5 w); need (fB5 w == 0) .reserved
            .ok (.tmovT16 d a)
  | 2 => do let d ← cls 4 (fD5 w); let a ← cls 4 (fA5 w); need (fB5 w == 0) .reserved
            .ok (.tmovT8 d a)
  | 3 => do let d ← cls 4 (fD5 w); let a ← cls 32 (fA5 w); let b ← cls 32 (fB5 w)
            .ok (.tmovVr d a b)
  | 4 => do let d ← cls 32 (fD5 w); let a ← cls 4 (fA5 w); let b ← cls 32 (fB5 w)
            .ok (.tmovRv d a b)
  | 5 => do let d ← cls 4 (fD5 w); need (fA5 w == 0 && fB5 w == 0) .reserved; .ok (.tmovZero d)
  | _ => .error .sub
noncomputable def decTabld (w : Nat) : Dec := do
  need (fD5 w == 0 && fB5 w == 0 && bits w 4 6 == 0) .reserved
  if fBit w 3 then do
    need (fA5 w == 0 && !fBit w 0) .reserved; let p ← cls 4 (bits w 1 2); .ok (.tabldPreset p)
  else do
    need (bits w 1 2 == 0) .reserved; let a ← cls 32 (fA5 w); .ok (.tabld a (fBit w 0))
def decEnc (w : Nat) (k : VReg → VReg → Fin 4 → Instr) : Dec := do
  need (fFl w == 0) .reserved; let d ← cls 32 (fD5 w); let a ← cls 32 (fA5 w)
  let q ← cls 4 (fB5 w); .ok (k d a q)
noncomputable def decRepf (w : Nat) : Dec := do
  need (bits w 0 5 == 0) .reserved
  .ok (.repf (BitVec.ofNat 4 (bits w 21 4)) (BitVec.ofNat 8 (bits w 13 8))
    (BitVec.ofNat 5 (bits w 8 5)) (BitVec.ofNat 3 (bits w 5 3)))

noncomputable def decTask (w l0 l1 : Nat) : Dec :=
  match fFn w with
  | 0 => do need (fRd w == 0 && fRs w == 0 && fRt w == 0) .reserved; .ok .done
  | 1 => dS1 w l0 l1 .phaseOr | 2 => dS1 w l0 l1 .phaseMax | 3 => dS1 w l0 l1 .yield
  | _ => .error .sub
noncomputable def decSpawn (w l0 l1 : Nat) : Dec := match fFn w with | 0 => dS2 w l0 l1 .spawn | _ => .error .sub
noncomputable def decBar (w l0 l1 : Nat) : Dec :=
  match fFn w with
  | 0 => dR3 w l0 l1 .barInit | 1 => dR2 w l0 l1 .barArr | 2 => dS2 w l0 l1 .barw
  | 3 => dS1 w l0 l1 .barSync | 4 => dR2 w l0 l1 .barRead | _ => .error .sub
noncomputable def decJoin (w l0 l1 : Nat) : Dec :=
  match fFn w with
  | 0 => dR3 w l0 l1 .joinArm | 1 => dR2 w l0 l1 .joinArr | 2 => dR2 w l0 l1 .joinRead
  | _ => .error .sub
noncomputable def decMsg (w : Nat) : Dec := do
  need (fRs w == 0 && fRt w == 0) .reserved
  match fFn w with
  | 0 => do let d ← cls 62 (fRd w); .ok (.msgPoll d)
  | 1 => do let d ← cls 62 (fRd w); .ok (.msgHdr d)
  | 2 => do need (fRd w == 0) .reserved; .ok .msgDrop
  | _ => .error .sub
noncomputable def decCompose (w l0 l1 : Nat) : Dec :=
  match fFn w with | 0 => dR2 w l0 l1 .compose | _ => .error .sub
noncomputable def decCsetup (w l0 l1 : Nat) : Dec :=
  match fFn w with | 0 => dR3 w l0 l1 .csetup | _ => .error .sub
noncomputable def decCrel (w l0 l1 : Nat) : Dec := match fFn w with | 0 => dS1 w l0 l1 .crel | _ => .error .sub
noncomputable def decCqpost (w l0 l1 : Nat) : Dec :=
  match fFn w with | 0 => dR3 w l0 l1 .cqpost | _ => .error .sub
noncomputable def decTrig (w l0 l1 : Nat) : Dec :=
  match fFn w with
  | 0 => dS2 w l0 l1 .trigAdd | 1 => dS2 w l0 l1 .trigSet | 2 => dR2 w l0 l1 .trigRead
  | _ => .error .sub
noncomputable def decCqwait (w l0 l1 : Nat) : Dec :=
  match fFn w with | 0 => dR3 w l0 l1 .cqwait | _ => .error .sub
noncomputable def decCabort (w l0 l1 : Nat) : Dec :=
  match fFn w with | 0 => dS1 w l0 l1 .cabort | 1 => dR2 w l0 l1 .cabortSeq | _ => .error .sub
noncomputable def decGatek (w l0 l1 : Nat) : Dec :=
  match fFn w with
  | 0 => do need (fRd w == 0) .reserved; let v ← cls 32 (fRs w)
            .ok (.gatek v (xsrc l0 l1 (fRt w)))
  | 1 => dR3 w l0 l1 .gatekOpen
  | _ => .error .sub
noncomputable def decDispatch (w l0 l1 : Nat) : Dec :=
  match fFn w with | 0 => dR2 w l0 l1 .dispatch | _ => .error .sub
noncomputable def decCsr (w l0 l1 : Nat) : Dec :=
  let c := BitVec.ofNat 12 (bits w 7 12)
  match fFn w with
  | 0 => do let d ← cls 62 (fRd w); .ok (.csrr d c)
  | 1 => .ok (.csrw (xsrc l0 l1 (fRd w)) c)
  | 2 => .ok (.csrs (xsrc l0 l1 (fRd w)) c)
  | 3 => .ok (.csrc (xsrc l0 l1 (fRd w)) c)
  | _ => .error .sub
noncomputable def decTrap (w : Nat) : Dec := do
  need (fRs w == 0) .reserved
  match fRd w with
  | 0 => .ok (.trap (BitVec.ofNat 13 (fI13 w))) | 1 => .ok (.brk (BitVec.ofNat 13 (fI13 w)))
  | _ => .error .sub
noncomputable def decXinv (w l0 l1 : Nat) : Dec :=
  match fFn w with
  | 0 => dS2 w l0 l1 .xinvPage
  | 1 => do need (fRd w == 0 && fRs w == 0) .reserved; .ok (.xinvAsid (xsrc l0 l1 (fRt w)))
  | 2 => do need (fRd w == 0 && fRs w == 0 && fRt w == 0) .reserved; .ok .xinvAll
  | 3 => do need (fRd w == 0 && fRs w == 0 && fRt w == 0) .reserved; .ok .xinvSync
  | _ => .error .sub
noncomputable def decGstop (w l0 l1 : Nat) : Dec :=
  match fFn w with | 0 => dR2 w l0 l1 .gstop | 1 => dR2 w l0 l1 .gstopGo | _ => .error .sub
noncomputable def decFreeze (w l0 l1 : Nat) : Dec :=
  match fFn w with | 0 => dR2 w l0 l1 .freeze | 1 => dR2 w l0 l1 .unfreeze | _ => .error .sub
noncomputable def decLctl (w l0 l1 : Nat) : Dec :=
  match fFn w with
  | 0 => dR2 w l0 l1 .lctlSleep | 1 => dR2 w l0 l1 .lctlDrowsy | 2 => dR2 w l0 l1 .lctlWake
  | 3 => dR2 w l0 l1 .lctlRetire | _ => .error .sub

/-- The majors whose instructions a repeat frame can capture (R60). -/
def decodeV (w : Nat) : Dec :=
  match fOp w with
  | 0x40 => decViadd w
  | 0x41 => decVimul w
  | 0x42 => decVlogic w
  | 0x43 => decVshift w
  | 0x44 => decVimin w
  | 0x45 => decVfadd w
  | 0x46 => decVfmul w
  | 0x47 => decVfma w
  | 0x48 => decVfmin w
  | 0x49 => decVfdiv w
  | 0x4B => decVcvt w
  | 0x4C => decVcmp w
  | 0x4D => decVmask w
  | 0x4E => decVsel w
  | 0x4F => decVperm w
  | 0x51 => decVred w
  | 0x52 => decVtopk w
  | 0x54 => decVlane w
  | 0x55 => decVslide w
  | 0x58 => decMma w
  | 0x59 => decMmaw w
  | 0x5B => decAccrd w
  | 0x5F => decAccclr w
  | 0x63 => decTmov w
  | _ => .error .major

/-- R63, R64: the opcode map. `w` is the instruction word, `l0` and `l1` the two words after it. -/
noncomputable def decodeWord (w l0 l1 : Nat) : Dec :=
  match fOp w with
  | 0x01 => decAlu w l0 l1 | 0x02 => dI w l0 l1 .addi | 0x03 => dI w l0 l1 .andi
  | 0x04 => dI w l0 l1 .ori | 0x05 => dI w l0 l1 .xori | 0x06 => decShi w l0 l1
  | 0x07 => decMul w l0 l1 | 0x08 => decDiv w l0 l1 | 0x09 => decCmp w l0 l1
  | 0x0A => decCmpi w l0 l1 | 0x0B => decSel w l0 l1 | 0x0C => decBitf w l0 l1
  | 0x0D => decAddsh w l0 l1 | 0x0E => decSfp w l0 l1 | 0x0F => .ok (.hint (BitVec.ofNat 25 w))
  | 0x10 => dB w l0 l1 .beq | 0x11 => dB w l0 l1 .bne | 0x12 => dB w l0 l1 .blt
  | 0x13 => dB w l0 l1 .bge | 0x14 => decLoop w | 0x15 => decJr w l0 l1
  | 0x16 => .ok (.j (BitVec.ofNat 25 w)) | 0x17 => .ok (.call (BitVec.ofNat 25 w))
  | 0x18 => decMov w l0 l1 | 0x19 => dI w l0 l1 .movx | 0x1A => decMovxw w l0 l1
  | 0x1B => decMova w l0 l1 | 0x1C => decMovq w l0 l1 | 0x1D => decMovs w | 0x1E => decLi w
  | 0x1F => decMovm w l0 l1
  | 0x20 => decLd w l0 l1 | 0x21 => decLdx w l0 l1 | 0x22 => decLda w l0 l1 | 0x23 => decSt w l0 l1
  | 0x24 => decStx w l0 l1 | 0x25 => decStl w l0 l1 | 0x26 => decVmem w l0 l1 .vld
  | 0x27 => decVmem w l0 l1 .vst | 0x28 => decAmo w l0 l1 | 0x29 => decBkop w l0 l1
  | 0x2A => decFence w | 0x2B => decSpinw w l0 l1 | 0x2C => decTouch w l0 l1 | 0x2D => dZ w .region
  | 0x2E => decGld w l0 l1 | 0x2F => decGst w l0 l1
  | 0x30 => decCopy w l0 l1 | 0x31 => decCopys w l0 l1 | 0x32 => decSbind w l0 l1
  | 0x33 => decSctl w l0 l1 | 0x34 => decWaitr w l0 l1 | 0x38 => decRnew w l0 l1
  | 0x39 => decRpost w l0 l1 | 0x3A => decRread w l0 l1 | 0x3B => decRdelta w l0 l1
  | 0x3C => decRabsent w l0 l1 | 0x3D => decRadv w l0 l1 | 0x3E => decRfree w l0 l1
  | 0x3F => decRstat w l0 l1
  | 0x40 => decodeV w | 0x41 => decodeV w | 0x42 => decodeV w | 0x43 => decodeV w
  | 0x44 => decodeV w | 0x45 => decodeV w | 0x46 => decodeV w | 0x47 => decodeV w
  | 0x48 => decodeV w | 0x49 => decodeV w | 0x4B => decodeV w | 0x4C => decodeV w
  | 0x4D => decodeV w | 0x4E => decodeV w | 0x4F => decodeV w
  | 0x50 => decVbcast w l0 l1 | 0x51 => decodeV w | 0x52 => decodeV w | 0x53 => decVmovx w l0 l1
  | 0x54 => decodeV w | 0x55 => decodeV w | 0x58 => decodeV w | 0x59 => decodeV w
  | 0x5A => decMmam w l0 l1 | 0x5B => decodeV w | 0x5C => decAccst w | 0x5D => decAccld w
  | 0x5E => dZ w .accswap | 0x5F => decodeV w
  | 0x60 => decAccstat w | 0x61 => decTld w | 0x62 => decTst w | 0x63 => decodeV w
  | 0x64 => decTabld w | 0x65 => decEnc w .enc | 0x66 => decEnc w .dec | 0x67 => decRepf w
  | 0x68 => decTask w l0 l1 | 0x69 => decSpawn w l0 l1 | 0x6A => decBar w l0 l1
  | 0x6B => decJoin w l0 l1 | 0x6C => decMsg w | 0x6D => decCompose w l0 l1 | 0x6E => dZ w .decompose
  | 0x70 => decCsetup w l0 l1 | 0x71 => decCrel w l0 l1 | 0x72 => decCqpost w l0 l1
  | 0x73 => decTrig w l0 l1 | 0x74 => decCqwait w l0 l1 | 0x75 => decCabort w l0 l1
  | 0x76 => decGatek w l0 l1 | 0x77 => decDispatch w l0 l1 | 0x78 => decCsr w l0 l1
  | 0x79 => decTrap w | 0x7A => dZ w .eret | 0x7B => decXinv w l0 l1 | 0x7C => decGstop w l0 l1
  | 0x7D => decFreeze w l0 l1 | 0x7E => decLctl w l0 l1
  | _ => .error .major

/-! ### The encoder -/

def XSrc.code : XSrc → Nat
  | .reg r => r.val
  | .lit32 _ => 62
  | .lit64 _ => 63

/-- The literal words of an operand, low word first (R51). -/
def XSrc.lits : XSrc → List Nat
  | .reg _ => []
  | .lit32 v => [v.toNat]
  | .lit64 v => [v.toNat % 2 ^ 32, v.toNat / 2 ^ 32]

def Rm.code : Rm → Nat
  | .rne => 0 | .rtz => 1 | .rup => 2 | .rdn => 3
def Cond.code : Cond → Nat
  | .eq => 0 | .ne => 1 | .lt => 2 | .ge => 3 | .ltu => 4 | .geu => 5 | .le => 6 | .gt => 7
  | .leu => 8 | .gtu => 9
def VCond.code : VCond → Nat
  | .eq => 0 | .ne => 1 | .lt => 2 | .le => 3 | .ltu => 4 | .leu => 5 | .feq => 8 | .fne => 9
  | .flt => 10 | .fle => 11 | .unord => 12
def LdType.code : LdType → Nat
  | .s8 => 0 | .z8 => 1 | .s16 => 2 | .z16 => 3 | .s32 => 4 | .z32 => 5 | .b64 => 6 | .p => 7
def StWidth.code : StWidth → Nat
  | .b1 => 0 | .b2 => 1 | .b4 => 2 | .b8 => 3 | .p => 4
def Scope.code : Scope → Nat
  | .task => 0 | .core => 1 | .quad => 2 | .router => 3 | .layer => 4 | .stack => 5
  | .package => 6 | .node => 7 | .domain => 8 | .group => 9 | .enclave => 10 | .system => 11
def Ty.code : Ty → Nat
  | .bf16 => 0 | .f16 => 1 | .f32 => 2 | .c8 => 3 | .i8 => 4 | .s4 => 5 | .any => 7
def Tp.code : Tp → Nat
  | .f32 => 0 | .bf16 => 1 | .f16 => 2 | .s32 => 3 | .img => 7
/-- [9:7] of a V/T word: mk and MK (R138). -/
def maskCode : Mask → Nat
  | none => 0
  | some m => 2 * m.val + 1

/-- R format (R54). -/
def wR (op d s t f : Nat) : Nat := op * 2 ^ 25 + d * 2 ^ 19 + s * 2 ^ 13 + t * 2 ^ 7 + f
/-- I and B formats (R54). -/
def wI (op d s i : Nat) : Nat := op * 2 ^ 25 + d * 2 ^ 19 + s * 2 ^ 13 + i
/-- J format (R54). -/
def wJ (op o : Nat) : Nat := op * 2 ^ 25 + o
/-- V/T format (R54). -/
def wV (op d a b fl : Nat) : Nat := op * 2 ^ 25 + d * 2 ^ 20 + a * 2 ^ 15 + b * 2 ^ 10 + fl
/-- F format (R54). -/
def wF (op k n s e : Nat) : Nat := op * 2 ^ 25 + k * 2 ^ 21 + n * 2 ^ 13 + s * 2 ^ 8 + e * 2 ^ 5
/-- S format (R54). -/
def wS (op d c f : Nat) : Nat := op * 2 ^ 25 + d * 2 ^ 19 + c * 2 ^ 7 + f
/-- fl10 of R138. -/
def fl (m : Mask) (rm fn : Nat) : Nat := maskCode m * 2 ^ 7 + rm * 2 ^ 5 + fn

def e3 (op fn : Nat) (d : XReg) (s t : XSrc) : List Nat :=
  wR op d.val s.code t.code fn :: (s.lits ++ t.lits)
def e2 (op fn : Nat) (d : XReg) (s : XSrc) : List Nat := wR op d.val s.code 0 fn :: s.lits
def eS2 (op fn : Nat) (s t : XSrc) : List Nat := wR op 0 s.code t.code fn :: (s.lits ++ t.lits)
def eS1 (op fn : Nat) (s : XSrc) : List Nat := wR op 0 s.code 0 fn :: s.lits
def eI (op : Nat) (d : XReg) (s : XSrc) (i : BitVec 13) : List Nat :=
  wI op d.val s.code i.toNat :: s.lits
def eB (op : Nat) (s t : XSrc) (o : BitVec 13) : List Nat :=
  wI op s.code t.code o.toNat :: (s.lits ++ t.lits)
def eV (op fn rm : Nat) (d a b : Nat) (m : Mask) : List Nat := [wV op d a b (fl m rm fn)]
def eShi (kind : Nat) (d : XReg) (s : XSrc) (w : Bool) (n : BitVec 6) : List Nat :=
  wI 0x06 d.val s.code (kind * 2 ^ 8 + w.toNat * 2 ^ 7 + n.toNat) :: s.lits
def eAmo (op : Nat) (d : XReg) (s t : XSrc) (w q r : Bool) : List Nat :=
  e3 0x28 (op * 8 + w.toNat * 4 + q.toNat * 2 + r.toNat) d s t
def eVmem (op : Nat) (d : VReg) (m : VMode) (k : Mask) : List Nat :=
  let mk := match k with | none => 0 | some r => 16 + 4 * r.val
  match m with
  | .contiguous b => wR op d.val b.code 0 mk :: b.lits
  | .strided b t => wR op d.val b.code t.code (32 + mk) :: (b.lits ++ t.lits)
  | .indexed v b => wR op d.val v.val b.code (64 + mk) :: b.lits

/-- The words of an instruction: the instruction word, then its literal words. The steps that are
not instruction words have none. -/
def encode : Instr → List Nat
  | .add d s t => e3 0x01 0x00 d s t | .sub d s t => e3 0x01 0x01 d s t
  | .and d s t => e3 0x01 0x02 d s t | .or d s t => e3 0x01 0x03 d s t
  | .xor d s t => e3 0x01 0x04 d s t | .andn d s t => e3 0x01 0x05 d s t
  | .orn d s t => e3 0x01 0x06 d s t | .xnor d s t => e3 0x01 0x07 d s t
  | .sll d s t => e3 0x01 0x08 d s t | .srl d s t => e3 0x01 0x09 d s t
  | .sra d s t => e3 0x01 0x0A d s t | .ror d s t => e3 0x01 0x0B d s t
  | .min d s t => e3 0x01 0x0C d s t | .max d s t => e3 0x01 0x0D d s t
  | .minu d s t => e3 0x01 0x0E d s t | .maxu d s t => e3 0x01 0x0F d s t
  | .addW d s t => e3 0x01 0x10 d s t | .subW d s t => e3 0x01 0x11 d s t
  | .sllW d s t => e3 0x01 0x18 d s t | .srlW d s t => e3 0x01 0x19 d s t
  | .sraW d s t => e3 0x01 0x1A d s t | .rorW d s t => e3 0x01 0x1B d s t
  | .addi d s i => eI 0x02 d s i | .andi d s i => eI 0x03 d s i | .ori d s i => eI 0x04 d s i
  | .xori d s i => eI 0x05 d s i
  | .slli d s w n => eShi 0 d s w n | .srli d s w n => eShi 1 d s w n
  | .srai d s w n => eShi 2 d s w n | .rori d s w n => eShi 3 d s w n
  | .mul d s t => e3 0x07 0 d s t | .mulh d s t => e3 0x07 1 d s t | .mulhu d s t => e3 0x07 2 d s t
  | .mulhsu d s t => e3 0x07 3 d s t | .mulW d s t => e3 0x07 4 d s t | .madd d s t => e3 0x07 8 d s t
  | .div d s t => e3 0x08 0 d s t | .divu d s t => e3 0x08 1 d s t | .rem d s t => e3 0x08 2 d s t
  | .remu d s t => e3 0x08 3 d s t | .divW d s t => e3 0x08 4 d s t | .divuW d s t => e3 0x08 5 d s t
  | .remW d s t => e3 0x08 6 d s t | .remuW d s t => e3 0x08 7 d s t
  | .cmp d s t c => e3 0x09 c.code d s t
  | .cmpi d s c i => wI 0x0A d.val s.code (c.code * 2 ^ 9 + i.toNat) :: s.lits
  | .sel d s t c => e3 0x0B c.val d s t | .seln d s t c => e3 0x0B (64 + c.val) d s t
  | .extz d s t => e3 0x0C 0 d s t | .exts d s t => e3 0x0C 1 d s t | .ins d s t => e3 0x0C 2 d s t
  | .clz d s => e2 0x0C 3 d s | .ctz d s => e2 0x0C 4 d s | .popc d s => e2 0x0C 5 d s
  | .brev d s => e2 0x0C 6 d s | .bswap d s => e2 0x0C 7 d s
  | .addsh d s t k => e3 0x0D k.toNat d s t
  | .fadd d s t r => e3 0x0E r.code d s t | .fsub d s t r => e3 0x0E (4 + r.code) d s t
  | .fmul d s t r => e3 0x0E (8 + r.code) d s t | .fdiv d s t r => e3 0x0E (12 + r.code) d s t
  | .fsqrt d s r => e2 0x0E (16 + r.code) d s | .fmadd d s t r => e3 0x0E (20 + r.code) d s t
  | .fmin d s t => e3 0x0E 24 d s t | .fmax d s t => e3 0x0E 28 d s t
  | .feq d s t => e3 0x0E 32 d s t | .flt d s t => e3 0x0E 36 d s t | .fle d s t => e3 0x0E 40 d s t
  | .fclass d s => e2 0x0E 44 d s | .fneg d s => e2 0x0E 48 d s | .fabs d s => e2 0x0E 52 d s
  | .fcvti d s r => e2 0x0E (56 + r.code) d s | .fcvtiu d s r => e2 0x0E (60 + r.code) d s
  | .fcvtf d s r => e2 0x0E (64 + r.code) d s | .fcvtfu d s r => e2 0x0E (68 + r.code) d s
  | .fnarrowBf16 d s r => e2 0x0E (72 + r.code) d s | .fnarrowF16 d s r => e2 0x0E (76 + r.code) d s
  | .fwidenBf16 d s => e2 0x0E 80 d s | .fwidenF16 d s => e2 0x0E 84 d s
  | .hint x => [wJ 0x0F x.toNat]
  | .beq s t o => eB 0x10 s t o | .bne s t o => eB 0x11 s t o | .blt s t o => eB 0x12 s t o
  | .bge s t o => eB 0x13 s t o
  | .loop s o => [wI 0x14 s.val 0 o.toNat]
  | .jr s => eS1 0x15 0 s | .jalr d s => e2 0x15 1 d s | .ret s => eS1 0x15 2 s
  | .j o => [wJ 0x16 o.toNat] | .call o => [wJ 0x17 o.toNat]
  | .mov d s => e2 0x18 0 d s | .movx d s k => eI 0x19 d s k
  | .movxw d s k => wI 0x1A d.code s.code k.toNat :: (d.lits ++ s.lits)
  | .movaToPointer d s => wR 0x1B d.val s.code 0 0 :: s.lits
  | .movaFromPointer d s => [wR 0x1B d.val s.val 0 1]
  | .adda d s t => wR 0x1B d.val s.val t.code 2 :: t.lits
  | .movaPointerPointer d s => [wR 0x1B d.val s.val 0 3]
  | .movqSend d s => wR 0x1C d.val s.code 0 0 :: s.lits
  | .movqReadSend d s => [wR 0x1C d.val s.val 0 1] | .movqReceive d s => [wR 0x1C d.val s.val 0 2]
  | .movs d s => [wR 0x1D d.val s.val 0 0] | .movsS d s => [wR 0x1D d.val s.val 0 1]
  | .li d h i => [wI 0x1E d.val h.toNat i.toNat]
  | .movmToMask d s => wR 0x1F d.val s.code 0 0 :: s.lits
  | .movmFromMask d s => [wR 0x1F d.val s.val 0 1] | .movmMaskMask d s => [wR 0x1F d.val s.val 0 2]
  | .ld d s l t o => wI 0x20 d.val s.code (l.toNat * 2 ^ 9 + t.code * 2 ^ 6 + o.toNat) :: s.lits
  | .ldx d s r k t => e3 0x21 (k.toNat * 8 + t.code) d s r
  | .lda d s c t q a o => wI 0x22 d.val s.code
      (c.code * 2 ^ 9 + t.code * 2 ^ 6 + q.toNat * 2 ^ 5 + a.toNat * 2 ^ 4 + o.toNat) :: s.lits
  | .st d s w o => wI 0x23 d.code s.code (w.code * 2 ^ 10 + o.toNat) :: (d.lits ++ s.lits)
  | .stx d s r k w => wR 0x24 d.code s.code r.code (k.toNat * 8 + w.code)
      :: (d.lits ++ s.lits ++ r.lits)
  | .stl d s c w q a o => wI 0x25 d.code s.code
      (c.code * 2 ^ 9 + w.code * 2 ^ 6 + q.toNat * 2 ^ 5 + a.toNat * 2 ^ 4 + o.toNat)
      :: (d.lits ++ s.lits)
  | .vld d m k => eVmem 0x26 d m k | .vst d m k => eVmem 0x27 d m k
  | .amoSwap d s t w q r => eAmo 0 d s t w q r | .amoAdd d s t w q r => eAmo 1 d s t w q r
  | .amoAnd d s t w q r => eAmo 2 d s t w q r | .amoOr d s t w q r => eAmo 3 d s t w q r
  | .amoXor d s t w q r => eAmo 4 d s t w q r | .amoMin d s t w q r => eAmo 5 d s t w q r
  | .amoMax d s t w q r => eAmo 6 d s t w q r | .amoMinu d s t w q r => eAmo 7 d s t w q r
  | .amoMaxu d s t w q r => eAmo 8 d s t w q r | .amoCas d s t w q r => eAmo 9 d s t w q r
  | .amoFadd d s t q r => eAmo 10 d s t false q r
  | .bkopSumS32 d s t => e3 0x29 0 d s t | .bkopSumF32 d s t => e3 0x29 1 d s t
  | .bkopMinS32 d s t => e3 0x29 2 d s t | .bkopMaxS32 d s t => e3 0x29 3 d s t
  | .bkopMinF32 d s t => e3 0x29 4 d s t | .bkopMaxF32 d s t => e3 0x29 5 d s t
  | .bkopArgminS32 d s t => e3 0x29 6 d s t | .bkopArgmaxS32 d s t => e3 0x29 7 d s t
  | .bkopFill d s t => wR 0x29 d.code s.code t.code 8 :: (d.lits ++ s.lits ++ t.lits)
  | .fenceFull c => [wI 0x2A 0 0 (c.code * 2 ^ 9)]
  | .fenceAcq c => [wI 0x2A 0 0 (c.code * 2 ^ 9 + 2 ^ 7)]
  | .fenceRel c => [wI 0x2A 0 0 (c.code * 2 ^ 9 + 2 ^ 8)]
  | .spinw d s l e => wI 0x2B d.val s.code (l.toNat * 2 ^ 9 + e.toNat) :: s.lits
  | .touch s w o => wI 0x2C 0 s.code (w.toNat * 2 ^ 12 + o.toNat) :: s.lits
  | .region => [wJ 0x2D 0]
  | .gld d s l z => wI 0x2E d.code s.code (l.toNat * 2 ^ 9 + z.toNat * 2 ^ 7) :: (d.lits ++ s.lits)
  | .gst s t z r => wR 0x2F 0 s.code t.code (z.toNat * 2 ^ 5 + r.toNat * 2 ^ 4)
      :: (s.lits ++ t.lits)
  | .copy d s => e2 0x30 0 d s | .copys d s => wR 0x31 d.val s.code 0 0 :: s.lits
  | .sbind d s t w => wR 0x32 d.val s.code t.code w.toNat :: (s.lits ++ t.lits)
  | .sctlUnbind d => [wR 0x33 d.val 0 0 0] | .sctlSkip d t => wR 0x33 d.val 0 t.code 1 :: t.lits
  | .sctlPos d s => [wR 0x33 d.val s.val 0 2] | .sctlLeft d s => [wR 0x33 d.val s.val 0 3]
  | .waitr s => eS1 0x34 0 s | .waitrAll => [wR 0x34 0 0 0 1]
  | .rnew d s => e2 0x38 0 d s
  | .rpost d s t l c f => wR 0x39 d.code s.code t.code (l.toNat * 4 + c.toNat * 2 + f.toNat)
      :: (d.lits ++ s.lits ++ t.lits)
  | .rread d s t f => e3 0x3A f.toNat d s t | .rdelta d s t f => e3 0x3B f.toNat d s t
  | .rabsent s t => eS2 0x3C 0 s t | .radv d s => e2 0x3D 0 d s | .rfree s => eS1 0x3E 0 s
  | .rstatGen d s => e2 0x3F 0 d s | .rstatLanded d s t => e3 0x3F 1 d s t
  | .rstatAbsent d s t => e3 0x3F 2 d s t | .rstatLate d s => e2 0x3F 3 d s
  | .rstatCounts d s => e2 0x3F 4 d s | .rstatFlags d s t => e3 0x3F 5 d s t
  | .rstatClear d s => e2 0x3F 6 d s
  | .vadd d a b m => eV 0x40 0 0 d a b m | .vsub d a b m => eV 0x40 1 0 d a b m
  | .vadds d a b m => eV 0x40 2 0 d a b m | .vsubs d a b m => eV 0x40 3 0 d a b m
  | .vaddus d a b m => eV 0x40 4 0 d a b m | .vsubus d a b m => eV 0x40 5 0 d a b m
  | .vmul d a b m => eV 0x41 0 0 d a b m | .vmulh d a b m => eV 0x41 1 0 d a b m
  | .vmulhu d a b m => eV 0x41 2 0 d a b m | .vmac d a b m => eV 0x41 3 0 d a b m
  | .vdot4 d a b m => eV 0x41 4 0 d a b m
  | .vand d a b m => eV 0x42 0 0 d a b m | .vor d a b m => eV 0x42 1 0 d a b m
  | .vxor d a b m => eV 0x42 2 0 d a b m | .vandn d a b m => eV 0x42 3 0 d a b m
  | .vnot d a m => eV 0x42 4 0 d a 0 m
  | .vsll d a b m => eV 0x43 0 0 d a b m | .vsrl d a b m => eV 0x43 1 0 d a b m
  | .vsra d a b m => eV 0x43 2 0 d a b m | .vror d a b m => eV 0x43 3 0 d a b m
  | .vslli d a n m => eV 0x43 4 0 d a n.toNat m | .vsrli d a n m => eV 0x43 5 0 d a n.toNat m
  | .vsrai d a n m => eV 0x43 6 0 d a n.toNat m | .vrori d a n m => eV 0x43 7 0 d a n.toNat m
  | .vmin d a b m => eV 0x44 0 0 d a b m | .vmax d a b m => eV 0x44 1 0 d a b m
  | .vminu d a b m => eV 0x44 2 0 d a b m | .vmaxu d a b m => eV 0x44 3 0 d a b m
  | .vabs d a m => eV 0x44 4 0 d a 0 m
  | .vfadd d a b m r => eV 0x45 0 r.code d a b m | .vfsub d a b m r => eV 0x45 1 r.code d a b m
  | .vfmul d a b m r => eV 0x46 0 r.code d a b m | .vfma d a b m r => eV 0x47 0 r.code d a b m
  | .vfms d a b m r => eV 0x47 1 r.code d a b m | .vfnma d a b m r => eV 0x47 2 r.code d a b m
  | .vfmin d a b m => eV 0x48 0 0 d a b m | .vfmax d a b m => eV 0x48 1 0 d a b m
  | .vfabs d a m => eV 0x48 2 0 d a 0 m | .vfneg d a m => eV 0x48 3 0 d a 0 m
  | .vfdiv d a b m r => eV 0x49 0 r.code d a b m | .vfsqrt d a m r => eV 0x49 1 r.code d a 0 m
  | .vfrecip d a m r => eV 0x49 2 r.code d a 0 m | .vfrsqrt d a m r => eV 0x49 3 r.code d a 0 m
  | .vcvtS32 d a m r => eV 0x4B 0 r.code d a 0 m | .vcvtZ32 d a m r => eV 0x4B 1 r.code d a 0 m
  | .vcvtF32S32 d a m r => eV 0x4B 2 r.code d a 0 m | .vcvtF32Z32 d a m r => eV 0x4B 3 r.code d a 0 m
  | .vcvtPbf16 d a b r => eV 0x4B 4 r.code d a b none | .vcvtPf16 d a b r => eV 0x4B 5 r.code d a b none
  | .vcvtUbf16Lo d a m => eV 0x4B 6 0 d a 0 m | .vcvtUbf16Hi d a m => eV 0x4B 7 0 d a 0 m
  | .vcvtUf16Lo d a m => eV 0x4B 8 0 d a 0 m | .vcvtUf16Hi d a m => eV 0x4B 9 0 d a 0 m
  | .vcmp d a b m c => eV 0x4C c.code 0 d a b m
  | .vmaskAnd d a b => [wV 0x4D d a b 0] | .vmaskOr d a b => [wV 0x4D d a b 1]
  | .vmaskXor d a b => [wV 0x4D d a b 2] | .vmaskAndn d a b => [wV 0x4D d a b 3]
  | .vmaskNot d a => [wV 0x4D d a 0 4] | .vmaskSet d => [wV 0x4D d 0 0 5]
  | .vmaskClr d => [wV 0x4D d 0 0 6]
  | .vsel d a b m => [wV 0x4E d a b (m.val * 2 ^ 8)]
  | .vperm d a b m => eV 0x4F 0 0 d a b m | .vrev d a m => eV 0x4F 1 0 d a 0 m
  | .vbcast d s => wR 0x50 d.val s.code 0 0 :: s.lits
  | .vbcastLane d s t => wR 0x50 d.val s.val t.code 1 :: t.lits
  | .vredSumS32 d a m => eV 0x51 0 0 d a 0 m | .vredSumF32 d a m r => eV 0x51 1 r.code d a 0 m
  | .vredMinS32 d a m => eV 0x51 2 0 d a 0 m | .vredMaxS32 d a m => eV 0x51 3 0 d a 0 m
  | .vredMinF32 d a m => eV 0x51 4 0 d a 0 m | .vredMaxF32 d a m => eV 0x51 5 0 d a 0 m
  | .vredArgminF32 d a m => eV 0x51 6 0 d a 0 m | .vredArgmaxF32 d a m => eV 0x51 7 0 d a 0 m
  | .vtopk d a n m => eV 0x52 0 0 d a n.toNat m
  | .vmovx d s t => wR 0x53 d.val s.val t.code 0 :: t.lits
  | .vmovxS d s t => wR 0x53 d.val s.val t.code 1 :: t.lits
  | .vlaneIota d m => eV 0x54 0 0 d 0 0 m | .vlaneCompress d a m => eV 0x54 1 0 d a 0 m
  | .vslide d a b m s => [wV 0x55 d a b (maskCode m * 2 ^ 7 + s.toNat)]
  | .mma c a b s e y => [wV 0x58 c a b (s.toNat * 2 ^ 8 + e.toNat * 2 ^ 7 + y.code)]
  | .mmaw c a b s e y => [wV 0x59 c a b (s.toNat * 2 ^ 8 + e.toNat * 2 ^ 7 + y.code)]
  | .mmam c s t d k e y => wR 0x5A c.val s.code t.val
      (d.toNat * 2 ^ 6 + k.toNat * 2 ^ 5 + e.toNat * 2 ^ 4 + y.code) :: s.lits
  | .accrd d c row s r p => [wV 0x5B d c (row.toNat % 32)
      (row.toNat / 32 * 2 ^ 9 + s.toNat * 2 ^ 8 + r.code * 2 ^ 6 + p.code * 2 ^ 3)]
  | .accst c a b e s r p => [wV 0x5C c a b
      (e.toNat * 2 ^ 9 + s.toNat * 2 ^ 8 + r.code * 2 ^ 6 + p.code * 2 ^ 3)]
  | .accld c a b e s r p => [wV 0x5D c a b
      (e.toNat * 2 ^ 9 + s.toNat * 2 ^ 8 + r.code * 2 ^ 6 + p.code * 2 ^ 3)]
  | .accswap => [wJ 0x5E 0] | .accclr c i => [wV 0x5F c 0 0 i.toNat]
  | .accstat d s => [wR 0x60 d.val s.val 0 0]
  | .tld d a b => [wV 0x61 d a b 0] | .tldW d a => [wV 0x61 d a 0 1] | .tst d a b => [wV 0x62 d a b 0]
  | .tmov d a => [wV 0x63 d a 0 0] | .tmovT16 d a => [wV 0x63 d a 0 1]
  | .tmovT8 d a => [wV 0x63 d a 0 2] | .tmovVr d a b => [wV 0x63 d a b 3]
  | .tmovRv d a b => [wV 0x63 d a b 4] | .tmovZero d => [wV 0x63 d 0 0 5]
  | .tabld a o => [wV 0x64 0 a 0 o.toNat] | .tabldPreset p => [wV 0x64 0 0 0 (8 + 2 * p.val)]
  | .enc d a q => [wV 0x65 d a q 0] | .dec d a q => [wV 0x66 d a q 0]
  | .repf k n s e => [wF 0x67 k.toNat n.toNat s.toNat e.toNat]
  | .done => [wR 0x68 0 0 0 0] | .phaseOr s => eS1 0x68 1 s | .phaseMax s => eS1 0x68 2 s
  | .yield s => eS1 0x68 3 s | .spawn s t => eS2 0x69 0 s t
  | .barInit d s t => e3 0x6A 0 d s t | .barArr d s => e2 0x6A 1 d s | .barw s t => eS2 0x6A 2 s t
  | .barSync s => eS1 0x6A 3 s | .barRead d s => e2 0x6A 4 d s
  | .joinArm d s t => e3 0x6B 0 d s t | .joinArr d s => e2 0x6B 1 d s
  | .joinRead d s => e2 0x6B 2 d s
  | .msgPoll d => [wR 0x6C d.val 0 0 0] | .msgHdr d => [wR 0x6C d.val 0 0 1]
  | .msgDrop => [wR 0x6C 0 0 0 2]
  | .compose d s => e2 0x6D 0 d s | .decompose => [wJ 0x6E 0]
  | .csetup d s t => e3 0x70 0 d s t | .crel s => eS1 0x71 0 s
  | .cqpost d s t => e3 0x72 0 d s t | .trigAdd s t => eS2 0x73 0 s t | .trigSet s t => eS2 0x73 1 s t
  | .trigRead d s => e2 0x73 2 d s | .cqwait d s t => e3 0x74 0 d s t | .cabort s => eS1 0x75 0 s
  | .cabortSeq d s => e2 0x75 1 d s
  | .gatek v t => wR 0x76 0 v.val t.code 0 :: t.lits | .gatekOpen d s t => e3 0x76 1 d s t
  | .dispatch d s => e2 0x77 0 d s
  | .csrr d c => [wS 0x78 d.val c.toNat 0] | .csrw d c => wS 0x78 d.code c.toNat 1 :: d.lits
  | .csrs d c => wS 0x78 d.code c.toNat 2 :: d.lits | .csrc d c => wS 0x78 d.code c.toNat 3 :: d.lits
  | .trap i => [wI 0x79 0 0 i.toNat] | .brk i => [wI 0x79 1 0 i.toNat] | .eret => [wJ 0x7A 0]
  | .xinvPage s t => eS2 0x7B 0 s t | .xinvAsid t => wR 0x7B 0 0 t.code 1 :: t.lits
  | .xinvAll => [wR 0x7B 0 0 0 2] | .xinvSync => [wR 0x7B 0 0 0 3]
  | .gstop d s => e2 0x7C 0 d s | .gstopGo d s => e2 0x7C 1 d s
  | .freeze d s => e2 0x7D 0 d s | .unfreeze d s => e2 0x7D 1 d s
  | .lctlSleep d s => e2 0x7E 0 d s | .lctlDrowsy d s => e2 0x7E 1 d s
  | .lctlWake d s => e2 0x7E 2 d s | .lctlRetire d s => e2 0x7E 3 d s
  | _ => []

/-- The codes of a word's register fields by the classes that its family's entry gives them: the class-X
sources, which may hold a literal code, and every other register field (R52, R56). A sub-code that the
entry does not list gives a class only to the fields that it has in every member. -/
def fieldCodes (w : Nat) : List Nat × List Nat :=
  let d := fRd w
  let s := fRs w
  let t := fRt w
  let r3 := ([s, t], [d])
  let r2 := ([s], [d])
  let s2 : List Nat × List Nat := ([s, t], [])
  let s1 : List Nat × List Nat := ([s], [])
  let s3 : List Nat × List Nat := ([d, s, t], [])
  let ds : List Nat × List Nat := ([d, s], [])
  let no : List Nat × List Nat := ([], [])
  match fOp w with
  | 0x01 | 0x07 | 0x08 | 0x09 | 0x0D => r3
  | 0x02 | 0x03 | 0x04 | 0x05 | 0x06 | 0x0A => r2
  | 0x0B => ([s, t], [d, bits w 0 6])
  | 0x0C => if fFn w < 3 then r3 else r2
  | 0x0E => if bits w 2 5 ∈ [0, 1, 2, 3, 5, 6, 7, 8, 9, 10] then r3 else r2
  | 0x10 | 0x11 | 0x12 | 0x13 => ds
  | 0x15 => if fFn w = 1 then r2 else s1
  | 0x18 | 0x19 => r2
  | 0x1A => ds
  | 0x1B => (match fFn w with | 0 => r2 | 2 => ([t], [d, s]) | _ => no)
  | 0x1C | 0x1F => if fFn w = 0 then r2 else no
  | 0x20 | 0x22 => r2
  | 0x21 => r3
  | 0x23 | 0x25 => ds
  | 0x24 => s3
  | 0x26 | 0x27 => (match bits w 5 2 with | 0 => r2 | 1 => r3 | 2 => ([t], [d, s]) | _ => no)
  | 0x28 => r3
  | 0x29 => if fFn w = 8 then s3 else r3
  | 0x2B => r2
  | 0x2C => s1
  | 0x2E => ds
  | 0x2F => s2
  | 0x30 | 0x31 => r2
  | 0x32 => r3
  | 0x33 => if fFn w = 1 then ([t], [d]) else no
  | 0x34 => if fFn w = 0 then s1 else no
  | 0x38 => r2
  | 0x39 => s3
  | 0x3A | 0x3B => r3
  | 0x3C => s2
  | 0x3D => r2
  | 0x3E => s1
  | 0x3F => if fFn w ∈ [1, 2, 5] then r3 else r2
  | 0x50 => (match fFn w with | 0 => r2 | 1 => ([t], [d, s]) | _ => no)
  | 0x53 => ([t], [d, s])
  | 0x5A => ([s], [d, t])
  | 0x68 => if fFn w ∈ [1, 2, 3] then s1 else no
  | 0x69 => s2
  | 0x6A => (match fFn w with | 0 => r3 | 1 => r2 | 2 => s2 | 3 => s1 | 4 => r2 | _ => s1)
  | 0x6B => if fFn w = 0 then r3 else r2
  | 0x6D => r2
  | 0x70 | 0x72 | 0x74 => r3
  | 0x71 => s1
  | 0x73 => if fFn w < 2 then s2 else if fFn w = 2 then r2 else s1
  | 0x75 => if fFn w = 1 then r2 else s1
  | 0x76 => (match fFn w with | 0 => ([t], [s]) | 1 => r3 | _ => ([t], []))
  | 0x77 => r2
  | 0x78 => if fFn w ∈ [1, 2, 3] then ([d], []) else no
  | 0x7B => (match fFn w with | 0 => s2 | 1 => ([t], []) | _ => no)
  | 0x7C | 0x7D | 0x7E => r2
  | _ => no

/-- R52: the words of the literal that follows a word: none where two fields hold literal codes, or a
field that may hold none holds one. -/
def litWords (w : Nat) : Nat :=
  let f := fieldCodes w
  if f.2.any (62 ≤ ·) then 0
  else match f.1.filter (62 ≤ ·) with
    | [62] => 1
    | [63] => 2
    | _ => 0

/-- The words of an instruction as the fetch sees them: one, two or three (R51, R52). A word that is
rejected for another reason than those of R52 keeps its literal, which is fetched first (R57). -/
noncomputable def wordsOf (w : Nat) : Nat :=
  match decodeWord w 0 0 with
  | .ok i => (encode i).length
  | .error _ => 1 + litWords w

/-- The instruction the decoder reads from an instruction whose bits are `w`, bit 0 the least
significant bit of the first word and later words above it; bits above `nbits` are 0. The words lie
little-endian in memory (R7, R51), so the n-th word is bits 32n+31 to 32n. -/
noncomputable def decodeTableWord (nbits w : Nat) : Option Instr :=
  let v := w % 2 ^ nbits
  match decodeWord (v % 2 ^ 32) (v / 2 ^ 32 % 2 ^ 32) (v / 2 ^ 64 % 2 ^ 32) with
  | .ok i => some i
  | .error _ => none

/-- Decode a list of words: the first is the instruction word. -/
noncomputable def decodeWords (ws : List Nat) : Dec :=
  decodeWord (ws.getD 0 0) (ws.getD 1 0) (ws.getD 2 0)

end Sys2Proof
end

