-- ==== Sys2Proof/Machine/Memory.lean ====
section
/-! DEFINITION. Byte memories: lists of (address, byte) pairs in one canonical form, addresses
strictly rising and no listed byte zero. An unlisted address reads as zero, which is a DESIGN CHOICE
where the manual gives no contents (log entry 2). Multi-byte data is little-endian (R7). -/

namespace Sys2Proof.Machine

/-- A memory. -/
abbrev Memory := List Host.Cell

/-- The byte at `a`. -/
def Memory.read : Memory → Nat → Byte
  | [], _ => 0
  | c :: t, a => if c.1 = a then c.2 else Memory.read t a

/-- Store one byte, keeping the canonical form. -/
def Memory.write : Memory → Nat → Byte → Memory
  | [], a, v => if v = 0 then [] else [(a, v)]
  | c :: t, a, v =>
    if a < c.1 then (if v = 0 then c :: t else (a, v) :: c :: t)
    else if a = c.1 then (if v = 0 then t else (a, v) :: t)
    else c :: Memory.write t a v

/-- The canonical form, for addresses from `lo` on. -/
def Memory.wfFrom : Nat → Memory → Bool
  | _, [] => true
  | lo, c :: t => decide (lo ≤ c.1) && c.2 != 0 && Memory.wfFrom (c.1 + 1) t

/-- The canonical form. -/
def Memory.wf (m : Memory) : Bool := Memory.wfFrom 0 m

/-- The `n` bytes from `a` as a number, lowest address least significant. -/
def Memory.readN (m : Memory) : Nat → Nat → Nat
  | _, 0 => 0
  | a, n + 1 => (m.read a).toNat + 256 * Memory.readN m (a + 1) n

/-- Store the low `n` bytes of `v` from `a` on. -/
def Memory.writeN (m : Memory) : Nat → Nat → Nat → Memory
  | _, 0, _ => m
  | a, n + 1, v => Memory.writeN (m.write a (BitVec.ofNat 8 v)) (a + 1) n (v / 256)

/-- The `n` bytes from `a` on. -/
def Memory.readBytes (m : Memory) : Nat → Nat → List Byte
  | _, 0 => []
  | a, n + 1 => m.read a :: Memory.readBytes m (a + 1) n

/-- Store a list of bytes from `a` on. -/
def Memory.writeBytes (m : Memory) : Nat → List Byte → Memory
  | _, [] => m
  | a, b :: t => Memory.writeBytes (m.write a b) (a + 1) t

/-- Clear `n` bytes from `a` on. -/
def Memory.clear (m : Memory) (a n : Nat) : Memory :=
  m.filter fun c => !(decide (a ≤ c.1) && decide (c.1 < a + n))

/-- The cells from `a` to `a + n - 1`, with addresses counted from `a`. -/
def Memory.slice (m : Memory) (a n : Nat) : Memory :=
  (m.filter fun c => decide (a ≤ c.1) && decide (c.1 < a + n)).map fun c => (c.1 - a, c.2)

/-- The bytes of a number, low byte first. -/
def bytesOf : Nat → Nat → List Byte
  | 0, _ => []
  | n + 1, v => BitVec.ofNat 8 v :: bytesOf n (v / 256)

/-- The number that bytes make, low byte first. -/
def ofBytes : List Byte → Nat
  | [] => 0
  | b :: t => b.toNat + 256 * ofBytes t

end Sys2Proof.Machine
end

