-- ==== Sys2Proof/Machine/State.lean ====
section
/-! DEFINITION. The state of the NZ12: one package, its cores, its memories, and everything on the
way between them. Every field is plain data; a default value is the field's value at reset. -/

namespace Sys2Proof.Machine

/-! ### Causes and outcomes -/

/-- Trap causes (R50). -/
inductive Cause where
  | ill | regidx | align | prot | xlat | rlock | msgdone | fmt | poison | priv | addr | rao | frame
  | brk | trapi | compose | aged | late
  deriving DecidableEq, Repr

/-- CAUSE codes (R50). -/
def Cause.code : Cause → Nat
  | .ill => 1 | .regidx => 2 | .align => 3 | .prot => 4 | .xlat => 5 | .rlock => 6 | .msgdone => 7
  | .fmt => 8 | .poison => 9 | .priv => 10 | .addr => 11 | .rao => 12 | .frame => 13 | .brk => 14
  | .trapi => 15 | .compose => 16 | .aged => 17 | .late => 18

/-- Why the machine stops. No meaning of this model stops: every trap, freeze and error of the
manual is a next state, so no constructor is raised. The type is kept for the interface. -/
inductive Fault where
  /-- raised by nobody; safe -/
  | none
  deriving DecidableEq, Repr

/-- Why an instruction is refused. -/
inductive Refusal where
  /-- the arm of Dispatch.lean for an instruction that has no meaning yet; safe -/
  | notModelled (mnemonic : String)
  deriving DecidableEq, Repr

/-! ### Places an access can go to -/

/-- A byte's home (R218, R307): vault bytes by their space-1 offset, HBM and second-tier bytes by
physical address, local memory of a core, the mirrored region, the registers of space 4. -/
inductive Home where
  | vault (off : Nat)
  | hbm (pa : Nat)
  | loc (core off : Nat)
  | mirror (off : Nat)
  | mmio (off : Nat)
  | global (pkg va : Nat)
  deriving DecidableEq, Repr

/-- Kinds of access (R104, R316). -/
inductive Kind where
  | load | store | atomic | fetch
  deriving DecidableEq, Repr

/-! ### The core -/

/-- An accumulator tile (R29, R31). Element row*64+col: in float mode an A36 code, in integer mode
the 80-bit exact sum; indices strictly rising, unlisted elements are zero. `status` is ACCSTAT[6:0]. -/
structure Acc where
  imode : Bool := false
  status : BitVec 7 := 0
  elems : List (Nat × BitVec 80) := []
  deriving DecidableEq, Repr

/-- The decode table (R25): a preset, or 256 entries as TABLD read them with the order flag. -/
inductive DTable where
  | preset (p : Fin 4)
  | loaded (entries : List (BitVec 19)) (order : Bool)
  deriving DecidableEq, Repr

/-- What a range-lock entry's engine moves (R122). -/
inductive CopyKind where
  | copy
  /-- elements of the width go to stream `s`, or are discarded once it is unbound -/
  | stream (s : Option (Fin 8)) (width : Nat)
  deriving DecidableEq, Repr

/-- A held range-lock entry (R122, R126). `parts` lists the 16-byte parts already written (COPY), or
`moved` counts the bytes delivered (COPYS). -/
structure LockEntry where
  kind : CopyKind
  src : Word
  dst : Word
  len : Nat
  parts : List Nat := []
  moved : Nat := 0
  /-- parts that have been asked for at another package's interface and have not come back -/
  asked : List Nat := []
  /-- parts whose packets have been discarded for age (R247) -/
  gone : List Nat := []
  deriving DecidableEq, Repr

/-- A bound stream (R42, R123): either a copy's elements as they have arrived, or a range of local
memory read when consumed. `pos` counts the elements consumed. -/
structure Stream where
  /-- bound by COPYS: the lock entry; by SBIND: none -/
  entry : Option (Fin 16)
  start : Nat
  width : Nat
  count : Nat
  pos : Nat := 0
  /-- elements arrived and not yet consumed, and those consumed in this region, in order; none is a
  poisoned element (R356) -/
  buf : List (Option Nat) := []
  back : List (Option Nat) := []
  /-- elements that the SCTL.SKIP at PC has discarded so far; `pos` does not count them yet -/
  skipped : Nat := 0
  deriving DecidableEq, Repr

/-- A message flit (R43). `header` is the route header that MSG.HDR shows, set on delivery (R174).
`qdst` is QDST as the flit was sent with it, `src` the sending core and its task, or none for a unit;
`srcPkg` the sending package, `wid`, `ctx` and `launch` the sender's. -/
structure Flit where
  words : List Word
  header : Word := 0
  qdst : Word := 0
  src : Option (Nat × Nat) := none
  srcPkg : Nat := 0
  wid : Word := 0
  ctx : Nat := 0
  launch : Nat := 0
  /-- a gate result goes to this task (R183) -/
  gateTo : Option Nat := none
  /-- a bounce on its way back to `src`, or returned to it (R209) -/
  bounce : Bool := false
  /-- the completion counter has been raised for it (R173, R210) -/
  raised : Bool := false
  /-- the circuit it travels on (R177) -/
  circuit : Nat := 0
  /-- the phase in which a join unit raised the counter for it (R168) -/
  phase : Nat := 0
  /-- it has been read from a poisoned part of an overflow area (R354) -/
  bad : Bool := false
  /-- the intermediate router of a bounce's two-phase route (R241) -/
  via : Option Nat := none
  deriving DecidableEq, Repr

/-- An inbox entry: the task it belongs to (R207) and the flit. -/
structure InFlit where
  task : Nat
  flit : Flit
  deriving DecidableEq, Repr

/-- An overflow flit (R207): the core it waits at, its place in its context's overflow area there, and its
entry, whose words and header stand in that area (R283). -/
structure OverFlit where
  core : Nat
  place : Nat
  entry : InFlit
  deriving DecidableEq, Repr

/-- The unprivileged read-write control registers (R48, R151, R350). -/
structure Csrs where
  astr : Word := 0
  qdst : Word := 0
  qwgt : BitVec 4 := 1
  fmta : BitVec 4 := 0
  fmtb : BitVec 4 := 0
  scla : BitVec 8 := 0
  sclb : BitVec 8 := 0
  skth : BitVec 8 := 0
  /-- LEN, POS, BASE -/
  sklen : BitVec 16 := 0
  skpos : BitVec 16 := 0
  skbase : BitVec 14 := 0
  skctl : BitVec 2 := 0
  deriving DecidableEq, Repr

/-- A store in a core's buffer (R107, R112). -/
structure SbEntry where
  home : Home
  /-- the address as the instruction formed it -/
  addr : Word
  bytes : List Byte
  /-- the address space it was translated under, and whether an XINV since then has removed that
  translation (R319) -/
  asid : Nat := 0
  stale : Bool := false
  /-- the next entry is a part of the same store to space 3 (R251) -/
  more : Bool := false
  deriving DecidableEq, Repr

/-- R110: what a region restart restores. `sbLen` is how many of the buffered stores are older than
the region; `popped` are the flits the region has popped, oldest first. -/
structure Snap where
  pc : Word := 0
  x : Vector Word 62 := Vector.replicate 62 0
  a : Vector Word 8 := Vector.replicate 8 0
  v : Vector (Vector Lane 64) 32 := Vector.replicate 32 (Vector.replicate 64 0)
  m : Vector Word 4 := Vector.replicate 4 0
  qs : Vector Word 8 := Vector.replicate 8 0
  csrs : Csrs := {}
  pos : List Nat := []
  latched : Option Flit := none
  popped : List Flit := []
  /-- MSGDONE traps taken in the region -/
  bounced : Nat := 0
  link : Word := 0
  /-- STATUS.SS, PP and P, EPC, CAUSE and TVAL, and whether a frame was suspended: the region starts
  again as it started (log entry 7) -/
  ss : Bool := false
  pp : Bool := false
  p : Bool := false
  epc : Word := 0
  cause : BitVec 5 := 0
  tval : Word := 0
  suspended : Bool := false
  deriving DecidableEq, Repr

/-- A fault that waits for an instruction boundary: of a replayed frame (R62), or one that was found
away from the core (R313, R316). -/
structure Pending where
  cause : Cause
  tval : Word
  deriving DecidableEq, Repr

/-- The repeat frame (R59-R62). `body` holds the captured words. -/
structure Frame where
  cap : Bool := false
  act : Bool := false
  suspended : Bool := false
  sel : BitVec 3 := 0
  stride : BitVec 5 := 0
  pass : Nat := 0
  nm1 : BitVec 8 := 0
  idx : Nat := 0
  km1 : BitVec 4 := 0
  body : List IWord := []
  /-- address of body word 0 -/
  bodyPc : Word := 0
  fault : Option Pending := none
  /-- captured in the current region, so that a restart of it discards the frame (R137) -/
  here : Bool := false
  /-- the control registers as they stand at the body: its passes sample FMTA, FMTB, SCLA, SCLB, SKTH
  and SKCTL from here (R46, R61) -/
  ctl : Csrs := {}
  /-- the step since which the next body instruction is the head of its queue (R203) -/
  since : Nat := 0
  deriving DecidableEq, Repr

/-- An ordinary VMU instruction that waits at the head of its core's queue (R203): does it need the
array, since which step it waits, its address, and whether it has been granted its resource. -/
structure VmuWait where
  array : Bool
  since : Nat
  pc : Word
  granted : Bool := false
  deriving DecidableEq, Repr

/-- What a parked task waits for (R197, R303). `unit` is the layer of a barrier unit, 12 for the
package unit; `e` is SPINW's timeout field. -/
inductive Wait where
  | none
  | barw (unit num phase : Nat)
  | barSync (unit num phase : Nat)
  | spinw (e : Nat)
  | yield (left : Nat)
  | receive
  /-- a page of this package, for an access of a kind (R317) -/
  | translation (va kind : Nat)
  /-- the page of another package is not resident there (R318) -/
  | remotePage (va : Nat)
  deriving DecidableEq, Repr

/-- Task states (R197); STOPPED and ENDED tasks are in no core and no queue. -/
inductive TState where
  | queued | running | parked | frozen
  deriving DecidableEq, Repr

/-- A header of a launch's task table (R291). -/
structure TaskHdr where
  code : Word := 0
  handler : Word := 0
  comp : Nat := 0
  localSize : Nat := 0
  regs : Nat := 0
  pri : Nat := 0
  /-- columns marked unused, c0's and c1's, in steps of 8 -/
  uc0 : Nat := 0
  uc1 : Nat := 0
  widths : List Nat := []
  deriving DecidableEq, Repr

/-- A task (R194-R198): its model number, its context, the launch, phase and task-table entry it
belongs to, its work identifier, priority and current level, what its header gives it, its edges,
and what a handler start brings. -/
structure Task where
  id : Nat
  ctx : Nat := 0
  launch : Nat := 0
  /-- number of the launch's phase that counts it (R168) -/
  phase : Nat := 0
  entry : Nat := 0
  hdr : TaskHdr := {}
  wid : Word := 0
  pri : Nat := 0
  level : Nat := 0
  erow : Nat := 64
  ecol : Nat := 64
  /-- steps taken when it started (R208) -/
  started : Nat := 0
  /-- router domain, and the core it is bound to -/
  dom : Nat := 0
  bound : Option Nat := none
  handler : Option Flit := none
  /-- it was saved and its record holds its state (R200) -/
  saved : Bool := false
  /-- it is resident at its core and waits there to go on -/
  resident : Bool := false
  deriving DecidableEq, Repr

/-- A response slot (R108, R115). -/
inductive SlotUse where
  /-- an X-register destination: the register and its type; `acq` holds back the later accesses (R113) -/
  | ld (d : XReg) (t : LdType) (acq : Bool)
  /-- the high half of a pair alone: the low one has been written since -/
  | ldHigh (d : XReg) (acq : Bool)
  /-- an AMO's old value -/
  | amo (d : XReg) (wide : Bool) (unsigned : Bool)
  /-- a GLD's local destination -/
  | gld (dst n : Nat)
  /-- SPINW's read, with its timeout field -/
  | spinw (d : XReg) (e : Nat)
  deriving DecidableEq, Repr

/-- The outcome a remote package returns (R104). -/
inductive Remote where
  | data (v : Nat)
  | trap (c : Cause) (off : Nat)
  | xlat
  deriving DecidableEq, Repr

/-- A held response slot: what it is for, the address and size of the access, the registers as they
stood at the remote load (a fault of it is precise, R352), and the response once it has arrived. -/
structure RSlot where
  use : SlotUse
  addr : Word
  size : Nat
  pc : Word := 0
  npc : Word := 0
  x : Vector Word 62 := Vector.replicate 62 0
  a : Vector Word 8 := Vector.replicate 8 0
  resp : Option Remote := none
  /-- its response was discarded for age (R248) -/
  aged : Bool := false
  /-- aborted: its response is to be thrown away (R352) -/
  dead : Bool := false
  deriving DecidableEq, Repr

/-- What a response answers. -/
inductive RespKind where
  | slot | store | check
  /-- a copy engine's read or write of a part -/
  | part | wrote
  deriving DecidableEq, Repr

/-- What a request to another package asks for (R104, R329). -/
inductive ReqOp where
  | read (n : Nat)
  /-- the bytes that an instruction takes before anything else (a term's source, a token's vector) -/
  | fetch (n : Nat)
  | write (bytes : List Byte)
  /-- an atomic of R116: op code, width, operand and expected value -/
  | amo (op n b e : Nat)
  /-- steps 2 to 4 alone, for `n` bytes of an access of a kind; a TOUCH pins the page (R121) -/
  | check (n : Nat) (kind : Kind) (pin : Bool)
  /-- a pin is released -/
  | unpin
  deriving DecidableEq, Repr

/-- A request on its way to the package that a global address names. `ctx` is the issuing context. -/
structure Request where
  pkg : Nat
  srcPkg : Nat
  ctx : Nat
  core : Nat
  slot : Nat := 0
  va : Nat
  op : ReqOp
  /-- a copy engine's: the range-lock entry and the part -/
  part : Option (Nat × Nat) := none
  /-- the bytes of a copied part that are poisoned -/
  bad : List Nat := []
  /-- the key number it came under, and the enclave whose key that is (R374) -/
  key : Nat := 0
  encl : Option Nat := none
  deriving DecidableEq, Repr

/-- A response on its way back to a core: to a slot, to its acknowledgement count, or to the
instruction that asked for a check. -/
structure Response where
  core : Nat
  slot : Nat := 0
  /-- the package that answers -/
  pkg : Nat := 0
  op : RespKind := .slot
  res : Remote
  part : Option (Nat × Nat) := none
  bad : List Nat := []
  key : Nat := 0
  encl : Option Nat := none
  /-- the request that it answers, where that is a store -/
  store : Option Request := none
  deriving DecidableEq, Repr

/-- A circuit that a core holds (R177): its destination and the flits it may still carry. -/
structure Circuit where
  dst : Nat
  left : Nat
  deriving DecidableEq, Repr

/-- A set-up packet (R245): the circuit it is for and the routers it has still to pass. -/
structure SetUp where
  core : Nat
  id : Nat
  dst : Nat
  n : Nat
  path : List Nat
  deriving DecidableEq, Repr

/-- A circuit's reservation of the output port of a router toward the next one (R245). -/
structure Reservation where
  router : Nat
  next : Nat
  core : Nat
  id : Nat
  deriving DecidableEq, Repr

/-- A teardown (R245): the circuit's source, destination and id, and the routers it has still to pass; its
acknowledgement is out until it is removed, and never comes once it is lost (R247). -/
structure Teardown where
  core : Nat
  dst : Nat
  id : Nat
  path : List Nat := []
  lost : Bool := false
  deriving DecidableEq, Repr

/-- A grant or refusal on its way to the source of a set-up. -/
structure CircuitReply where
  core : Nat
  id : Nat
  dst : Nat
  n : Nat
  grant : Bool
  path : List Nat := []
  /-- the routers of the path's second phase (R241) -/
  second : List Nat := []
  deriving DecidableEq, Repr

/-- Layer states (R50, R255). -/
inductive LState where
  | awake | drowsy | asleep | retired
  deriving DecidableEq, Repr

def LState.code : LState → Nat
  | .awake => 0 | .drowsy => 1 | .asleep => 2 | .retired => 3

/-- The wait of an instruction that has begun and has not ended: what it has already done, so that
issuing it again goes on from there. -/
inductive Progress where
  | none
  /-- the arrival of the BAR.SYNC at PC has been counted; the wait record of R303: the phase, and the
  barrier's number from bit 16 on (R172) -/
  | arrived (w : Nat)
  /-- a request has been sent from here, and its reply, once back; `v` requests before it have been
  answered -/
  | asked (v : Nat) (reply : Option (List Nat))
  /-- a gang-stop has been asked for (R191) -/
  | command
  /-- layer `l` has been asked to go to a state (R193); `done`: it has been there since -/
  | layerTo (l : Nat) (goal : LState) (done : Bool)
  /-- `v` requests have been answered well -/
  | answered (v : Nat)
  /-- the DONE at PC is past its first step: it never traps (R167) -/
  | ending
  deriving DecidableEq, Repr

/-- A core (R36-R50). -/
structure Core where
  num : Nat := 0
  x : Vector Word 62 := Vector.replicate 62 0
  a : Vector Word 8 := Vector.replicate 8 0
  v : Vector (Vector Lane 64) 32 := Vector.replicate 32 (Vector.replicate 64 0)
  m : Vector Word 4 := Vector.replicate 4 0
  t : Vector Memory 4 := Vector.replicate 4 []
  c : Vector Acc 2 := Vector.replicate 2 {}
  table : DTable := .preset 0
  share : Memory := []
  qs : Vector Word 8 := Vector.replicate 8 0
  latched : Option Flit := none
  inbox : List InFlit := []
  s : Vector (Option Stream) 8 := Vector.replicate 8 none
  csrs : Csrs := {}
  wid : Word := 0
  erow : BitVec 7 := 0
  ecol : BitVec 7 := 0
  rlim : Nat := 0
  ss : Bool := false
  pp : Bool := false
  p : Bool := false
  epc : Word := 0
  cause : BitVec 5 := 0
  tval : Word := 0
  prot : Vector Word 16 := Vector.replicate 16 0
  rhit : Option (Fin 16) := none
  locks : Vector (Option LockEntry) 16 := Vector.replicate 16 none
  frame : Frame := {}
  pc : Word := 0
  /-- the address of the next instruction, set by the fetch (R51) -/
  npc : Word := 0
  /-- the instruction word, set by the fetch -/
  iw : IWord := 0
  /-- the link shadow (R38) -/
  link : Word := 0
  snap : Snap := {}
  /-- pages that the region's TOUCHes pin (R121): 0, ASID and page, or for a page of package p, p + 1,
  the context and page -/
  pins : List (Nat × Nat × Nat) := []
  loc : Memory := []
  sb : List SbEntry := []
  /-- a page that the task's copy engine, or a store of its that had left, met while the instruction at PC could
  not be asked for again: the region restarts in this wait at the next boundary (R316, R318) -/
  restartDue : Option Wait := none
  /-- the step in which a remote load was last ready and found every response slot held (R350) -/
  slotWait : Option Nat := none
  /-- the packet of its instruction that is to be found too old, and where (R247) -/
  late : Option Lost := none
  /-- number of the stores in `sb` that were there when the region began -/
  sbOld : Nat := 0
  /-- the resident task and its state (R197) -/
  task : Option Task := none
  tstate : TState := .running
  wait : Wait := .none
  /-- the line a parked SPINW watches, and whether it has been written since (R119) -/
  watch : Option (Home × Bool) := none
  /-- the SPINW at PC has been woken: its last read is due (R119) -/
  woken : Bool := false
  slots : Vector (Option RSlot) 8 := Vector.replicate 8 none
  /-- the slots that this core's task holds, in program order, each with the core whose slot it is: the
  members of a ligature lend theirs (R214, R352) -/
  rorder : List (Nat × Fin 8) := []
  /-- the SPINW at PC has sent a remote read and waits for its value -/
  rwait : Bool := false
  /-- RSLOT.STALL (R350) -/
  rstall : BitVec 32 := 0
  /-- the circuits with ids 1 and 2 -/
  circuits : Vector (Option Circuit) 2 := Vector.replicate 2 none
  /-- remote stores that have left and are not acknowledged: package, address and length (R225, R332) -/
  remoteStores : List (Nat × Nat × Nat) := []
  /-- remote stores that met a page that is not resident at its package, to be sent again when the task
  runs its region again (R318) -/
  unsent : List Request := []
  /-- intermediate routers drawn so far (R242) -/
  draws : Nat := 0
  /-- a denied access of the task's copy engine, or of a store that had left, which the task takes at an
  instruction boundary (R313, R316) -/
  owed : Option Pending := none
  /-- resumed by the manager since its last completed instruction (R248) -/
  resumed : Bool := false
  /-- flits returned to this core's task that MSGDONE has still to announce (R209) -/
  bounces : Nat := 0
  /-- home core: the members of its ligature in order, itself excluded (R211) -/
  members : List Nat := []
  /-- member core: its home core -/
  memberOf : Option Nat := none
  /-- the current instruction cannot go on; cleared when anything else happens -/
  stalled : Bool := false
  /-- the VMU instruction at PC waits for its resource (R203) -/
  vmuWait : Option VmuWait := none
  /-- the instruction at PC could not go on when it was last issued: the wait kind of R303, 7 to 9; 0 none -/
  gaveUp : Nat := 0
  /-- the last instruction completed (R50, SS) -/
  completed : Bool := false
  /-- it completed where its core was halted or frozen: the BRK of R50 stands at the next boundary -/
  brkDue : Bool := false
  progress : Progress := .none
  /-- the package that a check has been asked of and has not answered -/
  asking : Option Nat := none
  /-- halted under a debugger (R188) -/
  halted : Bool := false
  /-- frozen as an offending master (R363) -/
  frozen : Bool := false
  /-- frozen once its task, which a gang-stop has halted, is in its record (R305) -/
  freezeDue : Bool := false
  /-- its parked task was woken while it was frozen (R366) -/
  wakeKept : Bool := false
  deriving DecidableEq, Repr

/-! ### The package -/

/-- A piece of a space-3 store within one chunk of 16 bytes, in a layer's mirror queue, with the core
that made it (R231, R251). -/
structure MirrorStore where
  core : Nat
  off : Nat
  bytes : List Byte
  /-- a copy has taken it from a poisoned part -/
  poisoned : Bool := false
  /-- it shares its place with the piece before it: the same store and the same chunk (R251) -/
  cont : Bool := false
  deriving DecidableEq, Repr

/-- A slot sent in the current frame: its number, its sender and its pieces in record order. -/
structure SentSlot where
  slot : Nat
  src : Nat
  stores : List MirrorStore
  deriving DecidableEq, Repr

/-- A layer that takes the base die's copy (R256): the bytes live since the receiver turned on, and
the next chunk of the transfer. -/
structure Waking where
  live : List Nat := []
  next : Nat := 0
  deriving DecidableEq, Repr

/-- Commands of slot 0 (R252). -/
inductive Command where
  | gangStop (ctx : Nat)
  | resume (ctx : Nat)
  | wake (layer : Nat)
  | drowsy (layer : Nat)
  | sleep (layer : Nat)
  | retire (layer : Nat)
  deriving DecidableEq, Repr

/-- A router that is not on (R246). -/
inductive RouterPower where
  | proposed | off | waking
  deriving DecidableEq, Repr

/-- A layer (R2, R255): its state, its copy of the mirrored region, its mirror queue, LBAL, whether
two-phase routing is on and for how many windows its condition has failed (R243), whether its
dispatchers are closed (R193), and whether the power manager limits its arrays (R378). -/
structure Layer where
  state : LState := .awake
  mirror : Memory := []
  mq : List MirrorStore := []
  lbal : BitVec 8 := 0x20
  twoPhase : Bool := false
  calm : Nat := 0
  closed : Bool := false
  waking : Option Waking := none
  limited : Bool := false
  deriving DecidableEq, Repr

/-- A store that has left its core's buffer and has not been performed (R225), with the intermediate
router of a two-phase route (R241). -/
structure Flying where
  core : Nat
  entry : SbEntry
  via : Option Nat := none
  deriving DecidableEq, Repr

/-- Classes of acknowledgement (R225). -/
inductive AckClass where
  | home | mirror | remote | rpost | check
  /-- the value of a remote load -/
  | load
  deriving DecidableEq, Repr

/-- An acknowledgement on its way to a core. A TERM entry's goes to the entry (R339). -/
structure Ack where
  core : Nat
  cls : AckClass
  /-- the router that it comes from, 384 for the base die -/
  home : Nat := 384
  /-- the intermediate router of a two-phase route (R241) -/
  via : Option Nat := none
  deriving DecidableEq, Repr

/-- A translation held by a router's cache or, from 384 on, a port's (R314). `perms` are bits
[126:122] of the entry: RD, WR, AT, X, G from high to low. -/
structure Tlb where
  unit : Nat
  asid : Nat
  vpn : Nat
  pa : Nat
  perms : BitVec 5
  dirty : Bool
  mig : Bool
  deriving DecidableEq, Repr

/-- The migration that runs (R321, R322): frames by table and index, the page, and its state 1 to 3. -/
structure Migration where
  srcT : Nat
  srcF : Nat
  dstT : Nat
  dstF : Nat
  asid : Nat
  vpn : Nat
  st : Nat
  deriving DecidableEq, Repr

/-- A missed translation at its walker (R315): who asked, for what. -/
structure Walk where
  core : Nat
  asid : Nat
  vpn : Nat
  kind : Kind
  va : Nat
  /-- an XINV has come since it began (R190) -/
  old : Bool := false
  /-- its packet has been discarded for age (R247) -/
  lost : Bool := false
  deriving DecidableEq, Repr

/-- The arbiter of a quad's shared VMU (R203): the core last granted the array and the one that
holds it, the cores that hold lane groups, and the credits by core. That the first core comes first after reset
is a DESIGN CHOICE (log entry 102). -/
structure Vmu where
  quad : Nat
  last : Nat := 3
  array : Option Nat := none
  groups : List Nat := []
  credits : Vector Int 4 := Vector.replicate 4 0
  deriving DecidableEq, Repr

/-- A numbered barrier of a unit, for a context (R171, R205): its count, arrivals and phase. The unit
is a layer's number, or 12 for the package unit. A barrier not listed has all three at 0. -/
structure Barrier where
  unit : Nat
  ctx : Nat
  num : Nat
  n : Nat := 0
  a : Nat := 0
  p : Nat := 0
  deriving DecidableEq, Repr

/-- A join counter (R173) with its stored flit. -/
structure Join where
  unit : Nat
  ctx : Nat
  num : Nat
  c : Nat := 0
  flit : Flit := { words := [] }
  deriving DecidableEq, Repr

/-- A record of R302 that is in use. Its bytes stand in the vault and in HBM; `image` is the core as
it stood, for what the layout does not hold, and `st` the state it was saved in. -/
structure Record where
  ctx : Nat
  dom : Nat
  num : Nat
  image : Core
  st : TState
  /-- saved by a gang-stop, and its resume command has been received (R304) -/
  stop : Bool := false
  go : Bool := false
  /-- what its waiting instruction has lost (R248) -/
  lost : List AckClass := []
  deriving DecidableEq, Repr

/-- A node of a task graph (R292). -/
structure Node where
  task : Nat
  expl : Bool
  plv : Nat
  sel : Nat
  count : Nat
  rtab : Nat
  xtab : Nat
  thresh : Nat
  cmask : Nat
  next : List Nat
  etab : Nat
  deriving DecidableEq, Repr

/-- What a launch's header grants, as bit masks (R290). -/
structure Grants where
  barl : Nat := 0
  barp : Nat := 0
  jnl : Nat := 0
  jnp : Nat := 0
  trg : Nat := 0
  qp : Nat := 0
  cg : Nat := 0
  gg : Nat := 0
  deriving DecidableEq, Repr

/-- The phase a launch runs (R293, R296, R297): the tables as read, how many tasks are enqueued, the
groups placed so far with their routers, and the partitions' credits, positions and last DONE. -/
structure Phase where
  node : Nat
  raster : List Nat := []
  xtab : List Nat := []
  etab : List Nat := []
  count : Nat := 0
  placed : Nat := 0
  groups : List (Nat × Nat) := []
  credits : List Int := []
  /-- last router that each partition took a task to -/
  last : List (Option Nat) := []
  start : Nat := 0
  lastDone : List (Option Nat) := []
  deriving DecidableEq, Repr

/-- Where a launch stands. -/
inductive LaunchState where
  /-- the next phase, at this node, is due -/
  | due (node : Nat)
  | running
  /-- it has left its graph with this status and waits for its tasks to end -/
  | leaving (status : Nat)
  deriving DecidableEq, Repr

/-- A launch (R290-R298). -/
structure Launch where
  hdrs : List TaskHdr := []
  nodes : List Node := []
  parts : List Nat := []
  scheds : List (List Nat) := []
  maxph : Nat := 0
  grants : Grants := {}
  counters : Vector Nat 64 := Vector.replicate 64 0
  sched : Nat := 0
  /-- phases started; the number of the one that runs -/
  phases : Nat := 0
  phase : Phase := { node := 0 }
  /-- the phase word (R168) -/
  word : Word := 0
  state : LaunchState := .due 0
  deriving DecidableEq, Repr

/-- A COPY slot (R287): its control block and the 16-byte parts written. -/
structure SlotCopy where
  dst : Nat
  src : Nat
  len : Nat
  srcHost : Bool
  dstHost : Bool
  parts : List Nat := []
  /-- the page that it has met and that is not resident (R317) -/
  missed : Option Nat := none
  deriving DecidableEq, Repr

/-- What a slot does. -/
inductive SlotKind where
  | launch (l : Launch)
  | copy (c : SlotCopy)
  | rejected
  deriving DecidableEq, Repr

/-- A slot in flight (R285-R288). -/
structure Slot where
  id : Nat
  queue : Nat
  ctx : Nat
  sig : Nat
  sigHost : Bool
  sigval : Nat
  kind : SlotKind
  /-- it has completed or failed with this status, which is still to be written -/
  status : Option Nat := none
  /-- the page that its launch waits for (log entry 39) -/
  missed : Option Nat := none
  deriving DecidableEq, Repr

/-- A host queue as the manager has set it up (R285, R324): its function, context and priority, ring
base, log2 of the ring's slots, head and tail index, and the MSI-X vector of its function. -/
structure HostQueue where
  num : Nat
  func : Nat := 0
  ctx : Nat
  pri : Nat
  base : Nat
  size : Nat
  head : Nat := 0
  tail : Nat := 0
  vector : Option Nat := none
  /-- the slot started last, which a slot with BAR waits for (R285) -/
  prev : Option Nat := none
  /-- the page that its head's image or buffer waits for (log entry 39) -/
  missed : Option Nat := none
  deriving DecidableEq, Repr

/-- A completion signal that is due (R288): the function whose queue it belongs to, where the status
and SIGVAL go, and the vector raised after them. -/
structure Signal where
  /-- the slot that it completes -/
  slot : Nat := 0
  func : Nat
  ctx : Nat
  addr : Nat
  toHost : Bool
  status : Nat
  val : Nat
  vector : Option Nat := none
  /-- the page that it waits for (log entry 39) -/
  missed : Option Nat := none
  deriving DecidableEq, Repr

/-! ### Wells (chapter 11) -/

/-- What the home keeps for one generation slot (R259): terms landed, masks, the log in ticket order
(contributor, PSAT, PINV), and the two checkpoints with which of them is the older. -/
structure GenSlot where
  tc : Nat := 0
  landed : Nat := 0
  absent : Nat := 0
  log : List (Nat × Bool × Bool) := []
  cp0 : Nat := 0
  cp1 : Nat := 0
  older : Bool := false
  deriving DecidableEq, Repr

/-- An event of a well's sequence as the banks see it (R264, R269): a term in a staging column that
lands in a generation slot or is dropped; a read for a core with its slot, the checkpoint it subtracts
and the one it writes; an advance that clears a slot; the release. -/
inductive WellEvent where
  | land (stage slot : Nat)
  | drop (stage : Nat)
  | read (core slot : Nat) (base cp : Option Bool)
  | advance (slot : Nat)
  | free
  deriving DecidableEq, Repr

/-- A segment block (R257): how many events its bank has carried out, and its columns of 64 elements:
0 to 3 the generation sums, 4 + 2*slot and 5 + 2*slot the checkpoints, 12 + k staging column k. A
column not listed is zero. -/
structure Bank where
  applied : Nat := 0
  cols : List (Nat × List Int) := []
  deriving DecidableEq, Repr

/-- A well (R128, R257-R259). `seq` holds the events from position `seqBase` on, counted from RNEW. -/
structure Well where
  ctx : Nat
  d : Nat
  n : Nat
  e : Int
  late : Nat
  p : Nat
  span : Nat
  cur : Nat := 0
  adv : Nat := 0
  gens : Vector GenSlot 4 := Vector.replicate 4 {}
  nLate : Nat := 0
  nEarly : Nat := 0
  nFull : Nat := 0
  ldm : Nat := 0
  /-- staging slots that are held -/
  held : List Nat := []
  banks : List Bank := []
  seq : List WellEvent := []
  seqBase : Nat := 0
  q : BitVec 32 := 0
  lastAdv : Option Nat := none
  /-- RFREE has taken its position; the core that waits for it -/
  freed : Option Nat := none
  deriving DecidableEq, Repr

/-- A slot of a home vault (R258): its incarnation, its well, and whether it rests after an RFREE. A
slot not listed is free with incarnation 0. -/
structure WellSlot where
  home : Nat
  idx : Nat
  inc : Nat := 0
  well : Option Well := none
  resting : Bool := false
  deriving DecidableEq, Repr

/-- Who posts a term: a core, a fired entry of this package, or one of another package (R339). -/
inductive TermSrc where
  | core (n : Nat)
  | entry (id : Nat)
  | remote (pkg grp seq id : Nat)
  deriving DecidableEq, Repr

/-- Where a term stands (R261): its request is on the way, in RESQ, answered, or it is being staged. -/
inductive TermPhase where
  | request
  | queued
  | granted (k : Nat)
  | late
  | discarded
  | staging (k : Nat)
  deriving DecidableEq, Repr

/-- A term on its way into a well (R129, R261-R263), with the post buffer's element codes. -/
structure Term where
  src : TermSrc
  ctx : Nat
  home : Nat
  idx : Nat
  inc : Nat
  tag : Word
  scaled : Bool
  lt : Bool
  bf16 : Bool
  data : List Nat
  phase : TermPhase := .request
  staged : List Nat := []
  lost : List Nat := []
  psat : Bool := false
  pinv : Bool := false
  deriving DecidableEq, Repr

/-- Where a read stands (R266). -/
inductive ReadPhase where
  | sent
  /-- at the home without a position: its condition or the core's own posts are missing -/
  | waiting
  /-- returned for a full WAIT -/
  | returned
  /-- refused with RAO and this TVAL -/
  | refused (v : Word)
  /-- RET -/
  | retired
  /-- it has its position: ticket, mask, PSAT, PINV and DL -/
  | placed (t mask : Nat) (psat pinv dl : Bool)
  deriving DecidableEq, Repr

/-- The RREAD or RDELTA of a core (R130, R266), with the segments returned so far: the elements'
sums, none where a poisoned cell is included. -/
structure WellRead where
  core : Nat
  ctx : Nat
  home : Nat
  idx : Nat
  inc : Nat
  delta : Bool
  bf16 : Bool
  rd : XReg
  handle : Word
  dst : Word
  desc : Word
  req : Nat
  gen : Nat
  dl : Nat
  base : Nat
  expired : Bool := false
  /-- the well's segments and its exponent, as the core found them -/
  d : Nat := 0
  e : Int := 0
  phase : ReadPhase := .sent
  /-- the place of its event in the sequence, once it has its position -/
  at_ : Nat := 0
  got : List (Nat × List (Option Int)) := []
  deriving DecidableEq, Repr

/-! ### Collectives, gates and experts (chapters 07 and 17) -/

/-- A collective entry (R336). `dpkg` is none for this package. -/
structure CEntry where
  ctx : Nat
  op : Nat
  red : Nat
  grp : Nat
  fin : Bool
  trig : Nat
  ltrig : Nat
  dtrig : Nat
  thr : Nat
  src : Nat
  dst : Nat
  len : Nat
  chunk : Nat
  dpkg : Option Nat
  tag : Word
  deriving DecidableEq, Repr

/-- A queue pair (R178): its unfired entries and the index of the next one posted. -/
structure QueuePair where
  num : Nat
  entries : List CEntry := []
  next : Nat := 0
  deriving DecidableEq, Repr

/-- A trigger counter of a context (R179). One not listed is 0. -/
structure Trigger where
  ctx : Nat
  num : Nat
  v : Nat := 0
  ab : Bool := false
  deriving DecidableEq, Repr

/-- A fired entry (R337): its queue pair, the group's SEQ it was fired under, how many parts are not
acknowledged, and whether DTRIG has been asked for and is done at another package. -/
structure Fired where
  id : Nat
  qp : Nat := 0
  e : CEntry
  seq : Nat
  left : Nat
  asked : Bool := false
  done : Bool := false
  deriving DecidableEq, Repr

/-- A part of a fired entry on its way (R337), from a package. -/
structure Part where
  pkg : Nat
  id : Nat
  grp : Nat
  seq : Nat
  op : Nat
  red : Nat
  dst : Nat
  tag : Word := 0
  bytes : List Byte
  deriving DecidableEq, Repr

/-- What a group's engine keeps beside its registers (R341, R342, R344): who detected the abort and
why, the entries discarded, when it became ABORTING, the children that have acknowledged, whether it
has received ABORT, and the FIN chunks completed. -/
structure Group where
  num : Nat
  detected : Bool := false
  reason : Nat := 0
  by_ : Nat := 0
  discarded : Nat := 0
  since : Nat := 0
  acked : List Nat := []
  told : Bool := false
  /-- it has acknowledged to its parent -/
  passed : Bool := false
  chunks : List Nat := []
  deriving DecidableEq, Repr

/-- A gate list (R182, R345): its pairs (value code, index), its count, and the router it is at, 384
once it has reached its root. -/
structure GateList where
  ctx : Nat
  g : Nat
  root : Nat
  pairs : List (Nat × Nat)
  count : Nat := 1
  at_ : Nat
  deriving DecidableEq, Repr

/-- An open gate group (R182, R183): the task that opened it, M, k, the lists counted and their
pairs. -/
structure Gate where
  ctx : Nat
  g : Nat
  root : Nat
  task : Nat
  m : Nat
  k : Nat
  got : Nat := 0
  pairs : List (Nat × Nat) := []
  deriving DecidableEq, Repr

/-- A DISPATCH that has asked for a slot (R184, R347, R348): the vector, and the answer once given. -/
structure SlotReq where
  core : Nat
  d : XReg
  ctx : Nat
  exp : Nat
  well : Word
  tag : Word
  data : List Byte
  answer : Option Nat := none
  /-- the vector and the header but READY have been sent -/
  sent : Bool := false
  /-- the page of the slot that is not resident (R317) -/
  missed : Option Nat := none
  deriving DecidableEq, Repr

/-! ### The security processor (chapter 19) -/

/-- An enclave (R373-R376): its id, the participants' keys, the quorum, the member packages with the
participants that own them, the host functions and contexts by package, the epoch, the participants
revoked, the group keys by number (current and old), the pairwise keys, and the counters of the nonces
used by key number. -/
structure Enclave where
  id : Nat
  keys : List (List Byte)
  quorum : Nat
  members : List (Nat × Nat)
  funcs : List (Nat × Nat)
  ctxs : List (Nat × Nat)
  epoch : Nat := 0
  revoked : List Nat := []
  key : Option (Nat × List Byte) := none
  old : Option (Nat × List Byte) := none
  pairs : List (Nat × List Byte) := []
  /-- the packets sent under `key` and under `old` (R374) -/
  nonce : Nat := 0
  oldNonce : Nat := 0
  /-- number of the last group key -/
  kn : Nat := 0
  deriving DecidableEq, Repr

/-- What a packet of another package carries (R329, R337, R341, R373, R376). -/
inductive Body where
  | request (r : Request)
  | response (r : Response)
  | flit (f : Flit)
  | part (p : Part)
  | partAck (grp seq id : Nat) (landed : Bool)
  /-- raise a trigger of the group's context, and its answer -/
  | dtrig (grp seq id num : Nat)
  | dtrigAck (grp seq id : Nat)
  | abortReq (g seq reason pkg : Nat)
  | abort (g seq reason pkg : Nat)
  | abortAck (g seq child : Nat)
  | abortDone (g seq : Nat)
  /-- a group key for a member, wrapped (R373); `kn` is its number -/
  | groupKey (encl kn : Nat) (wrapped : List Byte)
  | revocation (encl epoch part sigs : Nat)
  /-- a member's quote and its certificate, for the forming of an enclave (R373) -/
  | quote (encl : Nat) (bytes cert : List Byte)
  /-- a member's ephemeral public key for the pairwise key with the receiver, and its signature (R373) -/
  | agree (encl : Nat) (pub sig : List Byte)
  deriving DecidableEq, Repr

/-- A packet that has reached this package's Ethernet interface: where it comes from, the key number it
was encrypted under (0 none), and whether its link check and its authentication hold (R334, R374). -/
structure Packet where
  src : Nat
  key : Nat := 0
  linkOk : Bool := true
  authOk : Bool := true
  body : Body
  deriving DecidableEq, Repr

/-- The mailbox (R370): SPST's state and reason, and the command it works on. -/
structure Mailbox where
  st : Nat := 0
  reason : Nat := 0
  cmd : Nat := 0
  deriving DecidableEq, Repr

/-- What the device sends out of the package: MSI-X vectors, completions of host reads and packets. -/
inductive OutMsg where
  | msix (function vector : Nat)
  /-- a host read's completion: its bytes, and whether the TLP is poisoned (R325, R356) -/
  | completion (function : Nat) (bytes : List Byte) (poisoned : Bool)
  /-- a completer abort -/
  | completerAbort (function : Nat)
  /-- a message flit for another package (R43, R329) -/
  | flit (pkg : Nat) (f : Flit)
  /-- a request for another package, and a response to one (R329) -/
  | request (r : Request)
  | response (pkg : Nat) (r : Response)
  /-- another packet, with the key number it is encrypted under and the nonce's counter (R374) -/
  | packet (pkg key nonce : Nat) (b : Body)
  deriving DecidableEq, Repr

/-- What comes from outside the core whose turn it is, and says who moves next: one of the machine's
own steps, or the turn of another core. The head comes first. -/
inductive Due where
  | event (i : Instr)
  | turn (core : Nat)
  deriving DecidableEq, Repr

/-- Registers of space 4 whose reset value is not zero: RTXL = 16 and LDLY = 250 of the sixteen
PCFGp (R330). -/
def resetRegs : Memory :=
  ((List.range 16).map fun p => [(0x0040_0000 + 0x100 * p, 250#8), (0x0040_0004 + 0x100 * p, 16#8)]).flatten

/-- The machine. -/
structure State where
  /-- the core whose turn it is -/
  core : Core := {}
  /-- the other cores that hold any state, in rising order; a core not listed is as at reset -/
  others : List Core := []
  due : List Due := []
  /-- steps taken; the model's stand-in for the cycle count -/
  tick : Nat := 0
  /-- the unit whose step was taken last, and the timer: the next is the one after it (R202, R234) -/
  served : Nat := 0
  timed : Nat := 0
  /-- free values drawn so far -/
  free : Nat := 0
  vault : Memory := []
  hbm : Memory := []
  /-- the base die's copy of the mirrored region -/
  mirror : Memory := []
  /-- registers of space 4 that are plain storage -/
  mmio : Memory := resetRegs
  poison : List Place := []
  layers : Vector Layer 12 := Vector.replicate 12 {}
  /-- the slot map (R50), by slot number -/
  slotmap : Vector (BitVec 4) 64 := Vector.ofFn fun i =>
    if i.val = 0 || 61 ≤ i.val then 12 else BitVec.ofNat 4 (i.val % 12)
  flying : List Flying := []
  acks : List Ack := []
  /-- acknowledgements that will not come: their packets have been discarded for age (R248) -/
  lost : List Ack := []
  /-- packets discarded for age, by the router of the place where each was found (R247) -/
  aged : List (Nat × Nat) := []
  /-- the slots sent in the current frame, its number, the last slot that has passed and the map that
  stood when it began (R249-R253) -/
  sent : List SentSlot := []
  frame : BitVec 32 := 0
  slotNow : Nat := 0
  frameMap : Vector (BitVec 4) 64 := Vector.ofFn fun i =>
    if i.val = 0 || 61 ≤ i.val then 12 else BitVec.ofNat 4 (i.val % 12)
  /-- the base die's own stores to space 3 that wait for a slot -/
  baseq : List MirrorStore := []
  /-- commands that wait for slot 0, oldest first -/
  cmds : List Command := []
  setups : List SetUp := []
  reservations : List Reservation := []
  replies : List CircuitReply := []
  /-- teardowns whose acknowledgement is out -/
  teardowns : List Teardown := []
  /-- routers that are not on -/
  power : List (Nat × RouterPower) := []
  /-- replays of a link: router and port, the window, and how many (R359) -/
  replays : List (Nat × Nat × Nat × Nat) := []
  /-- links that fail every replay, by router and port: nothing crosses them (R359) -/
  deadLinks : List (Nat × Nat) := []
  flits : List Flit := []
  /-- overflow flits (R207), in arrival order -/
  overflow : List OverFlit := []
  /-- what has left the package, oldest first -/
  out : List OutMsg := []
  /-- packets whose ports are all frozen (R363) -/
  pent : List OutMsg := []
  /-- host accesses that wait for a migration to end (R322) -/
  later : List Instr := []
  /-- this package's number (R367) -/
  pkg : Nat := 0
  /-- requests that arrive at this package's network interface, its own among them, and responses
  for this package's cores -/
  requests : List Request := []
  responses : List Response := []
  tlb : List Tlb := []
  walks : List Walk := []
  /-- the arbiters that are not as at reset -/
  vmus : List Vmu := []
  /-- QUEUED tasks in the order of entry to their level (R198) -/
  queue : List Task := []
  /-- tasks that SPAWN has handed over and a full dispatcher has not taken yet (R170) -/
  spawns : List Task := []
  nextTask : Nat := 1
  barriers : List Barrier := []
  joins : List Join := []
  records : List Record := []
  /-- contexts whose tasks the dispatchers do not start (R299) -/
  held : List Nat := []
  /-- host memory, by bus address (R324) -/
  host : Memory := []
  queues : List HostQueue := []
  slots : List Slot := []
  nextSlot : Nat := 1
  /-- launches of which a task has been lost with the records of a retired layer (R305) -/
  orphans : List Nat := []
  /-- the queue last served at each priority, for the round robin of R285 -/
  lastQueue : Vector Nat 8 := Vector.replicate 8 63
  /-- unresolved fault records: index, ASID and page (R317) -/
  faults : List (Nat × Nat × Nat) := []
  /-- the migration that runs, and MIGST (R321) -/
  mig : Option Migration := none
  migst : Nat := 0
  /-- masters other than cores that are frozen: KIND and NUM (R192) -/
  frozen : List (Nat × Nat) := []
  /-- signals that wait, in order: for a frozen function or host link (R363), or for their page (R322) -/
  signals : List Signal := []
  wells : List WellSlot := []
  terms : List Term := []
  reads : List WellRead := []
  qps : List QueuePair := []
  triggers : List Trigger := []
  fired : List Fired := []
  nextFired : Nat := 0
  parts : List Part := []
  groups : List Group := []
  /-- gate lists on their way, and those that wait in a router's merge slot (R345) -/
  gateLists : List GateList := []
  gateHolds : List GateList := []
  gates : List Gate := []
  slotReqs : List SlotReq := []
  /-- packets from other packages, as they arrive (R333) -/
  wire : List Packet := []
  /-- packets and parts dropped and counted (R334, R335) -/
  dropped : Nat := 0
  /-- consecutive authentication failures by peer, and peers declared failed (R334) -/
  badAuth : List (Nat × Nat) := []
  failedPeers : List Nat := []
  sp : Mailbox := {}
  /-- M0 to M7 (R371) -/
  measures : List (List Byte) := List.replicate 8 (List.replicate 64 0)
  enclaves : List Enclave := []
  /-- wrapped group keys that have arrived: enclave, key number, sender and bytes (R373) -/
  keyBox : List (Nat × Nat × Nat × List Byte) := []
  /-- quotes of other packages: sender, enclave, quote and certificate; and the enclaves for which this
  package has sent its own (R373) -/
  quotes : List (Nat × Nat × List Byte × List Byte) := []
  quoted : List Nat := []
  /-- the private keys of this package's ephemeral ones: enclave, package and key; and the public ones that have
  come: sender, enclave, key and signature (R373) -/
  ephemerals : List (Nat × Nat × List Byte) := []
  agreed : List (Nat × Nat × List Byte × List Byte) := []
  /-- bit errors that the scrubber has not met yet, and whether each is uncorrectable (R354, R357) -/
  struck : List (Place × Bool) := []
  /-- places that have failed since reset (R370, REPORT) -/
  failing : List Place := []
  /-- corrected errors of the present window, by layer; 12 is the base die (R357) -/
  corrected : List (Nat × Nat) := []
  /-- the image and the record that the host has written, and whether the package is out of reset
  (R367, R382) -/
  image : List Byte := []
  record : List Byte := []
  released : Bool := true
  /-- contexts bound to an enclave: context, enclave; frames admitted to one: enclave, frame
  reference (R375) -/
  encCtxs : List (Nat × Nat) := []
  frames : List (Nat × Nat) := []
  deriving DecidableEq, Repr

/-- The machine right after reset. -/
def State.reset : State := {}

end Sys2Proof.Machine
end

