-- ==== Sys2Proof/Machine/Cores.lean ====
section
/-! DEFINITION. Naming cores, routers and layers (R3), and giving a core the turn. -/

namespace Sys2Proof.Machine

/-- R3: the router of a core, the layer of a core and of a router. -/
def routerOf (core : Nat) : Nat := core / 16
def layerOf (core : Nat) : Nat := core / 512
def layerOfRouter (r : Nat) : Nat := r / 32
def quadOf (core : Nat) : Nat := core / 4
/-- R3: cores 0 to 6143. -/
def numCores : Nat := 6144
def numRouters : Nat := 384

/-- Put a core into the rising list. -/
def insertCore (c : Core) : List Core → List Core
  | [] => [c]
  | d :: t => if c.num < d.num then c :: d :: t else if c.num = d.num then c :: t
              else d :: insertCore c t

/-- The core with a number. -/
def State.getCore (s : State) (n : Nat) : Core :=
  if s.core.num = n then s.core else (s.others.find? (·.num == n)).getD { num := n }

/-- Replace a core. -/
def State.putCore (s : State) (c : Core) : State :=
  if s.core.num = c.num then { s with core := c } else { s with others := insertCore c s.others }

/-- Change a core. -/
def State.modCore (s : State) (n : Nat) (f : Core → Core) : State := s.putCore (f (s.getCore n))

/-- Give core `n` the turn. -/
def State.focus (s : State) (n : Nat) : State :=
  if s.core.num = n then s
  else { s with core := s.getCore n
                others := insertCore s.core (s.others.filter (·.num != n)) }

/-- Act as core `n`, then give the turn back. -/
def State.onCore (s : State) (n : Nat) (f : State → State) : State :=
  (f (s.focus n)).focus s.core.num

/-- Every core that holds any state. -/
def State.allCores (s : State) : List Core := s.core :: s.others

/-- The state of a layer; numbers above 11 name no layer. -/
def State.layer (s : State) (l : Nat) : Layer := (s.layers.toList[l]?).getD { state := .retired }
def State.modLayer (s : State) (l : Nat) (f : Layer → Layer) : State :=
  if h : l < 12 then { s with layers := s.layers.set l (f s.layers[l]) } else s

/-- Members and home of the ligature that a core belongs to; the core alone without one (R211). -/
def State.ligature (s : State) (n : Nat) : List Nat :=
  let home := ((s.getCore n).memberOf).getD n
  home :: (s.getCore home).members

end Sys2Proof.Machine
end

