-- ==== Sys2Proof/Machine/Maps.lean ====
section
/-! DEFINITION. The words in which a core's state is read and written: control registers (R46-R50,
R350), decode tables (R25, R27, R151), accumulator images (R158, R161), and the state-window cells of
its registers (R302, R364). -/

namespace Sys2Proof.Machine

/-! ### The maps of the unprivileged registers (R48, R49) -/

/-- SKLOG as one word. -/
def Csrs.sklog (c : Csrs) : Word :=
  BitVec.ofNat 64 (c.skbase.toNat + c.skpos.toNat * 2 ^ 16 + c.sklen.toNat * 2 ^ 32)
def Csrs.setSklog (c : Csrs) (v : Word) : Csrs :=
  { c with skbase := v.extractLsb' 0 14, skpos := v.extractLsb' 16 16, sklen := v.extractLsb' 32 16 }

/-- SCLA and SCLB: OFF in [13:6]. -/
def scl (v : BitVec 8) : Word := BitVec.ofNat 64 (v.toNat * 64)

/-- QDST without its reserved fields. -/
def qdstMask : Word := 0xFFE007FFFF011FFF#64

/-- QWGT: a write of 0 stores 1. -/
def qwgtOf (v : Word) : BitVec 4 := if v.extractLsb' 0 4 == 0 then 1 else v.extractLsb' 0 4

/-- The low two bits of a ligature's size: 0 alone, else log2 of the number of cores. -/
def lszOf (members : Nat) : Nat :=
  if members = 0 then 0 else if members = 1 then 1 else if members = 3 then 2
  else if members = 7 then 3 else 4

/-- R49. -/
def Core.geom (c : Core) : Word :=
  BitVec.ofNat 64 (c.num + c.erow.toNat * 2 ^ 16 + c.ecol.toNat * 2 ^ 24
    + lszOf c.members.length * 2 ^ 32)

/-- R38: the slots allocated for a request. -/
def allocOf (n : Nat) : Nat := (n + 2 + 7) / 8 * 8
def Core.rlimWord (c : Core) : Word := BitVec.ofNat 64 (c.rlim + allocOf c.rlim * 2 ^ 8)

/-- R49: HV, HIT and USE. -/
def Core.rlktab (c : Core) : Word :=
  let use := ((List.finRange 16).map fun i => if (c.locks[i]).isSome then 2 ^ i.val else 0).sum
  BitVec.ofNat 64 (use + (match c.rhit with
    | some i => i.val * 2 ^ 16 + 2 ^ 20
    | none => 0))

/-- R49, R62. -/
def Core.frs (c : Core) : Word :=
  let f := c.frame
  if f.cap || f.act then
    BitVec.ofNat 64 (f.km1.toNat + f.idx * 2 ^ 4 + f.nm1.toNat * 2 ^ 8 + f.pass * 2 ^ 16
      + f.stride.toNat * 2 ^ 24 + f.sel.toNat * 2 ^ 29 + f.act.toNat * 2 ^ 32 + f.cap.toNat * 2 ^ 33)
  else 0

/-- R350: the core's own slots. -/
def Core.rslot (c : Core) : Word :=
  let held := (List.finRange 8).filter fun i => (c.slots[i]).isSome
  BitVec.ofNat 64 ((held.map fun i => 2 ^ i.val).sum + held.length * 2 ^ 8 + c.rstall.toNat * 2 ^ 16)

/-! ### The maps of the privileged registers (R50) -/

def Core.status (c : Core) : Word :=
  BitVec.ofNat 64 (c.p.toNat + 2 * c.pp.toNat + 8 * (!c.members.isEmpty).toNat + 16 * c.ss.toNat)
def Core.setStatus (c : Core) (v : Word) : Core :=
  { c with p := v.getLsbD 0, pp := v.getLsbD 1, ss := v.getLsbD 4 }

/-- Clear the low two bits of an address: EPC[1:0] read as zero (R50). -/
def word4 (a : Word) : Word := a &&& ~~~3#64

/-- PROTn without its reserved fields. -/
def protMask : Word := 0xFE3FFFFFFFFFFFFC#64

/-! ### Decode tables (R25, R27, R150, R151) -/

/-- The 8-bit OCP formats. -/
def fmtE4M3 : Fmt := ⟨4, 3, 7⟩
def fmtE5M2 : Fmt := ⟨5, 2, 15⟩

/-- 2^(k/8), rounded to e8m10 under RNE: the eighth root of 2^r from 40 bits below the point, with a
half-unit where it is not exact. -/
def logEntry (k : Int) : Nat :=
  let r := (k % 8).toNat
  let q := k / 8
  let root := isqrt (isqrt (isqrt (2 ^ (r + 320))))
  let num := if r = 0 then 2 * root else 2 * root + 1
  (fmtE8m10.round .rne false num 1 (q - 41)).code

/-- R25: the preset tables. -/
def presetEntry (p : Fin 4) (c : Nat) : Nat :=
  match p with
  | 0 =>
    if c % 128 = 127 then fmtE8m10.nan
    else
      let e := c / 8 % 16
      let m := c % 8
      let v : FV := if e = 0 then .fin (decide (128 ≤ c)) m (-9)
        else .fin (decide (128 ≤ c)) (8 + m) ((e : Int) - 10)
      (fmtE8m10.ofFV .rne v).code
  | 1 => fmtE5M2.convert fmtE8m10 .rne c
  | 2 => fmtE8m10.ofInt .rne (toS 8 c)
  | 3 =>
    let m := c % 128
    if m = 0 then fmtE8m10.zero (decide (128 ≤ c))
    else fmtE8m10.signBit (decide (128 ≤ c)) + logEntry ((m : Int) - 64)

/-- R25: entry c, as an e8m10 code. -/
def DTable.entry (t : DTable) (c : Nat) : Nat :=
  match t with
  | .preset p => presetEntry p c
  | .loaded es _ => (es.getD c 0).toNat

/-- R25: the order flag. -/
def DTable.order (t : DTable) : Bool :=
  match t with
  | .preset p => p == 2
  | .loaded _ o => o

/-- R25: the code with an encode index. -/
def codeOfIndex (order : Bool) (i : Nat) : Nat :=
  if order then Nat.xor i 128 else if 128 ≤ i then i - 128 else 255 - i

/-- R27 step 1: the encode sequence: encode index, code and e8m10 value, NaN entries left out. -/
def DTable.sequence (t : DTable) : List (Nat × Nat × Nat) :=
  ((List.range 256).map fun i =>
      (i, codeOfIndex t.order i, t.entry (codeOfIndex t.order i))).filter
    fun e => !(fmtE8m10.value e.2.2).isNan

/-- e8m10 codes in numeric order, -0 below +0. -/
def rank19 (w : Nat) : Int :=
  if fmtE8m10.sign w then -((w % 2 ^ 18 : Nat) : Int) - 1 else (w : Int)

def strictlyRising : List Int → Bool
  | [] => true
  | [_] => true
  | a :: b :: t => decide (a < b) && strictlyRising (b :: t)

def FV.isFinite : FV → Bool
  | .fin _ _ _ => true
  | _ => false

/-- R27 step 2. -/
def DTable.encOk (t : DTable) : Bool :=
  let q := t.sequence
  strictlyRising (q.map fun e => rank19 e.2.2) && q.any fun e => (fmtE8m10.value e.2.2).isFinite

/-- Comparison of x with the midpoint of two neighbours (R27 step 3): the midpoint of a finite value
and an infinity is that infinity. -/
inductive Side where
  | below | on | above
  deriving DecidableEq, Repr

def midSide (x : FV) (v w : Nat) : Side :=
  match fmtE8m10.value v, fmtE8m10.value w with
  | .inf n, _ => if n then .above else .below
  | _, .inf n => if n then .above else .below
  | a, b =>
    let twice := FV.mul x (.fin false 2 0)
    let sum := FV.add .rne a b
    if twice.lt sum then .below else if sum.lt twice then .above else .on

/-- R27 step 4's search along the sequence, for a finite x. -/
def encSearch (x : FV) : List (Nat × Nat × Nat) → Nat
  | [] => 0
  | [e] => e.2.1
  | e :: f :: t =>
    match midSide x e.2.2 f.2.2 with
    | .below => e.2.1
    | .on => if e.1 % 2 = 0 then e.2.1 else if f.1 % 2 = 0 then f.2.1 else e.2.1
    | .above => encSearch x (f :: t)

/-- R27: the code of an FP32 value. -/
def DTable.encode (t : DTable) (w : Nat) : Nat :=
  let q := t.sequence
  match fmtF32.value w with
  | .nan => ((List.range 256).find? fun c => (fmtE8m10.value (t.entry c)).isNan).getD 0
  | .inf n =>
    match q.find? fun e => e.2.2 == fmtE8m10.inf n with
    | some e => e.2.1
    | none => if n then (q.head?.map (·.2.1)).getD 0 else (q.getLast?.map (·.2.1)).getD 0
  | .fin n m e =>
    if m = 0 then
      match q.find? fun c => c.2.2 == fmtE8m10.zero n with
      | some c => c.2.1
      | none => match q.find? fun c => c.2.2 == fmtE8m10.zero (!n) with
        | some c => c.2.1
        | none => encSearch (.fin false 0 0) q
    else encSearch (.fin n m e) q

/-- R151. PSET of a loaded table reads 0 (DESIGN CHOICE, log entry 111). -/
def DTable.tblst (t : DTable) : Word :=
  let p : Nat := match t with
    | .preset p => 4 + 8 * p.val
    | .loaded _ _ => 0
  BitVec.ofNat 64 (t.encOk.toNat + 2 * t.order.toNat + p)

/-! ### Accumulator images (R158, R161) -/

/-- R158: the bytes of a full image, as a memory. -/
def Acc.image (c : Acc) : Memory :=
  Memory.writeN (c.elems.foldl (fun m e => m.writeN (16 * e.1) 10 e.2.toNat) []) 65536 8
    (c.status.toNat + 256 * c.imode.toNat)

/-- R161: does each byte that R158 makes zero hold zero? -/
def imageOk (m : Memory) : Bool :=
  let imode := (m.read 65537).getLsbD 0
  m.all fun c =>
    if c.1 < 65536 then
      if imode then decide (c.1 % 16 < 10)
      else decide (c.1 % 16 < 4) || (c.1 % 16 == 4 && decide (c.2.toNat < 16))
    else if c.1 = 65536 then decide (c.2.toNat < 128)
    else if c.1 = 65537 then decide (c.2.toNat < 2)
    else false

/-- R161: the tile of an image that is well formed; a NaN becomes the canonical one. -/
def accOfImage (m : Memory) : Acc :=
  let imode := (m.read 65537).getLsbD 0
  let idx := ((m.filter fun c => decide (c.1 < 65536)).map fun c => c.1 / 16).eraseDups
  { imode := imode, status := BitVec.ofNat 7 (m.read 65536).toNat
    elems := idx.map fun i =>
      let v := m.readN (16 * i) 10
      (i, BitVec.ofNat 80 (if !imode && (fmtA36.value v).isNan then fmtA36.nan else v)) }

/-! ### Cells -/

/-- The state-window cells of registers (R302, R364). -/
def cellX (i : Nat) : Nat := 0x40 + 8 * i
def cellA (i : Nat) : Nat := 0x240 + 8 * i
def cellQs (i : Nat) : Nat := 0x280 + 8 * i
def cellV (i : Nat) : Nat := 0x1_4000 + 256 * i
def cellM (i : Nat) : Nat := 0x1_6000 + 8 * i
def cellTab : Nat := 0x1_6400
def cellShare (i : Nat) : Nat := 0x1_6800 + 512 * i
/-- The k-th 16-byte part of the weight share. -/
def cellPart (k : Nat) : Nat := cellShare 0 + 16 * k
def isPart (cell : Nat) : Bool := decide (cellShare 0 ≤ cell) && decide (cell < cellShare 32)
def cellT (i : Nat) : Nat := 0x1_A800 + 8192 * i

/-- R364: the space-4 address of a cell of a core's window. -/
def cellAddr (core cell : Nat) : Word :=
  BitVec.ofNat 64 (0x4000_0000_0000_0000 + 0x2000_0000 + 0x8_0000 * core + cell)

end Sys2Proof.Machine
end

