-- ==== Sys2Proof/Machine/Layout.lean ====
section
/-! DEFINITION. The layout of a core's saved state (R302, R303), which a frozen core's state window
shows as well (R364): head from offset 0, bulk from offset 0x1_0000. -/

namespace Sys2Proof.Machine

/-- A field of the layout: where it lies, its bytes, and what writing its bytes does to the core. -/
structure Fld where
  off : Nat
  n : Nat
  get : Core → Memory
  set : Memory → Core → Core

/-- A field that holds a number. -/
def numFld (off n : Nat) (get : Core → Nat) (set : Nat → Core → Core) : Fld :=
  { off := off, n := n, get := fun c => Memory.writeN [] 0 n (get c)
    set := fun m c => set (m.readN 0 n) c }

/-- A 64-bit field. -/
def wordFld (off : Nat) (get : Core → Word) (set : Word → Core → Core) : Fld :=
  numFld off 8 (fun c => (get c).toNat) fun v => set (BitVec.ofNat 64 v)

/-- A field that only shows something. -/
def showFld (off n : Nat) (get : Core → Nat) : Fld := numFld off n get fun _ c => c

/-! ### Head: identity and waits -/

/-- R303: the wait kind of an instruction that waits while its task keeps the core: bits [31:25] of the
instruction. -/
def stallKind (op : Nat) : Nat :=
  if op = 0x34 || op = 0x39 || op = 0x3A || op = 0x3B || op = 0x74 then 7
  else if op = 0x70 || op = 0x77 then 8
  else 9

/-- R303: the wait kind. The instruction at PC keeps the kind of its wait until it is issued again. -/
def Core.waitKind (c : Core) : Nat :=
  match c.wait with
  | .barw _ _ _ => 1
  | .barSync _ _ _ => 2
  | .spinw _ => 3
  | .yield _ => 4
  | .receive => 5
  | .translation _ _ => 6
  | .remotePage _ => 6
  | .none => match c.progress with
    | .arrived _ => 2
    | _ => c.gaveUp

/-- The number of a barrier in a register (chapter 07): U and NUM. -/
def barrierNumber (unit num : Nat) : Nat := num + (if unit = 12 then 64 else 0)

/-- R303: the wait record. -/
def Core.waitWord (c : Core) : Nat :=
  match c.wait with
  | .barw u n p => p + barrierNumber u n * 2 ^ 16
  | .barSync u n p => p + barrierNumber u n * 2 ^ 16
  | .yield l => l % 2 ^ 32
  | .translation va _ => va
  | .remotePage va => va
  | .none => match c.progress with
    | .arrived w => w
    | _ => 0
  | _ => 0

/-- R303: the state code of a saved or frozen core. -/
def TState.code : TState → Nat
  | .queued => 0 | .running => 1 | .parked => 2 | .frozen => 3
def TState.ofCode (v : Nat) (t : TState) : TState :=
  match v with
  | 0 => .queued | 1 => .running | 2 => .parked | 3 => .frozen | _ => t

/-- The barrier of a wait record of kind 1 or 2: unit and number, on a core. -/
def Core.recordUnit (c : Core) (w : Nat) : Nat := if bits w 22 1 = 1 then 12 else layerOf c.num
def recordNum (w : Nat) : Nat := bits w 16 6

/-- The wait that a kind and a wait record name (R303). -/
def Core.setWaitOf (k w : Nat) (c : Core) : Core :=
  let d := { c with wait := .none, gaveUp := 0
                    progress := match c.progress with
                      | .arrived _ => .none
                      | p => p }
  match k with
  | 1 => { d with wait := .barw (c.recordUnit w) (recordNum w) (w % 2 ^ 16) }
  | 2 => { d with progress := .arrived (w % 2 ^ 23) }
  | 3 => { d with wait := .spinw 0 }
  | 4 => { d with wait := .yield (w % 2 ^ 32) }
  | 5 => { d with wait := .receive }
  | 6 => { d with wait := .translation w 0 }
  | 7 | 8 | 9 => { d with gaveUp := k }
  | _ => d

/-- The state word written: the state, and the wait where its kind changes; reserved codes change nothing. -/
def Core.setHead (v : Nat) (c : Core) : Core :=
  let d := { c with tstate := c.tstate.ofCode (v % 8) }
  if bits v 4 4 = c.waitKind || 9 < bits v 4 4 then d else d.setWaitOf (bits v 4 4) c.waitWord

/-- The wait record written, where the wait has one. -/
def Core.setWaitWord (w : Nat) (c : Core) : Core :=
  if w = c.waitWord then c
  else match c.wait with
    | .barw _ _ _ => { c with wait := .barw (c.recordUnit w) (recordNum w) (w % 2 ^ 16) }
    | .barSync _ _ _ => { c with wait := .barSync (c.recordUnit w) (recordNum w) (w % 2 ^ 16) }
    | .yield _ => { c with wait := .yield (w % 2 ^ 32) }
    | .translation _ k => { c with wait := .translation (w % 2 ^ 64) k }
    | .remotePage _ => { c with wait := .remotePage (w % 2 ^ 64) }
    | .none => match c.progress with
      | .arrived _ => { c with progress := .arrived (w % 2 ^ 23) }
      | _ => c
    | _ => c

/-- R302: task-table index, priority, home core, and the ligature as log2 of its size. -/
def Core.identity (c : Core) : Nat :=
  ((c.task.map (·.entry)).getD 0) + ((c.task.map (·.pri)).getD 0) * 2 ^ 8
    + ((c.task.bind (·.bound)).getD c.num) * 2 ^ 16 + lszOf c.members.length * 2 ^ 32
/-- A list filled up to a length. -/
def fillUp {α : Type} (a : α) (n : Nat) (l : List α) : List α := l ++ List.replicate (n - l.length) a

/-- A core number written to the task's home core is what the task shows from then on (log entry 105); a size
fills the list of members up with the core itself, or cuts it. -/
def Core.setIdentity (v : Nat) (c : Core) : Core :=
  let g := Nat.min 4 (bits v 32 4)
  { c with
    task := c.task.map fun t => { t with
      entry := bits v 0 8, pri := bits v 8 3
      bound := if bits v 16 13 = (t.bound).getD c.num then t.bound else some (bits v 16 13) }
    members := if g = lszOf c.members.length then c.members
      else (fillUp c.num (2 ^ g - 1) c.members).take (2 ^ g - 1) }

/-! ### Members and pins -/

/-- The i-th entry of the member list: the home core, and then its members. -/
def Core.memberWord (i : Nat) (c : Core) : Nat := if c.members.isEmpty then 0 else (c.num :: c.members).getD i 0
/-- An entry written beyond those held makes the list that long. -/
def Core.setMember (i v : Nat) (c : Core) : Core :=
  if i = 0 || v = c.memberWord i then c
  else { c with members := (fillUp c.num i c.members).set (i - 1) v }

/-- An ASID that is none: of a pin entry that holds no page, or whose address space is still to be looked up. -/
def noAsid : Nat := 2 ^ 16
def noPin : Nat × Nat × Nat := (0, noAsid, 0)

/-- R302: a pin as an address: of space 0, or the global one of another package's page. -/
def pinWord (p : Nat × Nat × Nat) : Nat :=
  p.2.2 * 2 ^ 21 + (if p.1 = 0 then 0 else 2 ^ 63 + (p.1 - 1) * 2 ^ 53)
/-- The pin that an address written to an entry names, for a task of context `ctx`. -/
def pinOf (ctx v : Nat) (p : Nat × Nat × Nat) : Nat × Nat × Nat :=
  if v = pinWord p then p
  else if bits v 63 1 = 1 then (bits v 53 10 + 1, ctx, bits v 21 32)
  else if bits v 21 32 = 0 then noPin
  else (0, if p.1 = 0 then p.2.1 else noAsid, bits v 21 32)
def Core.setPin (i v : Nat) (c : Core) : Core :=
  if v = ((c.pins[i]?).map pinWord).getD 0 then c
  else
    let ps := fillUp noPin (i + 1) c.pins
    { c with pins := ps.set i (pinOf ((c.task.map (·.ctx)).getD 0) v (ps.getD i noPin)) }
/-- The pins that a write of the window has left without an address space are pages of the task's own. -/
def Core.homePins (asid : Nat) (c : Core) : Core :=
  { c with pins := c.pins.map fun p => if p.1 = 0 && p.2.1 = noAsid && p.2.2 ≠ 0 then (0, asid, p.2.2) else p }

/-! ### Registers -/

/-- R38, R302: slot i of the scalar file. The two highest allocated slots hold the region's start and
the link shadow; slots from ALLOC on are zero. -/
def Core.slotWord (c : Core) (i : Nat) : Word :=
  let a := allocOf c.rlim
  if i + 1 = a then c.link
  else if i + 2 = a then c.snap.pc
  else if i = 0 || a ≤ i then 0
  else c.x.toList.getD i 0
def Core.setSlotWord (i : Nat) (v : Word) (c : Core) : Core :=
  let a := allocOf c.rlim
  if i + 1 = a then { c with link := v }
  else if i + 2 = a then { c with snap := { c.snap with pc := v } }
  else if i = 0 || a ≤ i then c
  else { c with x := c.x.setIfInBounds i v }

/-- A control register of the head. -/
def csrFld (off : Nat) (get : Csrs → Word) (set : Word → Csrs → Csrs) : Fld :=
  wordFld off (fun c => get c.csrs) fun v c => { c with csrs := set v c.csrs }

/-- The control registers at 0x02C0. -/
def csrFlds : List Fld :=
  [ csrFld 0x2C0 (·.astr) fun v c => { c with astr := v }
  , csrFld 0x2C8 (·.qdst) fun v c => { c with qdst := v &&& qdstMask }
  , csrFld 0x2D0 (·.qwgt.zeroExtend 64) fun v c => { c with qwgt := qwgtOf v }
  , csrFld 0x2D8 (·.fmta.zeroExtend 64) fun v c => { c with fmta := v.extractLsb' 0 4 }
  , csrFld 0x2E0 (·.fmtb.zeroExtend 64) fun v c => { c with fmtb := v.extractLsb' 0 4 }
  , csrFld 0x2E8 (fun c => scl c.scla) fun v c => { c with scla := v.extractLsb' 6 8 }
  , csrFld 0x2F0 (fun c => scl c.sclb) fun v c => { c with sclb := v.extractLsb' 6 8 }
  , csrFld 0x2F8 (·.skth.zeroExtend 64) fun v c => { c with skth := v.extractLsb' 0 8 }
  , csrFld 0x300 (·.sklog) fun v c => c.setSklog v
  , csrFld 0x308 (·.skctl.zeroExtend 64) fun v c => { c with skctl := v.extractLsb' 0 2 }
  , showFld 0x310 16 fun _ => 0
  , wordFld 0x320 Core.status fun v c => c.setStatus v
  , wordFld 0x328 (·.epc) fun v c => { c with epc := word4 v }
  , wordFld 0x330 (·.cause.zeroExtend 64) fun v c => { c with cause := v.extractLsb' 0 5 }
  , wordFld 0x338 (·.tval) fun v c => { c with tval := v } ]

/-- R302: FRS and the body. -/
def Core.setFrs (v : Word) (c : Core) : Core :=
  { c with frame := { c.frame with
      cap := v.getLsbD 33, act := v.getLsbD 32, sel := v.extractLsb' 29 3
      stride := v.extractLsb' 24 5, pass := (v.extractLsb' 16 8).toNat, nm1 := v.extractLsb' 8 8
      idx := (v.extractLsb' 4 4).toNat, km1 := v.extractLsb' 0 4 } }
def frameFlds : List Fld :=
  wordFld 0x3C0 Core.frs Core.setFrs ::
    (List.range 16).map fun i => numFld (0x3C8 + 4 * i) 4
      (fun c => (c.frame.body.getD i 0).toNat)
      fun v c => { c with frame := { c.frame with body := c.frame.body.set i (BitVec.ofNat 32 v) } }

/-! ### Streams and range locks -/

/-- A stream's 32 bytes: start, width, count, position, and the range-lock entry or 16; width 0 is an
unbound stream. -/
def streamBytes (t : Stream) : Memory :=
  Memory.writeBytes [] 0 (bytesOf 8 t.start ++ bytesOf 4 t.width ++ bytesOf 4 t.count
    ++ bytesOf 4 t.pos ++ bytesOf 4 ((t.entry.map (·.val)).getD 16))
def setStreamBytes (m : Memory) (t : Option Stream) : Option Stream :=
  let e := m.readN 20 4
  let u : Stream := t.getD { entry := none, start := 0, width := 1, count := 0 }
  if m.readN 8 4 = 0 then none
  else some { u with start := m.readN 0 8, width := m.readN 8 4, count := m.readN 12 4
                     pos := m.readN 16 4
                     entry := if h : e < 16 then some ⟨e, h⟩ else none }
def streamFlds : List Fld :=
  (List.finRange 8).map fun i =>
    { off := 0x440 + 32 * i.val, n := 32
      get := fun c => ((c.s[i]).map streamBytes).getD []
      set := fun m c => { c with s := c.s.set i.val (setStreamBytes m c.s[i]) } }

/-- The kind word of a range-lock entry: 0 free, 1 COPY, 2 COPYS with its element width above and its
stream from bit 16 on. -/
def lockKind (e : LockEntry) : Nat :=
  match e.kind with
  | .copy => 1
  | .stream s w => 2 + 256 * w + (match s with
    | some i => 2 ^ 16 * (1 + i.val)
    | none => 0)
def kindOfLock (v : Nat) : CopyKind :=
  if v % 256 = 1 then .copy
  else .stream (let i := bits v 16 8
                if h : i - 1 < 8 then (if i = 0 then none else some ⟨i - 1, h⟩) else none) (bits v 8 8)
/-- The progress of an entry: its 16-byte parts done (R302). -/
def LockEntry.done (e : LockEntry) : Nat :=
  match e.kind with
  | .copy => e.parts.length
  | _ => e.moved / 16
def lockBytes (e : LockEntry) : Memory :=
  Memory.writeBytes [] 0 (bytesOf 8 e.src.toNat ++ bytesOf 8 e.dst.toNat ++ bytesOf 8 e.len
    ++ bytesOf 8 e.done ++ bytesOf 8 (lockKind e))
def setLockBytes (m : Memory) (e : Option LockEntry) : Option LockEntry :=
  let k := m.readN 32 8
  let d := m.readN 24 8
  let u := e.getD { kind := .copy, src := 0, dst := 0, len := 0 }
  if k % 256 = 0 then none
  else some { u with
    kind := kindOfLock k, src := BitVec.ofNat 64 (m.readN 0 8), dst := BitVec.ofNat 64 (m.readN 8 8)
    len := m.readN 16 8
    parts := if u.done = d then u.parts else if k % 256 = 1 then List.range d else []
    moved := if k % 256 = 1 then 0 else if u.done = d then u.moved else 16 * d }
def lockFlds : List Fld :=
  (List.finRange 16).map fun i =>
    { off := 0x540 + 48 * i.val, n := 48
      get := fun c => ((c.locks[i]).map lockBytes).getD []
      set := fun m c => { c with locks := c.locks.set i.val (setLockBytes m c.locks[i]) } }

/-! ### Messages -/

/-- The flits of the resident task in the inbox. -/
def Core.mine (c : Core) : List Flit :=
  (c.inbox.filter fun f => some f.task == c.task.map (·.id)).map (·.flit)
def Core.setMine (fs : List Flit) (c : Core) : Core :=
  let id := (c.task.map (·.id)).getD 0
  { c with inbox := fs.map (fun f => { task := id, flit := f }) ++ c.inbox.filter fun f => f.task != id }

/-- The 64 bytes of a flit, and a flit with other bytes. -/
def flitBytes (f : Flit) : Memory :=
  Memory.writeBytes [] 0 ((f.words.map fun w => bytesOf 8 w.toNat).flatten)
def setFlitBytes (m : Memory) (f : Flit) : Flit :=
  { f with words := (List.range 8).map fun i => BitVec.ofNat 64 (m.readN (8 * i) 8) }

/-- A flit with nothing in it. -/
def emptyFlit : Flit := { words := List.replicate 8 0 }

/-- A list cut or filled up to a length. -/
def resize {α : Type} (a : α) (n : Nat) (l : List α) : List α := l.take n ++ List.replicate (n - l.length) a

/-- A field over the i-th flit of the inbox. -/
def inboxFld (off n i : Nat) (get : Flit → Memory) (set : Memory → Flit → Flit) : Fld :=
  { off := off, n := n
    get := fun c => ((c.mine[i]?).map get).getD []
    set := fun m c => match c.mine[i]? with
      | some f => c.setMine (c.mine.set i (set m f))
      | none => c }

/-- A flit's route header as bytes. -/
def headerBytes (f : Flit) : Memory := Memory.writeN [] 0 8 f.header.toNat
def setHeaderBytes (m : Memory) (f : Flit) : Flit := { f with header := BitVec.ofNat 64 (m.readN 0 8) }

def messageFlds : List Fld :=
  [ numFld 0x1100 8 (fun c => c.latched.isSome.toNat) fun v c =>
      { c with latched := if v % 2 = 1 then some (c.latched.getD emptyFlit) else none }
  , numFld 0x1108 8 (fun c => c.mine.length) fun v c => c.setMine (resize emptyFlit (Nat.min v 32) c.mine)
  , { off := 0x8C0, n := 64, get := fun c => (c.latched.map flitBytes).getD []
      set := fun m c => { c with latched := c.latched.map (setFlitBytes m) } }
  , { off := 0x1118, n := 8, get := fun c => (c.latched.map headerBytes).getD []
      set := fun m c => { c with latched := c.latched.map (setHeaderBytes m) } }
  , showFld 0x1120 32 fun _ => 0 ]
    ++ (List.range 32).map (fun i => inboxFld (0x900 + 64 * i) 64 i flitBytes setFlitBytes)
    ++ (List.range 32).map (fun i => inboxFld (0x1140 + 8 * i) 8 i headerBytes setHeaderBytes)

/-! ### Bulk -/

/-- The 256 bytes of a vector register. -/
def laneMem (v : Vector Lane 64) : Memory :=
  Memory.writeBytes [] 0 ((v.toList.map fun x => bytesOf 4 x.toNat).flatten)
def lanesOfMem (m : Memory) : Vector Lane 64 := Vector.ofFn fun i => BitVec.ofNat 32 (m.readN (4 * i.val) 4)

/-- The decode table's 256 entries of four bytes. -/
def tableMem (t : DTable) : Memory :=
  Memory.writeBytes [] 0 (((List.range 256).map fun i => bytesOf 4 (t.entry i)).flatten)
def tableOfMem (m : Memory) (order : Bool) : DTable :=
  .loaded ((List.range 256).map fun i => BitVec.ofNat 19 (m.readN (4 * i) 4)) order

/-- TBLST written: a preset stays one only where its bits say so. -/
def setTblst (v : Word) (t : DTable) : DTable :=
  if v.getLsbD 2 then .preset ⟨(v.extractLsb' 3 2).toNat, (v.extractLsb' 3 2).isLt⟩
  else .loaded ((List.range 256).map fun i => BitVec.ofNat 19 (t.entry i)) (v.getLsbD 1)

/-- Replace `n` bytes of a memory from `a` on. -/
def Memory.splice (m : Memory) (a n : Nat) (x : Memory) : Memory :=
  x.foldl (fun m c => if c.1 < n then m.write (a + c.1) c.2 else m) (m.clear a n)

/-- The elements in a stream's buffer. -/
def bufMem (t : Stream) : Memory :=
  Memory.writeBytes [] 0 ((t.buf.map fun e => bytesOf t.width (e.getD 0)).flatten)
def setBufMem (m : Memory) (t : Stream) : Stream :=
  { t with buf := (List.range t.buf.length).map fun i => match t.buf.getD i none with
      | none => none
      | some _ => some (m.readN (i * t.width) t.width) }

def bulkFlds : List Fld :=
  [ { off := 0x1_0000, n := 16384, get := (·.loc), set := fun m c => { c with loc := m } }
  , wordFld 0x1_6020 (fun c => c.table.tblst) fun v c => { c with table := setTblst v c.table }
  , { off := 0x1_6400, n := 1024, get := fun c => tableMem c.table
      set := fun m c => if tableMem c.table = m then c
        else { c with table := tableOfMem m c.table.order } } ]
    ++ (List.finRange 32).map (fun i =>
      { off := cellV i.val, n := 256, get := fun c => laneMem c.v[i]
        set := fun m c => { c with v := c.v.set i.val (lanesOfMem m) } })
    ++ (List.finRange 4).map (fun i => wordFld (cellM i.val) (fun c => c.m[i])
        fun v c => { c with m := c.m.set i.val v })
    ++ (List.range 32).map (fun i =>
      { off := cellShare i, n := 512, get := fun c => c.share.slice (512 * i) 512
        set := fun m c => { c with share := c.share.splice (512 * i) 512 m } })
    ++ (List.finRange 4).map (fun i =>
      { off := cellT i.val, n := 8192, get := fun c => c.t[i]
        set := fun m c => { c with t := c.t.set i.val m } })
    ++ (List.finRange 2).map (fun i =>
      { off := 0x2_2800 + 65600 * i.val, n := 65600, get := fun c => (c.c[i]).image
        set := fun m c => { c with c := c.c.set i.val (accOfImage m) } })
    ++ (List.finRange 8).map (fun i =>
      { off := 0x4_2880 + 512 * i.val, n := 512
        get := fun c => ((c.s[i]).map bufMem).getD []
        set := fun m c => { c with s := c.s.set i.val ((c.s[i]).map (setBufMem m)) } })

/-! ### The whole layout -/

/-- R303: the state and the wait of a record. -/
def headFlds : List Fld :=
  [ numFld 0x0 8 (fun c => c.tstate.code + 16 * c.waitKind + 256) Core.setHead
  , numFld 0x20 32 Core.waitWord Core.setWaitWord ]

/-- R302: every field, in an order in which they can be written back. -/
def layout : List Fld :=
  headFlds ++
  [ wordFld 0x8 (·.pc) fun v c => { c with pc := v }
  , wordFld 0x10 (·.wid) fun v c => { c with wid := v }
  , numFld 0x18 8 Core.identity Core.setIdentity ]
    ++ (List.range 64).map (fun i => wordFld (cellX i) (·.slotWord i) (Core.setSlotWord i))
    ++ (List.finRange 8).map (fun i => wordFld (cellA i.val) (fun c => c.a[i])
        fun v c => { c with a := c.a.set i.val v })
    ++ (List.finRange 8).map (fun i => wordFld (cellQs i.val) (fun c => c.qs[i])
        fun v c => { c with qs := c.qs.set i.val v })
    ++ csrFlds
    ++ (List.finRange 16).map (fun i => wordFld (0x340 + 8 * i.val) (fun c => c.prot[i])
        fun v c => { c with prot := c.prot.set i.val (v &&& protMask) })
    ++ frameFlds ++ lockFlds ++ streamFlds
    ++ (List.range 16).map (fun i => numFld (0x840 + 2 * i) 2 (Core.memberWord i) (Core.setMember i))
    ++ (List.range 8).map (fun i => numFld (0x880 + 8 * i) 8
        (fun c => ((c.pins[i]?).map pinWord).getD 0) (Core.setPin i))
    ++ messageFlds ++ bulkFlds

/-- R364: one byte of the layout as the core stands. -/
def Core.windowByte (c : Core) (o : Nat) : Byte :=
  match layout.find? fun f => decide (f.off ≤ o) && decide (o < f.off + f.n) with
  | some f => (f.get c).read (o - f.off)
  | none => 0

/-- Bytes laid over a field. -/
def Fld.overlay (f : Fld) (o : Nat) (bs : List Byte) (c : Core) : Core :=
  if o < f.off + f.n && f.off < o + bs.length then
    f.set ((List.range bs.length).foldl (fun m i =>
      if f.off ≤ o + i && o + i < f.off + f.n then m.write (o + i - f.off) (bs.getD i 0) else m)
      (f.get c)) c
  else c

/-- R364: bytes written to the layout change the core in place. -/
def Core.windowWrite (c : Core) (o : Nat) (bs : List Byte) : Core :=
  layout.foldl (fun c f => f.overlay o bs c) c

end Sys2Proof.Machine
end

