-- ==== Sys2Proof/Machine/Space.lean ====
section
/-! DEFINITION. Where an access goes and whether it may: the address spaces (R218-R222), the
protection unit (R50, R222), the translation caches and the page tables (R306-R316), the range locks
(R126), and the checks of R104 in their order. -/

namespace Sys2Proof.Machine

/-! ### Plain registers of space 4 -/

/-- A field of a register of space 4 that is plain storage. -/
def State.reg (s : State) (off n : Nat) : Nat := s.mmio.readN off n

/-- The derate in force on a layer, as TSENSl shows it (R379, R380). -/
def State.derate (s : State) (l : Nat) : Nat := bits (s.reg (0x0052_0000 + 8 * l) 8) 8 3

/-- Descriptor of context `c` (R283). -/
def ctxBase (c : Nat) : Nat := 0x0010_0000 + 0x400 * c
def State.ctxState (s : State) (c : Nat) : Nat := s.reg (ctxBase c) 8 % 4
def State.ctxAsid (s : State) (c : Nat) : Nat := s.reg (ctxBase c + 8) 2

/-- The context of a core's resident task. -/
def Core.ctx (c : Core) : Nat := (c.task.map (·.ctx)).getD 0
/-- The launch header's local size (R104). -/
def Core.localSize (c : Core) : Nat := (c.task.map (·.hdr.localSize)).getD 16384

/-- R329: the port mask for a package; zero is no route. -/
def State.route (s : State) (pkg : Nat) : Nat := s.reg (0x0042_0000 + 2 * pkg) 2

/-- R220: first byte of the well area of a slice (2*router+slice). -/
def State.wellArea (s : State) (rs : Nat) : Nat := 2 ^ 20 - (s.reg (0x0053_0000 + 8 * rs) 8 % 32) * 65536

/-! ### Step 1: spaces (R104, R218) -/

/-- What an address names. -/
inductive Space where
  | virt (va : Nat)
  | vault (off : Nat)
  | loc (off : Nat)
  | mirror (off : Nat)
  | mmio (off : Nat)
  | global (pkg va : Nat)
  | bad
  deriving DecidableEq, Repr

/-- R218's table, without the well area. -/
def State.spaceOf (s : State) (a : Nat) : Space :=
  if bits a 63 1 = 1 then
    if s.route (bits a 53 10) = 0 then .bad else .global (bits a 53 10) (bits a 0 53)
  else match bits a 60 3 with
    | 0 => if bits a 53 7 = 0 then .virt (bits a 0 53) else .bad
    | 1 =>
      let r := bits a 21 9
      if bits a 30 30 = 0 && decide (r < numRouters)
          && (s.layer (layerOfRouter r)).state != .retired then .vault (bits a 0 30) else .bad
    | 2 => if bits a 14 46 = 0 then .loc (bits a 0 14) else .bad
    | 3 => if bits a 22 38 = 0 then .mirror (bits a 0 22) else .bad
    | 4 => if bits a 32 28 = 0 then .mmio (bits a 0 32) else .bad
    | _ => .bad

/-- A set of spaces, as each entry allows them. -/
inductive Allow where
  | all | noMirrorMmio | noLocMmio | onlyLoc | noGlobal | mem | mem0123 | mem012 | mem01
  deriving DecidableEq, Repr

def Allow.ok : Allow → Space → Bool
  | _, .bad => false
  | .all, _ => true
  | .noMirrorMmio, .mirror _ => false
  | .noMirrorMmio, .mmio _ => false
  | .noMirrorMmio, _ => true
  | .noLocMmio, .loc _ => false
  | .noLocMmio, .mmio _ => false
  | .noLocMmio, _ => true
  | .onlyLoc, .loc _ => true
  | .onlyLoc, _ => false
  | .noGlobal, .global _ _ => false
  | .noGlobal, _ => true
  | .mem, .mmio _ => false
  | .mem, _ => true
  | .mem0123, .mmio _ => false
  | .mem0123, .global _ _ => false
  | .mem0123, _ => true
  | .mem012, .virt _ => true
  | .mem012, .vault _ => true
  | .mem012, .loc _ => true
  | .mem012, _ => false
  | .mem01, .virt _ => true
  | .mem01, .vault _ => true
  | .mem01, _ => false

/-- R218, R219: the first byte, of `n` from offset `o` of a slice on, that lies in no vault of the package
or in a slice's well area; `passed` bytes stand before. -/
def State.vaultEnd (s : State) : Nat → Nat → Nat → Nat → Nat → Option Nat
  | 0, _, _, _, _ => none
  | fuel + 1, slice, o, n, passed =>
    if 768 ≤ slice || (s.layer (layerOfRouter (slice / 2))).state == .retired then some passed
    else
      let w := s.wellArea slice
      if w ≤ o then some passed
      else if o + n ≤ w then none
      else if w < 2 ^ 20 then some (passed + (w - o))
      else s.vaultEnd fuel (slice + 1) 0 (n - (2 ^ 20 - o)) (passed + (2 ^ 20 - o))

/-- The first byte of the access that lies outside its space: R104 step 1 for an access whose first
byte is inside. Only local memory and the vaults' well areas can end inside an access. -/
def State.spaceEnd (s : State) (sp : Space) (n : Nat) : Option Nat :=
  match sp with
  | .loc off => if off + n ≤ 16384 then none else some (16384 - off)
  | .vault off => s.vaultEnd (n / 2 ^ 20 + 2) (off / 2 ^ 20) (off % 2 ^ 20) n 0
  | .mirror off => if off + n ≤ 2 ^ 22 then none else some (2 ^ 22 - off)
  | .mmio off => if off + n ≤ 2 ^ 32 then none else some (2 ^ 32 - off)
  | .virt va => if va + n ≤ 2 ^ 53 then none else some (2 ^ 53 - va)
  | _ => none

/-! ### Step 3: protection (R50, R222) -/

/-- The fields of a PROTn word. -/
def protV (w : Word) : Bool := w.getLsbD 63
def protSp (w : Word) : Nat := bits w.toNat 60 3
def protLim (w : Word) : Nat := bits w.toNat 28 26
def protBase (w : Word) : Nat := bits w.toNat 2 26
/-- Does the region grant the kind? -/
def protGrants (w : Word) : Kind → Bool
  | .load => w.getLsbD 59
  | .fetch => w.getLsbD 59
  | .store => w.getLsbD 58
  | .atomic => w.getLsbD 57

/-- A valid region of the space that grants the kind and covers the byte at the offset. -/
def protCovers (w : Word) (sp : Nat) (k : Kind) (off : Nat) : Bool :=
  protV w && protSp w == sp && protGrants w k && decide (64 * protBase w ≤ off)
    && decide (off ≤ 64 * protLim w + 63)

/-- How many bytes from `off` on, at most `n`, some single region covers (R104, PROT). -/
def Core.protReach (c : Core) (sp : Nat) (k : Kind) (off n : Nat) : Nat :=
  c.prot.toList.foldl (fun r w =>
    if protCovers w sp k off then Nat.max r (Nat.min n (64 * protLim w + 64 - off)) else r) 0

/-- First byte, counted from the start, that the protection unit denies. -/
def Core.protFail (c : Core) (sp : Space) (k : Kind) (n : Nat) : Option Nat :=
  let f (num off lim : Nat) : Option Nat :=
    let r := Nat.min (c.protReach num k off n) lim
    if r < n then some r else none
  match sp with
  | .vault off => f 1 off n
  | .loc off => f 2 off (c.localSize - off)
  | .mirror off => f 3 off n
  | .mmio off => if c.p then f 4 off n else some 0
  | _ => none

/-! ### Step 4: translation (R306-R316) -/

/-- Entry 128-bit fields (R309). -/
def pteV (e : Nat) : Bool := bits e 127 1 == 1
def ptePerms (e : Nat) : BitVec 5 := BitVec.ofNat 5 (bits e 122 5)
def pteG (e : Nat) : Bool := bits e 122 1 == 1
def pteMig (e : Nat) : Bool := bits e 121 1 == 1
def pteD (e : Nat) : Bool := bits e 119 1 == 1
def pteAsid (e : Nat) : Nat := bits e 96 16
def pteVpn (e : Nat) : Nat := bits e 64 32
def pteNext (e : Nat) : Nat := bits e 44 20
def ptePins (e : Nat) : Nat := bits e 16 16

/-- Frames of a table (R307). -/
def framesOf (t : Nat) : Nat := if t < 8 then 32768 else if t < 12 then 1048576 else 0

/-- R307: the physical address of a frame. -/
def frameBase (t f : Nat) : Nat :=
  if t < 8 then t * 2 ^ 36 + f * 2 ^ 21 else 2 ^ 40 + (t - 8) * 2 ^ 41 + f * 2 ^ 21

/-- R308: where a table's entries and anchors lie; stacks in space 4, ports in HBM. -/
def State.tablePresent (s : State) (t : Nat) : Bool :=
  decide (t < 8) || s.reg (0x0008_0000 + 8 * (t - 8)) 8 != 0
def State.pte (s : State) (t f : Nat) : Nat :=
  if t < 8 then s.mmio.readN (0x0100_0000 + 0x8_0000 * t + 16 * f) 16
  else s.hbm.readN (s.reg (0x0008_0000 + 8 * (t - 8)) 8 + 16 * f) 16
def State.setPte (s : State) (t f e : Nat) : State :=
  if t < 8 then { s with mmio := s.mmio.writeN (0x0100_0000 + 0x8_0000 * t + 16 * f) 16 e }
  else { s with hbm := s.hbm.writeN (s.reg (0x0008_0000 + 8 * (t - 8)) 8 + 16 * f) 16 e }
def State.anchor (s : State) (t i : Nat) : Nat :=
  if t < 8 then s.mmio.readN (0x0140_0000 + 0x4_0000 * t + 4 * i) 4
  else s.hbm.readN (s.reg (0x0008_0020 + 8 * (t - 8)) 8 + 4 * i) 4
def State.setAnchor (s : State) (t i v : Nat) : State :=
  if t < 8 then { s with mmio := s.mmio.writeN (0x0140_0000 + 0x4_0000 * t + 4 * i) 4 v }
  else { s with hbm := s.hbm.writeN (s.reg (0x0008_0020 + 8 * (t - 8)) 8 + 4 * i) 4 v }

/-- R310: the hash of a walk. -/
def walkHash (asid vpn : Nat) : Nat :=
  Nat.xor (Nat.xor vpn (asid * 2 ^ 11)) (vpn / 2 ^ 21) % 2 ^ 32

/-- A walk's answer (R310). -/
inductive WalkRes where
  | notResident
  | hit (t f : Nat)
  | malformed
  deriving DecidableEq, Repr

/-- The chain of one table: its hits, or none when it is malformed (R310). `fuel` is what is left of
the 64 entries a chain may have. -/
def State.walkChain (s : State) (asid vpn t : Nat) : Nat → Nat → Option (List (Nat × Nat))
  | 0, _ => none
  | fuel + 1, f =>
    if framesOf t ≤ f then none
    else
      let e := s.pte t f
      let here := if pteV e && pteAsid e == asid && pteVpn e == vpn then [(t, f)] else []
      if pteNext e = 0xFFFFF then some here
      else (s.walkChain asid vpn t fuel (pteNext e)).map (here ++ ·)

def State.walkTable (s : State) (asid vpn t : Nat) : Option (List (Nat × Nat)) :=
  if s.tablePresent t then
    let n := s.anchor t (walkHash asid vpn % (2 * framesOf t))
    if bits n 31 1 = 1 then s.walkChain asid vpn t 64 (bits n 0 20) else some []
  else some []

/-- R310, the tables alone. -/
def State.walkTables (s : State) (asid vpn : Nat) : WalkRes :=
  let rs := (List.range 12).map (s.walkTable asid vpn)
  if rs.any (·.isNone) then .malformed
  else match (rs.filterMap id).flatten with
    | [] => .notResident
    | [(t, f)] => .hit t f
    | _ => .malformed

/-- R375: the frame is admitted to an enclave, and no context of that enclave has the ASID. -/
def State.trespass (s : State) (asid t f : Nat) : Bool :=
  s.frames.any fun e => e.2 == t * 2 ^ 20 + f
    && !(s.encCtxs.any fun c => c.2 == e.1 && s.ctxAsid c.1 == asid)

/-- R310, R375. -/
def State.walk (s : State) (asid vpn : Nat) : WalkRes :=
  match s.walkTables asid vpn with
  | .hit t f => if s.trespass asid t f then .malformed else .hit t f
  | r => r

/-- The cached translation of a unit (R314). -/
def State.tlbFind (s : State) (unit asid vpn : Nat) : Option Tlb :=
  s.tlb.find? fun e => e.unit == unit && e.asid == asid && e.vpn == vpn

/-- Does a page grant the kind? -/
def permsGrant (p : BitVec 5) : Kind → Bool
  | .load => p.getLsbD 4
  | .store => p.getLsbD 3
  | .atomic => p.getLsbD 2
  | .fetch => p.getLsbD 1

/-- One page's answer at a router's cache. -/
inductive PageRes where
  | hit (pa : Nat)
  | denied
  | miss
  deriving DecidableEq, Repr

/-- R314, R316, R322: a store through an entry whose D is clear, and a store or atomic through one
that carries MIG, go to the walker. -/
def State.page (s : State) (unit asid vpn : Nat) (k : Kind) : PageRes :=
  match s.tlbFind unit asid vpn with
  | none => .miss
  | some e =>
    if !permsGrant e.perms k then .denied
    else if (k == .store || k == .atomic) && (!e.dirty || e.mig) then .miss
    else .hit e.pa

/-! ### Step 5: range locks (R126) -/

/-- Overlap of [a, a+n) with [b, b+m): the first common address. -/
def firstCommon (a n b m : Nat) : Option Nat :=
  let lo := Nat.max a b
  if lo < Nat.min (a + n) (b + m) then some lo else none

/-- The lock an entry holds against a kind of access: loads meet write locks only. -/
def LockEntry.hit (e : LockEntry) (k : Kind) (a n : Nat) : Option Nat :=
  let w := if e.kind == .copy then firstCommon a n e.dst.toNat e.len else none
  let r := if k == .load || k == .fetch then none else firstCommon a n e.src.toNat e.len
  match w, r with
  | none, x => x
  | x, none => x
  | some x, some y => some (Nat.min x y)

/-- The first locked byte and its entry. -/
def Core.lockHit (c : Core) (k : Kind) (a n : Nat) : Option (Nat × Fin 16) :=
  (List.finRange 16).foldl (fun r i =>
    match (c.locks[i]).bind (·.hit k a n) with
    | none => r
    | some b => match r with
      | none => some (b, i)
      | some (b', j) => if b < b' then some (b, i) else some (b', j)) none

/-! ### Step 6: poison (R104, R356) -/

/-- The 16-byte part that holds a byte of a home. -/
def Home.part : Home → Option Place
  | .vault off => some (.vault (off / 16 * 16))
  | .hbm pa => some (.hbm (pa / 16 * 16))
  | .loc c off => some (.localMem c (off / 16 * 16))
  | .mirror off => some (.mirror (off / 16 * 16))
  | .mmio off => some (.table (off / 16 * 16))
  | .global _ _ => none

/-- The home of the byte `i` further on. -/
def Home.plus : Home → Nat → Home
  | .vault off, i => .vault (off + i)
  | .hbm pa, i => .hbm (pa + i)
  | .loc c off, i => .loc c (off + i)
  | .mirror off, i => .mirror (off + i)
  | .mmio off, i => .mmio (off + i)
  | .global p va, i => .global p (va + i)

/-- How far `b` lies behind `a`, when both are in one memory and `b` is not before `a`. -/
def Home.dist : Home → Home → Option Nat
  | .vault a, .vault b => if a ≤ b then some (b - a) else none
  | .hbm a, .hbm b => if a ≤ b then some (b - a) else none
  | .loc c a, .loc d b => if c = d && a ≤ b then some (b - a) else none
  | .mirror a, .mirror b => if a ≤ b then some (b - a) else none
  | .mmio a, .mmio b => if a ≤ b then some (b - a) else none
  | .global p a, .global q b => if p = q && a ≤ b then some (b - a) else none
  | _, _ => none

/-- The newest buffered store's byte for a home; loads from space 3 never forward (R112, R231). -/
def forwarded (sb : List SbEntry) (h : Home) : Option Byte :=
  match h with
  | .mirror _ => none
  | .mmio _ => none
  | _ => sb.foldl (fun r e => match e.home.dist h with
      | some i => match e.bytes[i]? with
        | some b => some b
        | none => r
      | none => r) none

/-- The current core's own stores that have not been performed, oldest first. A load takes their bytes
(R112, R230). -/
def State.ownStores (s : State) : List SbEntry :=
  (s.flying.filter (·.core == s.core.num)).map (·.entry) ++ s.core.sb

/-- The state window that an offset of space 4 lies in: core and offset (R364). -/
def windowAt (off : Nat) : Option (Nat × Nat) :=
  if 0x2000_0000 ≤ off && off < 0xE000_0000 then
    some ((off - 0x2000_0000) / 0x8_0000, (off - 0x2000_0000) % 0x8_0000)
  else none

/-- R364, R375: a core's state window shows its state while it is frozen, and the context of its task, or of
its ligature's, is bound to no enclave. -/
def State.windowOpen (s : State) (n : Nat) : Bool :=
  let c := s.getCore n
  let home := s.getCore (c.memberOf.getD n)
  c.frozen && !(home.task.isSome && s.encCtxs.any (·.1 == home.ctx))

/-- What a byte of a core's state window shows, as a place that can be poisoned: a part of local memory or of
the weight share, or a register. -/
def windowPlace (n o : Nat) : Option Place :=
  if 0x1_0000 ≤ o && o < 0x1_4000 then some (.localMem n ((o - 0x1_0000) / 16 * 16))
  else if isPart o then some (.reg n (o / 16 * 16))
  else (layout.find? fun f => decide (f.off ≤ o) && decide (o < f.off + f.n)).map fun f => .reg n f.off

/-- Does a byte of a home come from a poisoned part? A reader on layer l reads its layer's own copy of the
mirrored region, and one in the base die (12) the base die's; one of a state window reads what it shows. -/
def State.poisonedAt (s : State) (l : Nat) (h : Home) : Bool :=
  (match h.part with
   | some p => s.poison.contains p
   | none => false)
  || (match h with
   | .mirror off => s.poison.contains (.mirrorCopy l (off / 16 * 16))
   | .mmio off => (match windowAt off with
     | some (n, o) => s.windowOpen n && ((windowPlace n o).map s.poison.contains).getD false
     | none => false)
   | _ => false)

/-- The first byte of a run of `n` bytes that a load reads from a poisoned part. -/
def State.poisonHit (s : State) (sb : List SbEntry) (h : Home) (n : Nat) : Option Nat :=
  if s.poison.isEmpty then none
  else (List.range n).find? fun i =>
    s.poisonedAt (layerOf s.core.num) (h.plus i) && (forwarded sb (h.plus i)).isNone

/-! ### The checks together (R104) -/

/-- The outcome of the checks: the homes of the access, in order, each with its length; or what
stands in its way. -/
inductive Check where
  | ok (segs : List (Home × Nat))
  | trap (c : Cause) (tval : Word)
  | lock (e : Fin 16) (tval : Word)
  /-- no cached translation: the page's miss goes to a walker -/
  | miss (vpn va : Nat)
  deriving DecidableEq, Repr

/-- The pages of a virtual range: page number and bytes. -/
def pagesOf : Nat → Nat → Nat → List (Nat × Nat × Nat)
  | 0, _, _ => []
  | fuel + 1, va, n =>
    if n = 0 then []
    else
      let here := Nat.min n (2 ^ 21 - va % 2 ^ 21)
      (va / 2 ^ 21, va % 2 ^ 21, here) :: pagesOf fuel (va + here) (n - here)

/-- Step 4 over a range: its segments, or the first page that stands in the way. -/
def State.translate (s : State) (unit asid : Nat) (k : Kind) (a : Word) (va n : Nat) : Check :=
  (pagesOf (n / 2 ^ 21 + 2) va n).foldl (fun r p => match r with
    | .ok segs => match s.page unit asid p.1 k with
      | .hit pa => .ok (segs ++ [(.hbm (pa + p.2.1), p.2.2)])
      | .denied => .trap .prot (a + BitVec.ofNat 64 (p.1 * 2 ^ 21 + p.2.1 - va))
      | .miss => .miss p.1 (p.1 * 2 ^ 21 + p.2.1)
    | x => x) (.ok [])

/-- Which checks an access takes beside the common ones. -/
structure Access where
  kind : Kind := .load
  allow : Allow := .all
  /-- required alignment, 1 for none -/
  align : Nat := 1
  /-- are the range locks and the data's poison checked? -/
  locks : Bool := true
  data : Bool := true
  deriving DecidableEq, Repr

/-- R104: the checks of one access of `n` bytes at `a` by the current core, in their order. -/
def State.check (s : State) (acc : Access) (a : Word) (n : Nat) : Check :=
  let sp := s.spaceOf a.toNat
  if n = 0 then .ok []
  else if !acc.allow.ok sp then .trap .addr a
  else match s.spaceEnd sp n with
  | some i => .trap .addr (a + BitVec.ofNat 64 i)
  | none =>
    if a.toNat % acc.align ≠ 0 then .trap .align a
    else match s.core.protFail sp acc.kind n with
    | some i => .trap .prot (a + BitVec.ofNat 64 i)
    | none =>
      let r : Check := match sp with
        | .virt va => s.translate (routerOf s.core.num) (s.ctxAsid s.core.ctx) acc.kind a va n
        | .vault off => .ok [(.vault off, n)]
        | .loc off => .ok [(.loc s.core.num off, n)]
        | .mirror off => .ok [(.mirror off, n)]
        | .mmio off => .ok [(.mmio off, n)]
        | .global p va => .ok [(.global p va, n)]
        | .bad => .trap .addr a
      match r with
      | .ok segs =>
        match (if acc.locks then s.core.lockHit acc.kind a.toNat n else none) with
        | some (b, e) => .lock e (BitVec.ofNat 64 b)
        | none =>
          if acc.data && (acc.kind == .load || acc.kind == .fetch) then
            match (segs.foldl (fun (r : Nat × Option Nat) g =>
                (r.1 + g.2, match r.2 with
                  | some x => some x
                  | none => (s.poisonHit s.ownStores g.1 g.2).map (· + r.1))) (0, none)).2 with
            | some i => .trap .poison (a + BitVec.ofNat 64 i)
            | none => .ok segs
          else .ok segs
      | x => x

/-! ### Reading and writing at the home -/

/-- The enclave that a context is bound to. -/
def State.enclaveOf (s : State) (ctx : Nat) : Option Enclave :=
  (s.encCtxs.find? (·.1 == ctx)).bind fun b => s.enclaves.find? (·.id == b.2)
/-- R376: a package of a revoked participant of an enclave. -/
def Enclave.hasRevoked (e : Enclave) (p : Nat) : Bool :=
  e.members.any fun m => m.1 == p && e.revoked.contains m.2
/-- R362 (violation 6), R376: an enclave of a context has revoked this package's own participant: no master
of the context runs again, and none takes up its work anew. -/
def State.ctxRevoked (s : State) (ctx : Nat) : Bool :=
  ((s.enclaveOf ctx).map fun e => e.hasRevoked s.pkg).getD false

/-- R302, R364: a byte of the state window; the count of overflow flits at 0x1110 is the package's to
know. -/
def State.windowByte (s : State) (n o : Nat) : Byte :=
  let c := s.getCore n
  if 0x1110 ≤ o && o < 0x1118 then
    let k := (s.overflow.filter fun f => f.core == n && some f.entry.task == c.task.map (·.id)).length
    BitVec.ofNat 8 (k / 256 ^ (o - 0x1110))
  else c.windowByte o

/-- SPST (R370). -/
def State.spst (s : State) : Nat := s.sp.st + 256 * s.sp.reason

/-- A byte of space 4 as a read returns it (R384): plain registers stand in `mmio`, and write-only and
reserved ones read zero. A package in reset shows SPST alone (R382). -/
def State.mmioByte (s : State) (off : Nat) : Byte :=
  if 0x0060_0008 ≤ off && off < 0x0060_0010 then BitVec.ofNat 8 (s.spst / 256 ^ (off - 0x0060_0008))
  else if !s.released then 0
  else if 0x0008_0080 ≤ off && off < 0x0008_0088 then BitVec.ofNat 8 (s.migst / 256 ^ (off - 0x0008_0080))
  else if 0x0052_0000 ≤ off && off < 0x0052_0060 then
    match (s.layer ((off - 0x0052_0000) / 8)).state with
    | .asleep => 0
    | .retired => 0
    | _ => s.mmio.read off
  else if 0x0053_0000 ≤ off && off < 0x0053_1800 then
    if (s.layer (layerOfRouter ((off - 0x0053_0000) / 16))).state == .retired then 0 else s.mmio.read off
  else match windowAt off with
    | some (n, o) => if s.windowOpen n then s.windowByte n o else 0
    | none => s.mmio.read off

/-- The byte that the home of a place holds, for a load of a core on layer `l`. -/
def State.homeByte (s : State) (l : Nat) : Home → Byte
  | .vault off => s.vault.read off
  | .hbm pa => s.hbm.read pa
  | .loc c off => (s.getCore c).loc.read off
  | .mirror off => (s.layer l).mirror.read off
  | .mmio off => s.mmioByte off
  | .global _ _ => 0

/-- The byte a load of the current core gets (R112). -/
def State.loadByte (s : State) (h : Home) : Byte :=
  match forwarded s.ownStores h with
  | some b => b
  | none => s.homeByte (layerOf s.core.num) h

/-- The bytes of a run of homes. -/
def State.loadRun (s : State) (h : Home) (n : Nat) : List Byte :=
  (List.range n).map fun i => s.loadByte (h.plus i)

/-- All bytes of a checked access. -/
def State.loadSegs (s : State) (segs : List (Home × Nat)) : List Byte :=
  (segs.map fun g => s.loadRun g.1 g.2).flatten

/-- R384: the side effect of a load on a register of space 4: ERDROP clears (R360). -/
def State.loaded (s : State) (segs : List (Home × Nat)) : State :=
  if segs.any fun g => match g.1 with
      | .mmio off => (firstCommon off g.2 0x0050_0018 8).isSome
      | _ => false
  then { s with mmio := s.mmio.clear 0x0050_0018 8 } else s

/-- R356: a store that covers a whole poisoned part clears its poison. -/
def clearPoison (ps : List Place) (h : Home) (n : Nat) : List Place :=
  ps.filter fun p => match h, p with
    | .vault a, .vault b => !(decide (a ≤ b) && decide (b + 16 ≤ a + n))
    | .hbm a, .hbm b => !(decide (a ≤ b) && decide (b + 16 ≤ a + n))
    | .loc c a, .localMem d b => !(c == d && decide (a ≤ b) && decide (b + 16 ≤ a + n))
    | .mirror a, .mirror b => !(decide (a ≤ b) && decide (b + 16 ≤ a + n))
    | .mirror a, .mirrorCopy _ b => !(decide (a ≤ b) && decide (b + 16 ≤ a + n))
    | .mmio a, .table b => !(decide (a ≤ b) && decide (b + 16 ≤ a + n))
    | _, _ => true

/-- R119: a store to a watched 64-byte line. -/
def watchHit (h : Home) (n : Nat) : Option (Home × Bool) → Option (Home × Bool)
  | some (w, b) => some (w, b || (match w, h with
      | .vault x, .vault y => (firstCommon x 64 y n).isSome
      | .hbm x, .hbm y => (firstCommon x 64 y n).isSome
      | .mirror x, .mirror y => (firstCommon x 64 y n).isSome
      | .global p x, .global q y => p == q && (firstCommon x 64 y n).isSome
      | _, _ => false))
  | none => none

def Core.see (h : Home) (n : Nat) (c : Core) : Core := { c with watch := watchHit h n c.watch }

/-- Every watching task sees a store to its line, a saved one too. -/
def State.notice (s : State) (h : Home) (n : Nat) : State :=
  { s with core := s.core.see h n, others := s.others.map (Core.see h n)
           records := s.records.map fun r => { r with image := r.image.see h n } }

/-- Perform a store at its home: memory, local memory. Space 3, space 4 and other packages have
their own ways (R231, R384, R329). -/
def State.storeHome (s : State) (h : Home) (bs : List Byte) : State :=
  let s := if s.poison.isEmpty then s else { s with poison := clearPoison s.poison h bs.length }
  let s := s.notice h bs.length
  match h with
  | .vault off => { s with vault := s.vault.writeBytes off bs }
  | .hbm pa => { s with hbm := s.hbm.writeBytes pa bs }
  | .loc c off => s.modCore c fun k => { k with loc := k.loc.writeBytes off bs }
  | _ => s

end Sys2Proof.Machine
end

