-- ==== Sys2Proof/Machine/Ops.lean ====
section
/-! DEFINITION. The shared operations of the instructions: registers and their checks, taking a
trap and returning from one, regions, loads and stores. -/

namespace Sys2Proof.Machine

/-- What a meaning answers. -/
abbrev Out := Host.Outcome State Fault Refusal

/-! ### Error records (R360, R361) -/

/-- A record of R361. -/
structure ErrRec where
  code : Nat
  frozen : Bool := false
  poisoned : Bool := false
  ctx : Option Nat := none
  layer : Nat := 15
  master : Nat := 0
  cause : Nat := 0
  addr : Nat := 0
  detail : Nat := 0
  deriving DecidableEq, Repr

/-- The 64 bytes of a record. -/
def ErrRec.bytes (r : ErrRec) (cyc : Nat) : List Byte :=
  bytesOf 2 r.code
    ++ bytesOf 2 (r.poisoned.toNat + 2 * r.frozen.toNat + 4 * r.ctx.isSome.toNat)
    ++ bytesOf 1 (r.ctx.getD 0) ++ bytesOf 1 r.layer ++ bytesOf 2 0 ++ bytesOf 4 r.master
    ++ bytesOf 4 r.cause ++ bytesOf 8 r.addr ++ bytesOf 8 cyc ++ bytesOf 32 r.detail

/-- R360: write a record at ERT and advance it; with no ring, or a full one, count it as lost. -/
def State.postError (s : State) (r : ErrRec) : State :=
  let erb := s.reg 0x0050_0000 8
  let ert := s.reg 0x0050_0008 8 % 4096
  let erh := s.reg 0x0050_0010 8 % 4096
  if erb = 0 || (ert + 1) % 4096 = erh then
    { s with mmio := s.mmio.writeN 0x0050_0018 4 (Nat.min (2 ^ 32 - 1) (s.reg 0x0050_0018 4 + 1)) }
  else
    let u := s.storeHome (.hbm (erb + 64 * ert)) (r.bytes (Config.cycle s.tick).toNat)
    { u with mmio := s.mmio.writeN 0x0050_0008 8 ((ert + 1) % 4096)
             out := s.out ++ (if bits (s.reg 0x0050_0020 8) 16 1 = 1
               then [.msix 0 (s.reg 0x0050_0020 8 % 65536)] else []) }

/-- The master number of a core (R192). -/
def coreMaster (n : Nat) : Nat := n

/-! ### Registers -/

/-- A general register; x0 reads zero (R36). -/
def State.rx (s : State) (r : XReg) : Word := if r.val = 0 then 0 else s.core.x[r.val]

/-- R356: a write to a register clears its poison. -/
def State.unpoison (s : State) (cell : Nat) : State :=
  if s.poison.isEmpty then s
  else { s with poison := s.poison.filter (· != .reg s.core.num cell) }

/-- Write a general register; a write to x0 is discarded (R36). -/
def State.setX (s : State) (r : XReg) (v : Word) : State :=
  if r.val = 0 then s
  else ({ s with core := { s.core with x := s.core.x.set r.val v } }).unpoison (cellX r.val)

/-- The value of a class-X source: a 32-bit literal is sign-extended (R52). -/
def State.src (s : State) : XSrc → Word
  | .reg r => s.rx r
  | .lit32 v => v.signExtend 64
  | .lit64 v => v

end Sys2Proof.Machine

namespace Sys2Proof

/-- The register a source names, for R39. -/
def XSrc.regs : XSrc → List Nat
  | .reg r => [r.val]
  | _ => []
/-- The cell a source reads, for R356. -/
def XSrc.cells : XSrc → List Nat
  | .reg r => [Machine.cellX r.val]
  | _ => []

end Sys2Proof

namespace Sys2Proof.Machine

/-! ### Going on and waiting -/

/-- The instruction is done: on to the next one (R51). -/
def State.retire (s : State) : State :=
  { s with core := { s.core with pc := s.core.npc, completed := true, progress := .none } }

/-- The instruction cannot go on now; it keeps its core and is issued again (R197). -/
def State.stall (s : State) : State := { s with core := { s.core with stalled := true } }

/-! ### Regions (R110, R120, R235) -/

/-- One page's PINS, counted up or down (R320). -/
def State.addPin (s : State) (asid vpn : Nat) (up : Bool) : State :=
  match s.walk asid vpn with
  | .hit t f =>
    let e := s.pte t f
    let p := ptePins e
    let p' := if up then Nat.min 65535 (p + 1) else p - 1
    s.setPte t f (e - p * 2 ^ 16 + p' * 2 ^ 16)
  | _ => s

/-- Send a request: to this package's own interface, or out (R313, R329). -/
def State.sendRequest (s : State) (r : Request) : State :=
  if r.pkg = s.pkg then { s with requests := s.requests ++ [r] }
  else { s with out := s.out ++ [.request r] }

/-- Release one pin of the current core. -/
def State.unpin (s : State) (p : Nat × Nat × Nat) : State :=
  if p = noPin then s
  else if p.1 = 0 then s.addPin p.2.1 p.2.2 false
  else s.sendRequest { pkg := p.1 - 1, srcPkg := s.pkg, ctx := p.2.1, core := s.core.num
                       va := p.2.2 * 2 ^ 21, op := .unpin }

/-- R121: a region mark, DONE or a teardown releases the core's pins. -/
def State.releasePins (s : State) : State :=
  let ps := s.core.pins
  ps.foldl State.unpin { s with core := { s.core with pins := [] } }

/-- R110: the snapshot as the registers stand, for a region that begins at PC. -/
def Core.takeSnap (c : Core) : Snap :=
  { pc := c.pc, x := c.x, a := c.a, v := c.v, m := c.m, qs := c.qs, csrs := c.csrs
    pos := c.s.toList.map fun t => (t.map (·.pos)).getD 0
    latched := c.latched, popped := [], bounced := 0, link := c.link
    ss := c.ss, pp := c.pp, p := c.p, epc := c.epc, cause := c.cause, tval := c.tval
    suspended := c.frame.suspended }

/-- A new region begins at PC (R235). -/
def State.newRegion (s : State) : State :=
  let s := s.releasePins
  { s with core := { s.core with
      snap := s.core.takeSnap, sbOld := s.core.sb.length
      s := s.core.s.map fun t => t.map fun u => { u with back := [] }
      frame := { s.core.frame with here := false } } }

/-- The end of a non-idempotent operation: done, and a new region begins (R109). -/
def State.retireMark (s : State) : State := s.retire.newRegion

/-! ### Freezing (R362, R363) and halting (R188) -/

/-- Does an instruction that has asked a unit go on while its core is halted? A DISPATCH that has asked
for its slot completes (R300), and so does an RFREE that has taken its position. -/
def goesOn (op v : Nat) : Bool := (op == 0x77 && v == 1) || op == 0x3E

/-- R300, R363: a wait is abandoned and its instruction issued again later. A counted arrival stays
counted, and a command of the manager goes on. -/
def Core.abandon (c : Core) : Core :=
  { c with stalled := false, slotWait := none
           progress := match c.progress with
             | .asked v r => if goesOn (bits c.iw.toNat 25 7) v then .asked v r else .none
             | p => p }

/-- Is it the post of core n that has its grant? -/
def Term.grantedTo (n : Nat) (t : Term) : Bool :=
  t.src == .core n && (match t.phase with
    | .granted _ => true
    | _ => false)

/-- R275: a post past its grant is injected; one that waits for its grant is withdrawn. -/
def Term.settle (n : Nat) (t : Term) : Option Term :=
  if t.src = .core n then match t.phase with
    | .granted k => some { t with phase := .staging k }
    | .staging k => some { t with phase := .staging k }
    | _ => none
  else some t

/-- R50: the instruction at which the core has been halted or frozen is done; with SS set and P = 0 its BRK
stands at the next boundary. -/
def Core.doneHalted (c : Core) : Core := { c with brkDue := c.ss && !c.p }

/-- R275, R300: core n halts. A read leaves its well, and a post past its grant finishes: its RPOST is
done. -/
def State.leaveUnits (s : State) (n : Nat) : State :=
  let done := s.terms.any (Term.grantedTo n)
  let u := { s with
    reads := s.reads.filter (·.core != n)
    terms := s.terms.filterMap (Term.settle n)
    walks := s.walks.filter (·.core != n) }
  if done then (u.onCore n State.retireMark).modCore n Core.doneHalted else u

/-- R299: context c is being stopped: the command has been received, and its tasks are not all saved. -/
def State.saving (s : State) (c : Nat) : Bool :=
  s.held.contains c && s.ctxState c == 1 && !s.cmds.contains (.resume c)

/-- Freeze core `n`, or the whole ligature it belongs to, where it stands. While its context is being
stopped, its home core is frozen once its record is written (R305). -/
def State.freezeAt (s : State) (n : Nat) : State :=
  let home := s.getCore (((s.getCore n).memberOf).getD n)
  if home.task.isSome && home.tstate != .queued && s.saving home.ctx then
    s.modCore home.num fun c => { c with freezeDue := true }
  else (s.ligature n).foldl (fun s n => (s.leaveUnits n).modCore n fun c =>
    { c.abandon with frozen := true, tstate := if c.task.isSome then .frozen else c.tstate }) s
def State.freezeHere (s : State) : State := s.freezeAt s.core.num

/-- A freeze by violation `v` with a cause code for the record. -/
def State.violate (s : State) (v cause : Nat) (addr : Word) : State :=
  let home := (s.core.memberOf).getD s.core.num
  (s.freezeHere).postError
    { code := 0x10, frozen := true, ctx := s.core.task.map (·.ctx), layer := layerOf home
      master := coreMaster home, cause := cause, addr := addr.toNat, detail := v }

/-- R188: the descriptor's DBG word; a context bound to an enclave ignores it. -/
def State.dbgEn (s : State) (ctx : Nat) : Bool :=
  bits (s.reg (ctxBase ctx + 0x30) 8) 0 1 == 1 && !(s.encCtxs.any (·.1 == ctx))
def State.dbgCatch (s : State) (ctx cause : Nat) : Bool :=
  s.dbgEn ctx && bits (s.reg (ctxBase ctx + 0x30) 8) (32 + cause) 1 == 1

/-- R188: a debug halt; it works as a freeze and posts a record with code 0x15. -/
def State.debugHalt (s : State) (kind cause : Nat) (addr : Word) : State :=
  let n := s.core.num
  (s.freezeHere.modCore n fun c => { c with halted := true }).postError
    { code := 0x15, frozen := true, ctx := s.core.task.map (·.ctx), layer := layerOf n
      master := coreMaster n, cause := cause, addr := addr.toNat, detail := kind + 256 * cause }

/-! ### Taking a trap (R186) and returning from one (R189) -/

/-- The saved registers of a trap (R186 steps 1 and 2). -/
def Core.saveTrap (c : Core) (cause : Cause) (tval epc : Word) : Core :=
  { c with epc := word4 epc, cause := BitVec.ofNat 5 cause.code, tval := tval }

/-- R186: deliver a trap to the task of the current core: save EPC, CAUSE and TVAL, PP := P, P := 1,
suspend the frame, and go to the handler entry of the launch header. A frame fault that is still pending stays
so (DESIGN CHOICE, log entry 108). -/
def State.deliver (s : State) (cause : Cause) (tval epc : Word) : State :=
  { s with core := { s.core.saveTrap cause tval epc with
      pp := s.core.p, p := true, stalled := false, woken := false, progress := .none
      pc := ((s.core.task.map (·.hdr.handler)).getD 0)
      frame := { s.core.frame with suspended := s.core.frame.act } } }

/-- A trap of the current core with EPC as given: the debugger's halts (R188), the freezes of
violations 1 and 2 (R50, R276, R362), or the delivery (R186). -/
def State.takeTrapAt (s : State) (cause : Cause) (tval epc : Word) : State :=
  let ctx := s.core.ctx
  let entry := (s.core.task.map (·.hdr.handler)).getD 0
  if s.dbgEn ctx && cause == .brk then s.debugHalt 1 cause.code epc
  else if s.dbgCatch ctx cause.code then
    if s.core.p then s.debugHalt 2 cause.code epc
    else if entry == 0 then
      ({ s with core := s.core.saveTrap cause tval epc }).debugHalt 2 cause.code epc
    else (s.deliver cause tval epc).debugHalt 2 cause.code epc
  else if s.core.p then s.violate 1 cause.code epc
  else if entry == 0 then s.violate 2 cause.code epc
  else s.deliver cause tval epc

/-- A trap of the instruction at PC. -/
def State.takeTrap (s : State) (cause : Cause) (tval : Word) : State :=
  s.takeTrapAt cause tval s.core.pc

/-- The outcome of an instruction that traps. -/
def State.trap (s : State) (cause : Cause) (tval : Word) : Out := .next (s.takeTrap cause tval)

/-- ILL of the instruction at PC: TVAL is its word (R50). -/
def State.ill (s : State) : Out := s.trap .ill (s.core.iw.zeroExtend 64)

/-- R189: PC := EPC; P := PP; PP := 0; a suspended frame resumes. -/
def State.eret (s : State) : State :=
  { s with core := { s.core with
      pc := s.core.epc, p := s.core.pp, pp := false, completed := true, progress := .none
      frame := { s.core.frame with suspended := false } } }

/-! ### The register checks of every instruction (R39, R57, R356) -/

/-- The first of the cells that holds an uncorrectable error. -/
def State.poisonedCell (s : State) (cells : List Nat) : Option Nat :=
  if s.poison.isEmpty then none else cells.find? fun c => s.poison.contains (.reg s.core.num c)

/-- R39: the first field, in the order given, that names a register beyond RLIM.REQ. -/
def State.badReg (s : State) (fields : List Nat) : Option Nat :=
  fields.find? fun i => i != 0 && decide (s.core.rlim ≤ i)

/-- The registers that a remote load writes when its response is taken (R111, R116). -/
def SlotUse.regs : SlotUse → List Nat
  | .ld d .p _ => [d.val, d.val + 1]
  | .ld d _ _ => [d.val]
  | .ldHigh d _ => [d.val]
  | .amo d _ _ => [d.val]
  | .gld _ _ => []
  | .spinw _ _ => []

/-- The registers that the current core's outstanding remote loads have still to write (R352). -/
def State.awaited (s : State) : List Nat :=
  ((s.core.rorder.filterMap fun r => (s.getCore r.1).slots[r.2]).map (·.use.regs)).flatten

/-- Does a field name a register that an outstanding remote load has still to write? -/
def State.awaits (s : State) (fields : List Nat) : Bool :=
  !s.core.rorder.isEmpty && fields.any fun i => i != 0 && s.awaited.contains i

/-- A frame of this core is replaying: its passes stand before any later VMU instruction, and
before whatever reads or writes VMU state (R61). -/
def State.vmuBusy (s : State) : Bool := s.core.frame.act && !s.core.frame.suspended

/-- Go on when no frame's passes stand before this instruction. -/
def State.vmu (s : State) (k : Out) : Out := if s.vmuBusy then .next s.stall else k

/-! ### Sharing the VMU (R203) -/

def State.vmuOf (s : State) (q : Nat) : Vmu := (s.vmus.find? (·.quad == q)).getD { quad := q }
def State.setVmu (s : State) (v : Vmu) : State :=
  { s with vmus := if v == { quad := v.quad } then s.vmus.filter (·.quad != v.quad)
                   else v :: s.vmus.filter (·.quad != v.quad) }

/-- Does the next body instruction of a core's frame need the array? -/
def Core.needsArray (c : Core) : Bool :=
  match decodeV (c.frame.body.getD c.frame.idx 0).toNat with
  | .ok (.mma _ _ _ _ _ _) => true
  | .ok (.mmaw _ _ _ _ _ _) => true
  | _ => false

/-- Can the frame of a core take a step? -/
def State.frameReady (s : State) (c : Core) : Bool :=
  c.frame.act && !c.frame.suspended && c.frame.fault.isNone && !c.frozen && c.task.isSome
    && !s.held.contains c.ctx

/-- The ordinary VMU instruction that waits at the head of a core's queue. -/
def State.vmuHead (s : State) (c : Core) : Option VmuWait :=
  match c.vmuWait with
  | some w =>
    if w.pc == c.pc && c.task.isSome && c.tstate == .running && !c.frozen && !s.held.contains c.ctx
    then some w else none
  | none => none

/-- The heads of a quad that wait for the array, or for a lane group, each with the step since which it
waits. -/
def State.heads (s : State) (v : Vmu) (array : Bool) : List (Nat × Nat) :=
  (List.range 4).filterMap fun i =>
    let c := s.getCore (4 * v.quad + i)
    if s.frameReady c then
      if c.needsArray == array && v.array != some i && !v.groups.contains i then some (i, c.frame.since)
      else none
    else match s.vmuHead c with
    | some w => if w.array == array && !w.granted then some (i, w.since) else none
    | none => none

/-- Round robin: the first waiting core after the one last granted. -/
def roundRobin (last : Nat) (ws : List Nat) : Option Nat :=
  ((List.range 4).map fun i => (last + 1 + i) % 4).find? ws.contains

/-- Smooth weighted round robin: the winner, and the credits after the grant. -/
def smoothGrant (weight : Nat → Int) (credits : Vector Int 4) (ws : List Nat) :
    Option (Nat × Vector Int 4) :=
  let cr : Vector Int 4 := Vector.ofFn fun i =>
    if ws.contains i.val then credits[i] + weight i.val else credits[i]
  let best := ws.foldl (fun (b : Option Nat) i => match b with
    | none => some i
    | some j => if cr.toList.getD j 0 < cr.toList.getD i 0 then some i else some j) none
  best.map fun w => (w, Vector.ofFn fun i =>
    if i.val = w then cr[i] - (ws.map weight).sum else cr[i])

/-- Of several heads, the oldest that has waited for 128 cycles. -/
def State.urgent (s : State) (ws : List (Nat × Nat)) : Option Nat :=
  if ws.length < 2 then none
  else
    let late := ws.filter fun w =>
      decide ((Config.cycle w.2).toNat + 128 ≤ (Config.cycle s.tick).toNat)
    (late.foldl (fun (b : Option (Nat × Nat)) w => match b with
      | none => some w
      | some x => if w.2 < x.2 then some w else some x) none).map (·.1)

/-- R203: the waiting head that a free resource of the kind goes to, and the arbiter after it: the array
by round robin; a lane group to the oldest urgent head, else by weighted round robin over QWGT.W. -/
def State.arbiter (s : State) (v : Vmu) (array : Bool) (ws : List (Nat × Nat)) : Option (Nat × Vmu) :=
  if array then
    if v.array.isSome then none
    else (roundRobin v.last (ws.map (·.1))).map fun c => (c, { v with last := c })
  else if 4 ≤ v.groups.length then none
  else match s.urgent ws with
    | some c => some (c, v)
    | none =>
      (smoothGrant (fun i => ((s.getCore (4 * v.quad + i)).csrs.qwgt.toNat : Int)) v.credits
        (ws.map (·.1))).map fun r => (r.1, { v with credits := r.2 })

/-- The core holds the resource. -/
def Vmu.give (v : Vmu) (array : Bool) (c : Nat) : Vmu :=
  if array then { v with array := some c } else { v with groups := v.groups ++ [c] }
/-- It is free again. -/
def Vmu.back (v : Vmu) (array : Bool) (c : Nat) : Vmu :=
  if array then { v with array := none } else { v with groups := v.groups.erase c }
def Vmu.holds (v : Vmu) (array : Bool) (c : Nat) : Bool :=
  if array then v.array == some c else v.groups.contains c
/-- The queue of a core is empty: it loses its credit. -/
def Vmu.forget (v : Vmu) (c : Nat) : Vmu :=
  { v with credits := Vector.ofFn fun i => if i.val = c then 0 else v.credits[i] }

/-- The VMU instruction at PC has its resource: granted before, or now as the arbiter's choice among the
heads that wait. The model carries it out in one step, so the resource is free behind it, and with no
frame its queue is empty. -/
def State.vmuTake (s : State) (array : Bool) : Option State :=
  if s.vmuBusy then none
  else
    let i := s.core.num % 4
    let v := s.vmuOf (s.core.num / 4)
    let used (v : Vmu) : State :=
      let t := s.setVmu (if s.core.frame.act then v else v.forget i)
      { t with core := { t.core with vmuWait := none } }
    if ((s.vmuHead s.core).map fun w => w.granted && w.array == array && v.holds array i).getD false then
      some (used (v.back array i))
    else
      let hs := s.heads v array
      let mine := ((s.vmuHead s.core).map (·.since)).getD s.tick
      let ws := (List.range 4).filterMap fun k => if k = i then some (k, mine) else hs.find? (·.1 == k)
      match s.arbiter v array ws with
      | some (c, v) => if c = i then some (used v) else none
      | none => none

/-- The VMU instruction at PC waits at the head of its queue. -/
def State.vmuAwait (s : State) (array : Bool) : State :=
  { s.stall with core := { s.stall.core with
      vmuWait := match s.vmuHead s.core with
        | some w => some { w with array := array }
        | none => some { array := array, since := s.tick, pc := s.core.pc } } }

/-- R61, R203: a VMU instruction goes on behind the core's frame, once it has its resource. -/
def State.vmuUse (s : State) (array : Bool) (k : State → Out) : Out :=
  match s.vmuTake array with
  | some u => k u
  | none => .next (if s.vmuBusy then s.stall else s.vmuAwait array)

/-- REGIDX over the fields in the order of R39; then the instruction waits for the remote loads that
write a register it names (R352); then POISON over the registers read, then `k`. The VMU's registers
(cells from 0x1_4000 on) are read after the passes of a replaying frame. -/
def State.guard (s : State) (fields cells : List Nat) (k : Out) : Out :=
  match s.badReg fields with
  | some i => s.trap .regidx (BitVec.ofNat 64 i)
  | none =>
    if s.awaits fields then .next s.stall
    else match s.poisonedCell (if s.vmuBusy then cells.filter (fun c => decide (c < 0x1_4000)) else cells) with
    | some c => s.trap .poison (cellAddr s.core.num c)
    | none => k

/-- PRIV comes before REGIDX (R57, R64). -/
def State.privileged (s : State) (k : Out) : Out := if s.core.p then k else s.trap .priv 0

/-! ### Restarting a region (R110) -/

/-- A stream back at a position (R110). -/
def Stream.rewind (t : Stream) (pos : Nat) : Stream :=
  { t with pos := pos, buf := t.back ++ t.buf, back := [], skipped := 0 }

/-- The elements of a SKIP that did not complete are back in their place (R102). -/
def Stream.unskip (t : Stream) : Stream :=
  { t with buf := t.back.drop (t.back.length - t.skipped) ++ t.buf
           back := t.back.take (t.back.length - t.skipped), skipped := 0 }

/-- R110: the registers as at the start of the region. The flits popped in the region return to the
head of the inbox in their order. A stream that the region has bound anew keeps its new binding, at the
position that the old one had (DESIGN CHOICE, log entry 84). -/
def Core.restore (c : Core) : Core :=
  let gone := c.snap.popped ++ c.latched.toList
  let back := match c.snap.latched with
    | some _ => gone.drop 1
    | none => gone
  let id := (c.task.map (·.id)).getD 0
  { c with
    x := c.snap.x, a := c.snap.a, v := c.snap.v, m := c.snap.m, qs := c.snap.qs
    csrs := c.snap.csrs, pc := c.snap.pc
    s := Vector.ofFn fun i => (c.s[i]).map fun t => t.rewind (c.snap.pos.getD i.val 0)
    latched := c.snap.latched
    inbox := back.map (fun f => { task := id, flit := f }) ++ c.inbox
    snap := { c.snap with popped := [], bounced := 0 }
    bounces := c.bounces + c.snap.bounced, link := c.snap.link
    ss := c.snap.ss, pp := c.snap.pp, p := c.snap.p
    epc := c.snap.epc, cause := c.snap.cause, tval := c.snap.tval
    sb := c.sb.take c.sbOld
    frame := if c.frame.here || c.frame.cap then {}
      else { c.frame with suspended := c.frame.act && c.snap.suspended }
    progress := .none, stalled := false, woken := false, completed := false, brkDue := false, gaveUp := 0
    restartDue := none, slotWait := none }

/-- R352: the current core's remote loads that are not yet written are aborted: a slot whose response
has arrived is free, and the others are freed when it does. -/
def State.abortSlots (s : State) : State :=
  let s := s.core.rorder.foldl (fun s r => s.modCore r.1 fun c => { c with
    slots := c.slots.set r.2.val (match c.slots[r.2] with
      | some k => if k.resp.isSome then none else some { k with dead := true }
      | none => none) }) s
  { s with core := { s.core with rorder := [], rwait := false } }

/-- R110: the region is over and its task waits, to run it again. What its instruction has asked of a
unit is withdrawn (R275). -/
def State.restartFor (s : State) (w : Wait) : State :=
  let s := (s.leaveUnits s.core.num).abortSlots
  { s with core := { s.core.restore with tstate := .parked, wait := w } }

/-- R317: an XLAT restarts the region; the task parks in a translation wait. -/
def State.restart (s : State) (va kind : Nat) : State :=
  s.restartFor (.translation (va / 2 ^ 21 * 2 ^ 21) kind)

/-- A miss goes to the walker; the access waits and keeps its core (R315). -/
def State.askWalk (s : State) (k : Kind) (vpn va : Nat) : State :=
  let w : Walk := { core := s.core.num, asid := s.ctxAsid s.core.ctx, vpn := vpn, kind := k, va := va }
  { s.stall with walks := if s.walks.any (fun x => x.core == w.core) then s.walks else s.walks ++ [w] }

/-! ### Loads and stores -/

/-- Does a buffered or travelling store of the core to the same bytes of space 3 stand before this
load (R231)? -/
def MirrorStore.meets (m : MirrorStore) (off n : Nat) : Bool :=
  (firstCommon m.off m.bytes.length off n).isSome

def SbEntry.meets (e : SbEntry) (h : Home) (n : Nat) : Bool :=
  match e.home, h with
  | .mirror a, .mirror b => (firstCommon a e.bytes.length b n).isSome
  | .mmio _, .mmio _ => true
  | _, _ => false

/-- Is it memory that space 0 leads to? -/
def Home.paged : Home → Bool
  | .hbm _ => true
  | _ => false

/-- R230: a store of core c to this package's memory by its own global name has still to be performed. -/
def State.aliasOut (s : State) (c : Core) : Bool :=
  c.remoteStores.any (·.1 == s.pkg) || c.sb.any fun e => match e.home with
    | .global p _ => p == s.pkg
    | _ => false

/-- R328: the byte lies behind a CXL port that is frozen; accesses through it wait. -/
def State.portFrozen (s : State) (pa : Nat) : Bool :=
  decide (2 ^ 40 ≤ pa) && s.frozen.contains (3, 16 + (pa - 2 ^ 40) / 2 ^ 41)

/-! ### Routes, and what stands in their way (R241, R246, R359) -/

/-- Position of a router: layer, row, column. -/
def routerAt (l y x : Nat) : Nat := 32 * l + 8 * y + x

/-- The layer steps from one layer to another at a position. -/
def verticalPath : Nat → Nat → Nat → Nat → List Nat
  | 0, _, _, _ => []
  | fuel + 1, l, m, yx =>
    if l = m then []
    else
      let l' := if l < m then l + 1 else l - 1
      (32 * l' + yx) :: verticalPath fuel l' m yx

/-- R241: the routers from p to q, both included: row, column, then vertical. -/
def routePath (p q : Nat) : List Nat :=
  let l := p / 32
  let y := p % 32 / 8
  let x := p % 8
  let m := q / 32
  let v := q % 32 / 8
  let u := q % 8
  let row := if x = u then [] else [routerAt l y u]
  let col := if y = v then [] else [routerAt l v u]
  p :: (row ++ col ++ verticalPath 12 l m (q % 32))

/-- R241: the two parts of a route, the second one none without an intermediate router. -/
def legs (p q : Nat) (via : Option Nat) : List Nat × List Nat :=
  match via with
  | some v => (routePath p v, routePath v q)
  | none => (routePath p q, [])
/-- The whole of such a route. -/
def viaRoute (p q : Nat) (via : Option Nat) : List Nat := (legs p q via).1 ++ (legs p q via).2.drop 1

/-- R241, R242: the intermediate router of a packet of the REQ or RSP classes from router p to router q: the
k-th draw of network interface i, where p's layer routes in two phases, unless the draw equals the source or the
destination. -/
def State.detour (s : State) (i k p q : Nat) : Option Nat :=
  if (s.layer (layerOfRouter p)).twoPhase then
    let r := 32 * layerOfRouter p + (Config.draw i k).toNat
    if r = p || r = q then none else some r
  else none

/-- The numbers of the interfaces that inject, at this tick, a request of core n that is not a store, and an
answer from router p (log entry 32). -/
def asker (n : Nat) : Nat := numCores + n
def answerer (p : Nat) : Nat := 2 * numCores + p

/-- The two parts of the route of core n's request to router q, and of an answer from router p to core n. -/
def State.askLegs (s : State) (n q : Nat) : List Nat × List Nat :=
  legs (routerOf n) q (s.detour (asker n) s.tick (routerOf n) q)
def State.backVia (s : State) (p n : Nat) : Option Nat := s.detour (answerer p) s.tick p (routerOf n)
def State.backLegs (s : State) (p n : Nat) : List Nat × List Nat := legs p (routerOf n) (s.backVia p n)
def State.askRoute (s : State) (n q : Nat) : List Nat := (s.askLegs n q).1 ++ (s.askLegs n q).2.drop 1
def State.backRoute (s : State) (p n : Nat) : List Nat := (s.backLegs p n).1 ++ (s.backLegs p n).2.drop 1

/-- The place of the base die below a router's column, as a place of a route. -/
def baseNode (r : Nat) : Nat := numRouters + r % 32

/-- The router of a home; an agent in the base die is under the issuing core's own column, and no packet
goes to the core's own memory or to its layer's copy of the mirrored region. -/
def Home.router (n : Nat) : Home → Option Nat
  | .vault off => some (off / 2 ^ 21)
  | .loc c _ => if c = n then none else some (routerOf c)
  | .mirror _ => none
  | _ => some (routerOf n % 32)

/-- The route from core n down into the base die, and the one back up. -/
def downRoute (n : Nat) : List Nat := routePath (routerOf n) (routerOf n % 32) ++ [baseNode (routerOf n)]
def upRoute (n : Nat) : List Nat := baseNode (routerOf n) :: routePath (routerOf n % 32) (routerOf n)

/-- Does a packet to this home leave the layers for the base die? Such a route has one phase (R241). -/
def Home.baseDie : Home → Bool
  | .hbm _ => true
  | .mmio _ => true
  | .global _ _ => true
  | _ => false

/-- The parts of the routes of core n's request to a home and of the answer to it, each with its class in the
order of R240 (R241). -/
def State.homeLegs (s : State) (n : Nat) (h : Home) : List (Nat × List Nat) :=
  if h.baseDie then [(0, downRoute n), (2, upRoute n)]
  else match h.router n with
    | some q => [(0, (s.askLegs n q).1), (1, (s.askLegs n q).2), (2, (s.backLegs q n).1), (3, (s.backLegs q n).2)]
    | none => []
/-- The same without the classes. -/
def State.homeWay (s : State) (n : Nat) (h : Home) : List (List Nat) := (s.homeLegs n h).map (·.2)

/-- The port of a router toward the next one, in the order of R238's table: 7 row ports and 3 column ports
by rising position of the other router, UP, DN. The base die lies below layer 0. -/
def portTo (r q : Nat) : Nat :=
  if numRouters ≤ q then 11
  else if numRouters ≤ r then 10
  else if q / 32 ≠ r / 32 then (if r < q then 10 else 11)
  else if q % 32 / 8 = r % 32 / 8 then (if q % 8 < r % 8 then q % 8 else q % 8 - 1)
  else 7 + (if q % 32 / 8 < r % 32 / 8 then q % 32 / 8 else q % 32 / 8 - 1)

/-- The links of a route, by router and port. -/
def linksOf : List Nat → List (Nat × Nat)
  | [] => []
  | [_] => []
  | r :: q :: t => (r, portTo r q) :: linksOf (q :: t)

def State.routerPower (s : State) (r : Nat) : Option RouterPower := (s.power.find? (·.1 == r)).map (·.2)
def State.setPower (s : State) (r : Nat) (p : Option RouterPower) : State :=
  { s with power := s.power.filter (·.1 != r) ++ (match p with
      | some x => [(r, x)]
      | none => []) }

/-- R246: a wake cancels a proposal, and starts the wake of a router that is off. -/
def State.wakeRouter (s : State) (r : Nat) : State :=
  match s.routerPower r with
  | some .proposed => s.setPower r none
  | some .off => s.setPower r (some .waking)
  | _ => s

/-- The routers of a route whose crossbar the packet needs: those at its ends and at its turns. One that it only
passes vertically serves it by the vertical path, which stays in service (R246). -/
def crossed : List Nat → List Nat
  | [] => []
  | r :: t => if r < numRouters then r :: turns r t else turns r t
where turns (before : Nat) : List Nat → List Nat
  | [] => []
  | [r] => if r < numRouters then [r] else []
  | r :: q :: t =>
    if before % 32 = r % 32 && r % 32 = q % 32 then turns r (q :: t) else r :: turns r (q :: t)

/-- A packet on this route waits: for a router that is not on (R246), or at a link that fails every replay
(R359). -/
def State.routeHeld (s : State) (rs : List Nat) : Bool :=
  ((crossed rs).any fun r => (s.routerPower r).isSome) || (linksOf rs).any s.deadLinks.contains

/-- R246: a packet that cannot enter a router raises its wake line. -/
def State.raiseWakes (s : State) (rs : List Nat) : State := (crossed rs).foldl State.wakeRouter s

/-- A packet goes on along its route, or waits and raises the wake lines there. -/
def State.onRoute (s : State) (rs : List Nat) (k : Out) : Out :=
  if s.routeHeld rs then .next (s.raiseWakes rs) else k

/-- The same for one hop of a packet that goes along a route router by router. -/
def State.hopHeld (s : State) (whole hop : List Nat) : Bool :=
  (hop.any fun r => (crossed whole).contains r && (s.routerPower r).isSome) || (linksOf hop).any s.deadLinks.contains
def State.onHop (s : State) (whole hop : List Nat) (k : Out) : Out :=
  if s.hopHeld whole hop then .next ((hop.filter (crossed whole).contains).foldl State.wakeRouter s) else k

/-- The same for an access that takes several routes. -/
def State.onRoutes (s : State) (rss : List (List Nat)) (k : Out) : Out :=
  if rss.any s.routeHeld then .next (rss.foldl State.raiseWakes s) else k

/-- The routes of an access of the current core. -/
def State.ways (s : State) (segs : List (Home × Nat)) : List (List Nat) :=
  (segs.map fun g => s.homeWay s.core.num g.1).flatten

/-- A load from space 3 waits for the core's own earlier stores to the same bytes (R231), one from
space 4 for its earlier stores to space 4 (R230), and one from space 0 for those that go to this package by its
global name (R230). -/
def State.behindOwn (s : State) (segs : List (Home × Nat)) : Bool :=
  segs.any fun g =>
    s.core.sb.any (·.meets g.1 g.2)
      || s.flying.any (fun f => f.core == s.core.num && f.entry.meets g.1 g.2)
      || (match g.1 with
          | .hbm _ => s.aliasOut s.core
          | .mirror off => ((s.layer (layerOf s.core.num)).mq ++ (s.sent.map (·.stores)).flatten).any
              fun m => m.core == s.core.num && m.meets off g.2
          | _ => false)

/-- Such an access waits, and any waits for its way to be clear (R246, R328, R359). -/
def State.wayHeld (s : State) (segs : List (Home × Nat)) : Bool :=
  (s.ways segs).any s.routeHeld || s.behindOwn segs || segs.any fun g => match g.1 with
    | .hbm pa => s.portFrozen pa
    | _ => false

/-! ### Packets found too old (R247, R248) -/

/-- R247: the counter of the place where the packet was found, and the record, with the class in the order
of R240: 0 and 1 REQ, 2 and 3 RSP, 4 MSG, 5 TERM, 6 CIRC. -/
def State.discard (s : State) (router cls src dst : Nat) : State :=
  let n := ((s.aged.find? (·.1 == router)).map (·.2)).getD 0
  let s := { s with aged := (router, n + 1) :: s.aged.filter (·.1 != router) }
  s.postError { code := 0x07, layer := if router < numRouters then layerOfRouter router else 12, detail := cls + 2 ^ 16 * src + 2 ^ 32 * dst }

/-- The core number that a record of a discarded packet shows for a place that is no core: the first one of
its router (log entry 95). -/
def coreOfRouter (r : Nat) : Nat := 16 * r

/-- A packet of class `cls` between the current core and router q is discarded at a place: the instruction
waits for what does not come (R248). -/
def State.losePacket (s : State) (cls q at_ : Nat) : State :=
  let n := s.core.num
  let u := if cls < 2 then s.discard at_ cls n (coreOfRouter q) else s.discard at_ cls (coreOfRouter q) n
  { u with lost := u.lost ++ [{ core := n, cls := .load }], core := { u.core with late := none, stalled := true } }

/-- Does a part of a route come by this place? 384 is the base die. -/
def comesBy (leg : List Nat) (at_ : Nat) : Bool := leg.contains at_ || (at_ == 384 && leg.any (384 ≤ ·))

/-- The part of an access's routes, with the class there and the home's router, on which a packet of the current
core's instruction is to be found too old; `fetch` for a fetch of the instruction's own words. -/
def State.lateLeg (s : State) (fetch : Bool) (segs : List (Home × Nat)) : Option (Nat × Nat × Nat) :=
  match s.core.late with
  | none => none
  | some x =>
    let may (cls : Nat) : Bool := match x.kind with
      | .fetch => fetch
      | .access => !fetch && decide (cls < 2)
      | .value => !fetch && decide (2 ≤ cls)
      | _ => false
    ((segs.map fun g => match g.1 with
      | .global _ _ => []
      | h => (s.homeLegs s.core.num h).map fun l => (l.1, (h.router s.core.num).getD 0, l.2)).flatten.find? fun l =>
        may l.1 && comesBy l.2.2 x.at_).map fun l => (l.1, l.2.1, x.at_)

/-- The current core's access waits for its own earlier stores or for its way, or loses a packet on it. -/
def State.mustWait (s : State) (segs : List (Home × Nat)) : Bool := s.wayHeld segs || (s.lateLeg false segs).isSome
/-- The same for the fetch of a word. -/
def State.fetchWaits (s : State) (segs : List (Home × Nat)) : Bool := s.wayHeld segs || (s.lateLeg true segs).isSome

/-- An access waits; wake lines on its way are raised. -/
def State.holdFor (s : State) (segs : List (Home × Nat)) : State :=
  ((s.ways segs).foldl State.raiseWakes s).stall

/-- An access waits, or its packet is discarded for age. -/
def State.waitOn (s : State) (fetch : Bool) (segs : List (Home × Nat)) : State :=
  match s.lateLeg fetch segs with
  | some x => if s.behindOwn segs then s.holdFor segs else s.losePacket x.1 x.2.1 x.2.2
  | none => s.holdFor segs
def State.waitFor (s : State) (segs : List (Home × Nat)) : State := s.waitOn false segs
def State.waitFetch (s : State) (segs : List (Home × Nat)) : State := s.waitOn true segs

/-- Is the answer to the current core's access to be found too old, once the access itself has been made? -/
def State.answerLate (s : State) (segs : List (Home × Nat)) : Bool :=
  !s.wayHeld segs && ((s.lateLeg false segs).map fun l => decide (2 ≤ l.1)).getD false

/-- R240: an operation of the current core at the unit of its layer, which this model puts at the core's own
router (log entry 95), or at the package unit in the base die (12): its request may be lost, or the answer once
the operation is done. -/
def State.atUnit (s : State) (unit : Nat) (k : Out) : Out :=
  let n := s.core.num
  let legs : List (Nat × List Nat) := if unit = 12 then [(0, downRoute n), (2, upRoute n)]
    else [(0, [routerOf n]), (2, [routerOf n])]
  match s.core.late with
  | none => k
  | some x =>
    match legs.find? fun l => comesBy l.2 x.at_ && (match x.kind with
        | .access => l.1 == 0
        | .value => l.1 == 2
        | _ => false) with
    | none => k
    | some l =>
      if l.1 = 0 then .next (s.losePacket 0 (routerOf n) x.at_)
      else match k with
        | .next u => .next (if u.core.completed then { u with core := s.core }.losePacket 2 (routerOf n) x.at_ else u)
        | o => o

/-- What an access that failed its checks answers. -/
def State.refuse (s : State) (k : Kind) : Check → Out
  | .trap c tv => s.trap c tv
  | .lock e tv => ({ s with core := { s.core with rhit := some e } }).trap .rlock tv
  | .miss vpn va => .next (s.askWalk k vpn va)
  | .ok _ => .next s.stall

/-- The cause that a receiving package returned. -/
def returned (c : Nat) : Cause :=
  if c = Cause.prot.code then .prot else if c = Cause.poison.code then .poison else .addr

/-- R104: the checks that the package of a global address makes for an access of this instruction, its
i-th one: the instruction waits for the outcome and raises it as if it had found it itself. -/
def State.checkGlobal (s : State) (i : Nat) (a : Word) (n pkg va : Nat) (kind : Kind) (pin : Bool)
    (k : State → Out) : Out :=
  let ask (v : Nat) : Out :=
    let u := { s.stall with core := { s.stall.core with progress := .asked v none, asking := some pkg } }
    .next (u.sendRequest { pkg := pkg, srcPkg := s.pkg, ctx := s.core.ctx, core := s.core.num
                           slot := v, va := va, op := .check n kind pin })
  match s.core.progress with
  | .answered v => if i < v then k s else ask v
  | .asked v none => if i < v then k s else .next s.stall
  | .asked v (some r) =>
    if i < v then k s
    else match r with
      | [c, off] => s.trap (returned c) (a + BitVec.ofNat 64 off)
      | [_, _, _, _] => k { s with core := { s.core with progress := .answered (v + 1) } }
      | _ => .next (s.restartFor (.remotePage (va / 2 ^ 21 * 2 ^ 21)))
  | _ => ask 0

/-- Check an access and go on with its homes. A range lock on a global address counts once the address's
package has answered for the checks before it (R104). -/
def State.access (s : State) (acc : Access) (a : Word) (n : Nat) (k : List (Home × Nat) → Out) : Out :=
  match s.check acc a n with
  | .ok segs => k segs
  | .lock e tv => (match s.spaceOf a.toNat with
    | .global p va => s.checkGlobal 0 a n p va acc.kind false fun s => s.refuse acc.kind (.lock e tv)
    | _ => s.refuse acc.kind (.lock e tv))
  | c => s.refuse acc.kind c

/-- The local ASID and page of a virtual address of the current core. -/
def State.pageKey (s : State) (va : Nat) : Nat × Nat := (s.ctxAsid s.core.ctx, va / 2 ^ 21)

/-- R121: the core holds a pin that the page's entry counts; a ninth one releases the oldest. -/
def State.keepPin (s : State) (k : Nat × Nat × Nat) : State :=
  if s.core.pins.length < 8 then { s with core := { s.core with pins := s.core.pins ++ [k] } }
  else match s.core.pins with
    | [] => s
    | o :: t =>
      let u := s.unpin o
      { u with core := { u.core with pins := t ++ [k] } }

/-- R121, R320: pin a page of space 0. -/
def State.pin (s : State) (k : Nat × Nat) : State := (s.addPin k.1 k.2 true).keepPin (0, k)

/-- The pages of a list are pinned one after another; one that migrates is waited for (R322). -/
def State.pinAll (s : State) (k : State → Out) : List Nat → State → Out
  | [], u => k u
  | p :: t, u =>
    match u.walk (u.ctxAsid u.core.ctx) p with
    | .hit b f =>
      if pteMig (u.pte b f) then .next s.stall else s.pinAll k t (u.pin (u.ctxAsid u.core.ctx, p))
    | _ => .next (s.askWalk .load p (p * 2 ^ 21))

/-- R137 step 4: every page of a checked source is pinned as TOUCH does. -/
def State.pinPages (s : State) (a : Word) (n : Nat) (k : State → Out) : Out :=
  match s.spaceOf a.toNat with
  | .virt va =>
    s.pinAll k ((List.range ((va + n - 1) / 2 ^ 21 + 1 - va / 2 ^ 21)).map (va / 2 ^ 21 + ·)) s
  | _ => k s

/-- Check several accesses, all of them before any is performed. -/
def State.accesses (s : State) (acc : Access) :
    List (Word × Nat) → (List (List (Home × Nat)) → Out) → Out
  | [], k => k []
  | (a, n) :: t, k => s.access acc a n fun g => s.accesses acc t fun gs => k (g :: gs)

/-- A buffered store for every segment of a checked store (R112). -/
def sbEntries (asid : Nat) (a : Word) : List (Home × Nat) → List Byte → List SbEntry
  | [], _ => []
  | (h, n) :: t, bs =>
    { home := h, addr := a, bytes := bs.take n, asid := asid }
      :: sbEntries asid (a + BitVec.ofNat 64 n) t (bs.drop n)

/-- The store enters the FIFO store buffer. -/
def State.push (s : State) (a : Word) (segs : List (Home × Nat)) (bs : List Byte) : State :=
  { s with core := { s.core with sb := s.core.sb ++ sbEntries (s.ctxAsid s.core.ctx) a segs bs } }

/-- Is a store to this home non-idempotent (R109)? -/
def Home.marks : Home → Bool
  | .mirror _ => true
  | .global _ _ => true
  | _ => false

/-- The end of an instruction that stored to these homes. -/
def State.retireStore (s : State) (segs : List (Home × Nat)) : State :=
  if segs.any (·.1.marks) then s.retireMark else s.retire

/-- Sign or zero extension of a loaded value (R111). -/
def extendLoad (t : LdType) (v : Nat) : Word :=
  match t with
  | .s8 => BitVec.ofInt 64 (toS 8 v)
  | .s16 => BitVec.ofInt 64 (toS 16 v)
  | .s32 => BitVec.ofInt 64 (toS 32 v)
  | _ => BitVec.ofNat 64 v

end Sys2Proof.Machine
end

