-- ==== Sys2Proof/Machine/Operands.lean ====
section
/-! DEFINITION. The operand forms: which fields an instruction's checks name, in the order of R39,
and the addresses and shapes that the register and literal operands give. -/

namespace Sys2Proof.Machine

/-- An instruction that reads two sources and writes one register (R78). -/
def State.alu2 (st : State) (d : XReg) (s t : XSrc) (f : Word → Word → Word) : Out :=
  st.guard (d.val :: (s.regs ++ t.regs)) (s.cells ++ t.cells)
    (.next (st.setX d (f (st.src s) (st.src t))).retire)

/-- The same where the destination is also a source. -/
def State.alu3 (st : State) (d : XReg) (s t : XSrc) (f : Word → Word → Word → Word) : Out :=
  st.guard (d.val :: (s.regs ++ t.regs)) (cellX d.val :: (s.cells ++ t.cells))
    (.next (st.setX d (f (st.rx d) (st.src s) (st.src t))).retire)

/-- An instruction that reads one source and writes one register. -/
def State.alu1 (st : State) (d : XReg) (s : XSrc) (f : Word → Word) : Out :=
  st.guard (d.val :: s.regs) s.cells (.next (st.setX d (f (st.src s))).retire)

/-- Access sizes of the load types (R111) and the store widths (R112). -/
def loadSize : LdType → Nat
  | .s8 => 1 | .z8 => 1 | .s16 => 2 | .z16 => 2 | .s32 => 4 | .z32 => 4 | .b64 => 8 | .p => 16
def storeSize : StWidth → Nat
  | .b1 => 1 | .b2 => 2 | .b4 => 4 | .b8 => 8 | .p => 16

/-- A sign-extended field (R68). -/
def sext (n : Nat) (v : BitVec n) : Word := v.signExtend 64

/-- A 32-bit result sign-extended, or zero-extended (R14). -/
def sextW (v : BitVec 32) : Word := v.signExtend 64
def zextW (v : BitVec 32) : Word := v.zeroExtend 64
def lo32 (v : Word) : BitVec 32 := v.truncate 32

end Sys2Proof.Machine
end

