-- ==== Sys2Proof/Machine/Alu.lean ====
section
/-! DEFINITION. Integer arithmetic and logic (R80-R88). -/

namespace Sys2Proof.Machine

/-! ### Results -/

/-- R16, R80: shifts by the low six bits. -/
def shAmt (b : Word) : Nat := b.toNat % 64
def fSll (a b : Word) : Word := a <<< shAmt b
def fSrl (a b : Word) : Word := a >>> shAmt b
def fSra (a b : Word) : Word := a.sshiftRight (shAmt b)
def fRor (a b : Word) : Word := a.rotateRight (shAmt b)
def fSllW (a b : Word) : Word := sextW (lo32 a <<< shAmt b)
def fSrlW (a b : Word) : Word := zextW (lo32 a >>> shAmt b)
def fSraW (a b : Word) : Word := sextW ((lo32 a).sshiftRight (shAmt b))
def fRorW (a b : Word) : Word := zextW ((lo32 a).rotateRight (shAmt b % 32))
def fMin (a b : Word) : Word := if a.slt b then a else b
def fMax (a b : Word) : Word := if a.slt b then b else a
def fMinu (a b : Word) : Word := if a.ult b then a else b
def fMaxu (a b : Word) : Word := if a.ult b then b else a
def fAddW (a b : Word) : Word := sextW (lo32 (a + b))
def fSubW (a b : Word) : Word := sextW (lo32 (a - b))

/-- R83: bits 127:64 of an exact product. -/
def hi128 (p : Int) : Word := BitVec.ofInt 64 (p / 2 ^ 64)
def fMulh (a b : Word) : Word := hi128 (a.toInt * b.toInt)
def fMulhu (a b : Word) : Word := hi128 ((a.toNat : Int) * b.toNat)
def fMulhsu (a b : Word) : Word := hi128 (a.toInt * b.toNat)
def fMulW (a b : Word) : Word := sextW (lo32 a * lo32 b)

/-- R15: quotient and remainder of width `n`. -/
def divS (n : Nat) (a b : BitVec n) : BitVec n :=
  if b.toInt = 0 then BitVec.ofInt n (-1) else BitVec.ofInt n (a.toInt.tdiv b.toInt)
def remS (n : Nat) (a b : BitVec n) : BitVec n :=
  if b.toInt = 0 then a else BitVec.ofInt n (a.toInt.tmod b.toInt)
def divU (n : Nat) (a b : BitVec n) : BitVec n :=
  if b.toNat = 0 then BitVec.ofInt n (-1) else BitVec.ofNat n (a.toNat / b.toNat)
def remU (n : Nat) (a b : BitVec n) : BitVec n :=
  if b.toNat = 0 then a else BitVec.ofNat n (a.toNat % b.toNat)

/-- R85: the conditions. -/
def condHolds (c : Cond) (a b : Word) : Bool :=
  match c with
  | .eq => a == b
  | .ne => a != b
  | .lt => a.slt b
  | .ge => !a.slt b
  | .ltu => a.ult b
  | .geu => !a.ult b
  | .le => !b.slt a
  | .gt => b.slt a
  | .leu => !b.ult a
  | .gtu => b.ult a
/-- A truth value. -/
def truth (b : Bool) : Word := if b then 1 else 0

/-- R87: the field specifier. -/
def fieldPos (t : Word) : Nat := t.toNat % 64
def fieldLen (t : Word) : Nat :=
  Nat.min (Nat.min 64 (t.toNat / 256 % 128)) (64 - fieldPos t)
def fExtz (a t : Word) : Word := BitVec.ofNat 64 (bits a.toNat (fieldPos t) (fieldLen t))
def fExts (a t : Word) : Word :=
  if fieldLen t = 0 then 0
  else BitVec.ofInt 64 (toS (fieldLen t) (bits a.toNat (fieldPos t) (fieldLen t)))
def fIns (d a t : Word) : Word :=
  let mask : Word := BitVec.ofNat 64 ((2 ^ fieldLen t - 1) * 2 ^ fieldPos t)
  (d &&& ~~~mask) ||| ((a <<< fieldPos t) &&& mask)
/-- Leading zeros of a number below 2^n. -/
def clzN (n v : Nat) : Nat := if v = 0 then n else n - 1 - Nat.log2 v
/-- Trailing zeros, at most `n`. -/
def ctzN : Nat → Nat → Nat
  | 0, _ => 0
  | n + 1, v => if v % 2 = 1 then 0 else 1 + ctzN n (v / 2)
/-- One bits among the low `n`. -/
def popN : Nat → Nat → Nat
  | 0, _ => 0
  | n + 1, v => v % 2 + popN n (v / 2)
/-- The low `n` bits in reverse order. -/
def revN : Nat → Nat → Nat
  | 0, _ => 0
  | n + 1, v => v % 2 * 2 ^ n + revN n (v / 2)
def fClz (a : Word) : Word := BitVec.ofNat 64 (clzN 64 a.toNat)
def fCtz (a : Word) : Word := BitVec.ofNat 64 (ctzN 64 a.toNat)
def fPopc (a : Word) : Word := BitVec.ofNat 64 (popN 64 a.toNat)
def fBrev (a : Word) : Word := BitVec.ofNat 64 (revN 64 a.toNat)
def fBswap (a : Word) : Word := BitVec.ofNat 64 (ofBytes (bytesOf 8 a.toNat).reverse)
def fAddsh (k : BitVec 3) (a b : Word) : Word := a + b <<< k.toNat

/-! ### Meanings -/

def execAdd (d : XReg) (s t : XSrc) (st : State) : Out := st.alu2 d s t fun a b => a + b
def execSub (d : XReg) (s t : XSrc) (st : State) : Out := st.alu2 d s t fun a b => a - b
def execAnd (d : XReg) (s t : XSrc) (st : State) : Out := st.alu2 d s t fun a b => a &&& b
def execOr (d : XReg) (s t : XSrc) (st : State) : Out := st.alu2 d s t fun a b => a ||| b
def execXor (d : XReg) (s t : XSrc) (st : State) : Out := st.alu2 d s t fun a b => a ^^^ b
def execAndn (d : XReg) (s t : XSrc) (st : State) : Out := st.alu2 d s t fun a b => a &&& ~~~b
def execOrn (d : XReg) (s t : XSrc) (st : State) : Out := st.alu2 d s t fun a b => a ||| ~~~b
def execXnor (d : XReg) (s t : XSrc) (st : State) : Out := st.alu2 d s t fun a b => ~~~(a ^^^ b)
def execSll (d : XReg) (s t : XSrc) (st : State) : Out := st.alu2 d s t fSll
def execSrl (d : XReg) (s t : XSrc) (st : State) : Out := st.alu2 d s t fSrl
def execSra (d : XReg) (s t : XSrc) (st : State) : Out := st.alu2 d s t fSra
def execRor (d : XReg) (s t : XSrc) (st : State) : Out := st.alu2 d s t fRor
def execMin (d : XReg) (s t : XSrc) (st : State) : Out := st.alu2 d s t fMin
def execMax (d : XReg) (s t : XSrc) (st : State) : Out := st.alu2 d s t fMax
def execMinu (d : XReg) (s t : XSrc) (st : State) : Out := st.alu2 d s t fMinu
def execMaxu (d : XReg) (s t : XSrc) (st : State) : Out := st.alu2 d s t fMaxu
def execAddW (d : XReg) (s t : XSrc) (st : State) : Out := st.alu2 d s t fAddW
def execSubW (d : XReg) (s t : XSrc) (st : State) : Out := st.alu2 d s t fSubW
def execSllW (d : XReg) (s t : XSrc) (st : State) : Out := st.alu2 d s t fSllW
def execSrlW (d : XReg) (s t : XSrc) (st : State) : Out := st.alu2 d s t fSrlW
def execSraW (d : XReg) (s t : XSrc) (st : State) : Out := st.alu2 d s t fSraW
def execRorW (d : XReg) (s t : XSrc) (st : State) : Out := st.alu2 d s t fRorW

/-- R81: the immediate is always sign-extended. -/
def execAddi (d : XReg) (s : XSrc) (i : BitVec 13) (st : State) : Out := st.alu1 d s (· + sext 13 i)
def execAndi (d : XReg) (s : XSrc) (i : BitVec 13) (st : State) : Out := st.alu1 d s (· &&& sext 13 i)
def execOri (d : XReg) (s : XSrc) (i : BitVec 13) (st : State) : Out := st.alu1 d s (· ||| sext 13 i)
def execXori (d : XReg) (s : XSrc) (i : BitVec 13) (st : State) : Out := st.alu1 d s (· ^^^ sext 13 i)

/-- R82: exactly the ALU member with sh = n. -/
def execSlli (d : XReg) (s : XSrc) (w : Bool) (n : BitVec 6) (st : State) : Out :=
  st.alu1 d s fun a => if w then fSllW a (n.zeroExtend 64) else fSll a (n.zeroExtend 64)
def execSrli (d : XReg) (s : XSrc) (w : Bool) (n : BitVec 6) (st : State) : Out :=
  st.alu1 d s fun a => if w then fSrlW a (n.zeroExtend 64) else fSrl a (n.zeroExtend 64)
def execSrai (d : XReg) (s : XSrc) (w : Bool) (n : BitVec 6) (st : State) : Out :=
  st.alu1 d s fun a => if w then fSraW a (n.zeroExtend 64) else fSra a (n.zeroExtend 64)
def execRori (d : XReg) (s : XSrc) (w : Bool) (n : BitVec 6) (st : State) : Out :=
  st.alu1 d s fun a => if w then fRorW a (n.zeroExtend 64) else fRor a (n.zeroExtend 64)

def execMul (d : XReg) (s t : XSrc) (st : State) : Out := st.alu2 d s t fun a b => a * b
def execMulh (d : XReg) (s t : XSrc) (st : State) : Out := st.alu2 d s t fMulh
def execMulhu (d : XReg) (s t : XSrc) (st : State) : Out := st.alu2 d s t fMulhu
def execMulhsu (d : XReg) (s t : XSrc) (st : State) : Out := st.alu2 d s t fMulhsu
def execMulW (d : XReg) (s t : XSrc) (st : State) : Out := st.alu2 d s t fMulW
def execMadd (d : XReg) (s t : XSrc) (st : State) : Out := st.alu3 d s t fun c a b => c + a * b

def execDiv (d : XReg) (s t : XSrc) (st : State) : Out := st.alu2 d s t (divS 64)
def execDivu (d : XReg) (s t : XSrc) (st : State) : Out := st.alu2 d s t (divU 64)
def execRem (d : XReg) (s t : XSrc) (st : State) : Out := st.alu2 d s t (remS 64)
def execRemu (d : XReg) (s t : XSrc) (st : State) : Out := st.alu2 d s t (remU 64)
def execDivW (d : XReg) (s t : XSrc) (st : State) : Out :=
  st.alu2 d s t fun a b => sextW (divS 32 (lo32 a) (lo32 b))
def execDivuW (d : XReg) (s t : XSrc) (st : State) : Out :=
  st.alu2 d s t fun a b => zextW (divU 32 (lo32 a) (lo32 b))
def execRemW (d : XReg) (s t : XSrc) (st : State) : Out :=
  st.alu2 d s t fun a b => sextW (remS 32 (lo32 a) (lo32 b))
def execRemuW (d : XReg) (s t : XSrc) (st : State) : Out :=
  st.alu2 d s t fun a b => zextW (remU 32 (lo32 a) (lo32 b))

def execCmp (d : XReg) (s t : XSrc) (c : Cond) (st : State) : Out :=
  st.alu2 d s t fun a b => truth (condHolds c a b)
def execCmpi (d : XReg) (s : XSrc) (c : Cond) (i : BitVec 9) (st : State) : Out :=
  st.alu1 d s fun a => truth (condHolds c a (sext 9 i))

/-- R86: the condition register is checked last (R39). -/
def execSel (d : XReg) (s t : XSrc) (c : XReg) (st : State) : Out :=
  st.guard (d.val :: (s.regs ++ t.regs ++ [c.val])) (s.cells ++ t.cells ++ [cellX c.val])
    (.next (st.setX d (if st.rx c ≠ 0 then st.src s else st.src t)).retire)
def execSeln (d : XReg) (s t : XSrc) (c : XReg) (st : State) : Out :=
  st.guard (d.val :: (s.regs ++ t.regs ++ [c.val])) (s.cells ++ t.cells ++ [cellX c.val])
    (.next (st.setX d (if st.rx c = 0 then st.src s else st.src t)).retire)

def execExtz (d : XReg) (s t : XSrc) (st : State) : Out := st.alu2 d s t fExtz
def execExts (d : XReg) (s t : XSrc) (st : State) : Out := st.alu2 d s t fExts
def execIns (d : XReg) (s t : XSrc) (st : State) : Out := st.alu3 d s t fIns
def execClz (d : XReg) (s : XSrc) (st : State) : Out := st.alu1 d s fClz
def execCtz (d : XReg) (s : XSrc) (st : State) : Out := st.alu1 d s fCtz
def execPopc (d : XReg) (s : XSrc) (st : State) : Out := st.alu1 d s fPopc
def execBrev (d : XReg) (s : XSrc) (st : State) : Out := st.alu1 d s fBrev
def execBswap (d : XReg) (s : XSrc) (st : State) : Out := st.alu1 d s fBswap
def execAddsh (d : XReg) (s t : XSrc) (k : BitVec 3) (st : State) : Out := st.alu2 d s t (fAddsh k)

/-! ### Scalar floating point (R89): FP32 in bits 31:0, results with zeros above -/

/-- The FP32 code a register holds. -/
def f32Of (a : Word) : Nat := a.toNat % 2 ^ 32
/-- A code as a register value. -/
def codeW (c : Nat) : Word := BitVec.ofNat 64 c

def execFadd (d : XReg) (s t : XSrc) (r : Rm) (st : State) : Out :=
  st.alu2 d s t fun a b => codeW (fmtF32.addC r (f32Of a) (f32Of b))
def execFsub (d : XReg) (s t : XSrc) (r : Rm) (st : State) : Out :=
  st.alu2 d s t fun a b => codeW (fmtF32.subC r (f32Of a) (f32Of b))
def execFmul (d : XReg) (s t : XSrc) (r : Rm) (st : State) : Out :=
  st.alu2 d s t fun a b => codeW (fmtF32.mulC r (f32Of a) (f32Of b))
def execFdiv (d : XReg) (s t : XSrc) (r : Rm) (st : State) : Out :=
  st.alu2 d s t fun a b => codeW (fmtF32.divC r (f32Of a) (f32Of b))
def execFsqrt (d : XReg) (s : XSrc) (r : Rm) (st : State) : Out :=
  st.alu1 d s fun a => codeW (fmtF32.sqrtC r (f32Of a))
def execFmadd (d : XReg) (s t : XSrc) (r : Rm) (st : State) : Out :=
  st.alu3 d s t fun c a b => codeW
    (fmtF32.fmaC r (fmtF32.value (f32Of a)) (fmtF32.value (f32Of b)) (fmtF32.value (f32Of c)))
def execFmin (d : XReg) (s t : XSrc) (st : State) : Out :=
  st.alu2 d s t fun a b => codeW (fmtF32.minC (f32Of a) (f32Of b))
def execFmax (d : XReg) (s t : XSrc) (st : State) : Out :=
  st.alu2 d s t fun a b => codeW (fmtF32.maxC (f32Of a) (f32Of b))
def execFeq (d : XReg) (s t : XSrc) (st : State) : Out :=
  st.alu2 d s t fun a b => truth ((fmtF32.value (f32Of a)).eqv (fmtF32.value (f32Of b)))
def execFlt (d : XReg) (s t : XSrc) (st : State) : Out :=
  st.alu2 d s t fun a b => truth ((fmtF32.value (f32Of a)).lt (fmtF32.value (f32Of b)))
def execFle (d : XReg) (s t : XSrc) (st : State) : Out :=
  st.alu2 d s t fun a b => truth ((fmtF32.value (f32Of a)).lt (fmtF32.value (f32Of b))
    || (fmtF32.value (f32Of a)).eqv (fmtF32.value (f32Of b)))
def execFclass (d : XReg) (s : XSrc) (st : State) : Out :=
  st.alu1 d s fun a => codeW (fmtF32.classC (f32Of a))
def execFneg (d : XReg) (s : XSrc) (st : State) : Out :=
  st.alu1 d s fun a => codeW (fmtF32.negC (f32Of a))
def execFabs (d : XReg) (s : XSrc) (st : State) : Out :=
  st.alu1 d s fun a => codeW (fmtF32.absC (f32Of a))
def execFcvti (d : XReg) (s : XSrc) (r : Rm) (st : State) : Out :=
  st.alu1 d s fun a => BitVec.ofInt 64 (fmtF32.toInt r (-(2 ^ 63)) (2 ^ 63 - 1) (f32Of a))
def execFcvtiu (d : XReg) (s : XSrc) (r : Rm) (st : State) : Out :=
  st.alu1 d s fun a => BitVec.ofInt 64 (fmtF32.toInt r 0 (2 ^ 64 - 1) (f32Of a))
def execFcvtf (d : XReg) (s : XSrc) (r : Rm) (st : State) : Out :=
  st.alu1 d s fun a => codeW (fmtF32.ofInt r a.toInt)
def execFcvtfu (d : XReg) (s : XSrc) (r : Rm) (st : State) : Out :=
  st.alu1 d s fun a => codeW (fmtF32.ofInt r a.toNat)
def execFnarrowBf16 (d : XReg) (s : XSrc) (r : Rm) (st : State) : Out :=
  st.alu1 d s fun a => codeW (fmtF32.convert fmtBf16 r (f32Of a))
def execFnarrowF16 (d : XReg) (s : XSrc) (r : Rm) (st : State) : Out :=
  st.alu1 d s fun a => codeW (fmtF32.convert fmtF16 r (f32Of a))
def execFwidenBf16 (d : XReg) (s : XSrc) (st : State) : Out :=
  st.alu1 d s fun a => codeW (fmtBf16.convert fmtF32 .rne (a.toNat % 2 ^ 16))
def execFwidenF16 (d : XReg) (s : XSrc) (st : State) : Out :=
  st.alu1 d s fun a => codeW (fmtF16.convert fmtF32 .rne (a.toNat % 2 ^ 16))

/-- R66, R94: a no-op. -/
def execHint (_ : BitVec 25) (st : State) : Out := .next st.retire

end Sys2Proof.Machine
end

