-- ==== Sys2Proof/Machine/Net.lean ====
section
/-! DEFINITION. Message flits at their cores (R43, R174, R207, R208): the inbox, its overflow, and
what holds a sender up. -/

namespace Sys2Proof.Machine

/-- Fields of QDST (R48). -/
def qdCore (q : Word) : Nat := bits q.toNat 0 13
def qdK (q : Word) : Bool := bits q.toNat 16 1 == 1
def qdTag (q : Word) : Nat := bits q.toNat 24 16
def qdPri (q : Word) : Nat := bits q.toNat 40 3
def qdPkg (q : Word) : Nat := bits q.toNat 53 10
def qdG (q : Word) : Bool := bits q.toNat 63 1 == 1

/-- OVF of a context (R283). -/
def State.ovf (s : State) (ctx : Nat) : Nat := s.reg (ctxBase ctx + 0x28) 8 % 2048

/-- The task with a model number, wherever it is: resident, saved or queued. -/
def State.task? (s : State) (t : Nat) : Option Task :=
  match s.allCores.findSome? fun c => c.task.filter (·.id == t) with
  | some k => some k
  | none => match s.records.findSome? fun r => r.image.task.filter (·.id == t) with
    | some k => some k
    | none => (s.queue ++ s.spawns).find? (·.id == t)

/-- The context of a task. -/
def State.taskCtx (s : State) (t : Nat) : Nat := ((s.task? t).map (·.ctx)).getD 0

/-- The record of a task (R302). -/
def State.recordOf (s : State) (t : Nat) : Option Record :=
  s.records.find? fun r => (r.image.task.map (·.id)) == some t

/-! ### The overflow area (R207, R283) -/

/-- Where an overflow entry of a context lies: behind the record heads of the core's router, OVF places of
72 bytes for each core of the domain in turn (log entry 13). -/
def State.overAddr (s : State) (core ctx place : Nat) : Nat :=
  routerOf core * 2 ^ 21 + 2 ^ 20 + s.reg (ctxBase ctx + 0x10) 8 % 2 ^ 20
    + s.reg (ctxBase ctx + 0x20) 8 % 128 * 8192 + (core % 16 * s.ovf ctx + place) * 72

/-- An overflow flit as its entry holds it: the 64-byte flit and its route header. -/
def State.overFlit (s : State) (o : OverFlit) : Flit :=
  let a := s.overAddr o.core (s.taskCtx o.entry.task) o.place
  { o.entry.flit with
    bad := o.entry.flit.bad || (List.range 72).any fun i => s.poison.contains (.vault ((a + i) / 16 * 16))
    words := (List.range 8).map fun i => BitVec.ofNat 64 (s.vault.readN (a + 8 * i) 8)
    header := BitVec.ofNat 64 (s.vault.readN (a + 64) 8) }

/-- Is it a flit of this task, at this core? -/
def OverFlit.isOf (core task : Nat) (o : OverFlit) : Bool := o.core == core && o.entry.task == task

/-- R207: flits of a context in its overflow area at a core. -/
def State.overAt (s : State) (core ctx : Nat) : Nat :=
  (s.overflow.filter fun o => o.core == core && s.taskCtx o.entry.task == ctx).length

/-- The lowest free place of a context's overflow area at a core. -/
def State.freePlace (s : State) (core ctx : Nat) : Nat :=
  ((List.range (s.ovf ctx)).find? fun p => !(s.overflow.any fun o =>
    o.core == core && o.place == p && s.taskCtx o.entry.task == ctx)).getD 0

/-- A flit of a task goes to the overflow area of its context at a core. -/
def State.overPut (s : State) (core task : Nat) (f : Flit) : State :=
  let ctx := s.taskCtx task
  let p := s.freePlace core ctx
  let bs := (f.words.map fun w => bytesOf 8 w.toNat).flatten ++ bytesOf 8 f.header.toNat
  let u := s.storeHome (.vault (s.overAddr core ctx p)) bs
  { u with overflow := u.overflow ++ [{ core := core, place := p, entry := { task := task, flit := f } }] }

/-- The next flit for the resident task: its inbox flits in order, then its overflow (R207). -/
def State.nextFlit (s : State) : Option Flit :=
  match s.core.task with
  | none => none
  | some t =>
    match s.core.inbox.find? (·.task == t.id) with
    | some f => some f.flit
    | none => (s.overflow.find? (OverFlit.isOf s.core.num t.id)).map s.overFlit

/-- Remove the first element that satisfies `p`. -/
def dropFirst {α : Type} (p : α → Bool) : List α → List α
  | [] => []
  | a :: t => if p a then t else a :: dropFirst p t

/-- Take that flit away. -/
def State.takeFlit (s : State) : State :=
  match s.core.task with
  | none => s
  | some t =>
    match s.core.inbox.find? (·.task == t.id) with
    | some _ => { s with core := { s.core with inbox := dropFirst (·.task == t.id) s.core.inbox } }
    | none =>
      { s with overflow := dropFirst (OverFlit.isOf s.core.num t.id) s.overflow }

/-- R43: latch the next flit; nothing when there is none. -/
def State.latch (s : State) : Option State :=
  match s.core.latched with
  | some _ => some s
  | none => (s.nextFlit).map fun f =>
      let u := s.takeFlit
      { u with core := { u.core with latched := some f } }

/-- R356: the latched flit came from a poisoned part. -/
def State.badFlit (s : State) : Bool := (s.core.latched.map (·.bad)).getD false

/-- R43: pop the latched flit; a region restart returns it (R110). -/
def State.popFlit (s : State) : State :=
  { s with core := { s.core with
      latched := none
      snap := { s.core.snap with popped := s.core.snap.popped ++ s.core.latched.toList } } }

/-- R207: the task has flits in the overflow area at a core. -/
def State.overflows (s : State) (core task : Nat) : Bool :=
  s.overflow.any (OverFlit.isOf core task)

/-- R200, R207: the first place for a flit of a task: the core's inbox, or the inbox of its record. -/
def State.inboxRoom (s : State) (core task : Nat) : Bool :=
  !s.overflows core task && (match s.recordOf task with
    | some r => decide (r.image.inbox.length < 32)
    | none => decide ((s.getCore core).inbox.length < 32))

/-- R207: room for one more flit of a task at a core. -/
def State.roomFor (s : State) (core task : Nat) : Bool :=
  s.inboxRoom core task || decide (s.overAt core (s.taskCtx task) < s.ovf (s.taskCtx task))

/-- The one of two tasks that started first. -/
def firstStarted (b : Option Task) (t : Task) : Option Task :=
  match b with
  | none => some t
  | some u => if t.started < u.started then some t else some u

/-- R208: the task at a core that a tag names. Of the tasks there that are RUNNING, PARKED or FROZEN, saved
or not, the one that started first; else one that is QUEUED and bound to the core. A member of a ligature
has no task. -/
def State.taskAt (s : State) (core tag : Nat) : Option Nat :=
  let fits (t : Task) : Bool := t.wid.toNat % 65536 == tag
  let c := s.getCore core
  let saved (q : Bool) : List Task :=
    (s.records.filter fun r => r.image.num == core && (r.st == .queued) == q).filterMap (·.image.task)
  let here (q : Bool) : List Task := if (c.tstate == .queued) == q then c.task.toList else []
  let first (l : List Task) : Option Task := (l.filter fits).foldl firstStarted none
  let bound := s.queue.filter fun q => q.bound == some core && !q.saved && !q.resident
  if c.memberOf.isSome then none
  else (first (here false ++ saved false) <|> first (here true ++ saved true) <|> bound.find? fits).map (·.id)

/-- The task that a delivered flit is for: a gate result's is the one that opened its group, while it
lives (R183, R208). -/
def State.destOf (s : State) (f : Flit) : Option Nat :=
  match f.gateTo with
  | some t => (s.task? t).map (·.id)
  | none => s.taskAt (qdCore f.qdst) (qdTag f.qdst)

/-- R207: a flit that its core's network interface cannot take for want of room. -/
def State.flitBlocked (s : State) (f : Flit) : Bool :=
  !f.bounce && (!qdK f.qdst || f.gateTo.isSome) && (match s.destOf f with
    | some t => !s.roomFor (qdCore f.qdst) t
    | none => false)

/-- R207: the network interface of a core has stopped accepting MSG flits: one that waits for it finds no
room. -/
def State.msgBlocked (s : State) (core : Nat) : Bool :=
  s.flits.any fun f => qdCore f.qdst == core && f.circuit == 0 && s.flitBlocked f

/-- A teardown sets out behind a circuit's flits. -/
def State.tearDown (s : State) (core dst id : Nat) : State :=
  { s with teardowns := s.teardowns ++ [{ core := core, dst := dst, id := id
                                          path := routePath (routerOf core) (routerOf dst) }] }

/-- R245: the circuit of a core with index `i` (its id less one) is torn down: the teardown is on its way
behind the circuit's flits. -/
def State.dropCircuit (s : State) (core : Nat) (i : Fin 2) : State :=
  match (s.getCore core).circuits[i] with
  | none => s
  | some c =>
    (s.modCore core fun k => { k with circuits := k.circuits.set i.val none }).tearDown core c.dst (i.val + 1)

/-- Every circuit of a core is torn down, and a set-up that is still out will be (R177, R300). -/
def State.dropCircuits (s : State) (core : Nat) : State :=
  (List.finRange 2).foldl (fun s i => s.dropCircuit core i) s

/-- R61: in unprivileged code some instructions wait for a repeat frame to complete. -/
def State.frameWait (s : State) : Bool := !s.core.p && (s.core.frame.act && !s.core.frame.suspended)

/-- Park the resident task (R197): it waits at this instruction. -/
def State.park (s : State) (w : Wait) : State :=
  { s with core := { s.core with tstate := .parked, wait := w, stalled := false } }

end Sys2Proof.Machine
end

