-- ==== Sys2Proof/Machine/Move.lean ====
section
/-! DEFINITION. Moves between the register classes (R95-R102). -/

namespace Sys2Proof.Machine

def execMov (d : XReg) (s : XSrc) (st : State) : Out := st.alu1 d s id
/-- R95: sh is a number and names no register. -/
def execLi (d : XReg) (h : BitVec 6) (i : BitVec 13) (st : State) : Out :=
  st.guard [d.val] [] (.next (st.setX d (sext 13 i <<< h.toNat)).retire)

/-- R40: the index j of MOVX and MOVXW as a signed sum. -/
def relIndex (x : Word) (k : BitVec 13) : Word := x + sext 13 k

/-- R40: the register that j names, where it names one. -/
def State.relReg (s : State) (j : Word) : Option XReg :=
  if h : j.toNat < 62 then
    (if j.toNat = 0 || j.toNat < s.core.rlim then some ⟨j.toNat, h⟩ else none)
  else none

/-- R40, R97. -/
def execMovx (d : XReg) (s : XSrc) (k : BitVec 13) (st : State) : Out :=
  st.guard (d.val :: s.regs) s.cells
    (let j := relIndex (st.src s) k
     match st.relReg j with
     | some r => st.guard [r.val] [cellX r.val] (.next (st.setX d (st.rx r)).retire)
     | none => st.trap .regidx j)
def execMovxw (d s : XSrc) (k : BitVec 13) (st : State) : Out :=
  st.guard (d.regs ++ s.regs) (d.cells ++ s.cells)
    (let j := relIndex (st.src s) k
     match st.relReg j with
     | some r => st.guard [r.val] [] (.next (st.setX r (st.src d)).retire)
     | none => st.trap .regidx j)

/-- Write a pointer register. -/
def State.setA (s : State) (r : AReg) (v : Word) : State :=
  ({ s with core := { s.core with a := s.core.a.set r.val v } }).unpoison (cellA r.val)

def execMovaToPointer (d : AReg) (s : XSrc) (st : State) : Out :=
  st.guard s.regs s.cells (.next (st.setA d (st.src s)).retire)
def execMovaFromPointer (d : XReg) (s : AReg) (st : State) : Out :=
  st.guard [d.val] [cellA s.val] (.next (st.setX d st.core.a[s]).retire)
def execAdda (d s : AReg) (t : XSrc) (st : State) : Out :=
  st.guard t.regs (cellA s.val :: t.cells) (.next (st.setA d (st.core.a[s] + st.src t)).retire)
def execMovaPointerPointer (d s : AReg) (st : State) : Out :=
  st.guard [] [cellA s.val] (.next (st.setA d st.core.a[s]).retire)

/-- Write a mask register. -/
def State.setM (s : State) (r : MReg) (v : Word) : State :=
  ({ s with core := { s.core with m := s.core.m.set r.val v } }).unpoison (cellM r.val)

/-- R99: ordered with the VMU queue. -/
def execMovmToMask (d : MReg) (s : XSrc) (st : State) : Out :=
  st.guard s.regs s.cells (st.vmu (.next (st.setM d (st.src s)).retire))
def execMovmFromMask (d : XReg) (s : MReg) (st : State) : Out :=
  st.guard [d.val] [cellM s.val] (st.vmu (.next (st.setX d st.core.m[s]).retire))
def execMovmMaskMask (d s : MReg) (st : State) : Out :=
  st.guard [] [cellM s.val] (st.vmu (.next (st.setM d st.core.m[s]).retire))

/-- Write a send register. -/
def State.setQs (s : State) (r : QReg) (v : Word) : State :=
  ({ s with core := { s.core with qs := s.core.qs.set r.val v } }).unpoison (cellQs r.val)

/-- R48: does a destination lie in another package? -/
def State.farDest (s : State) (q : Word) : Bool := qdG q && qdPkg q != s.pkg

/-- A flit leaves for QDST (R43). A flit for another package goes by Ethernet (R329). -/
def State.sendFlit (s : State) (f : Flit) : State :=
  if s.farDest f.qdst then { s with out := s.out ++ [.flit (qdPkg f.qdst) f] }
  else { s with flits := s.flits ++ [f] }

/-- The flit the current core sends. -/
def State.ownFlit (s : State) : Flit :=
  { words := s.core.qs.toList, qdst := s.core.csrs.qdst
    src := some (s.core.num, (s.core.task.map (·.id)).getD 0)
    srcPkg := s.pkg, wid := s.core.wid, ctx := s.core.ctx
    launch := (s.core.task.map (·.launch)).getD 0 }

/-- R177: the circuit that a flit of the current core travels on; none for QDST.G = 1. -/
def State.circuitFor (s : State) (q : Word) : Option (Fin 2) :=
  if qdG q then none
  else (List.finRange 2).find? fun i => (s.core.circuits[i].map (·.dst)) == some (qdCore q)

/-- R43, R177: the flit leaves on the circuit to its destination, the last one tearing it down, or on
MSG. -/
def State.launchFlit (s : State) (f : Flit) : State :=
  match s.circuitFor f.qdst with
  | none => s.sendFlit f
  | some i =>
    let s := s.sendFlit { f with circuit := i.val + 1 }
    match s.core.circuits[i] with
    | none => s
    | some c =>
      if c.left ≤ 1 then s.dropCircuit s.core.num i
      else { s with core := { s.core with
        circuits := s.core.circuits.set i.val (some { c with left := c.left - 1 }) } }

/-- R43, R100, R101: a write to qs7 sends, as a non-idempotent operation. QDST's ADDR comes before the poison of
the send registers (DEDUCED, log entry 8). -/
def execMovqSend (d : QReg) (s : XSrc) (st : State) : Out :=
  st.guard s.regs s.cells
    (if d.val = 7 then
       if numCores ≤ qdCore st.core.csrs.qdst then st.trap .addr st.core.csrs.qdst
       else match st.poisonedCell ((List.range 7).map cellQs) with
         | some c => st.trap .poison (cellAddr st.core.num c)
         | none =>
           if !st.farDest st.core.csrs.qdst && st.msgBlocked (qdCore st.core.csrs.qdst) then .next st.stall
           else
             let u := st.setQs d (st.src s)
             .next (u.launchFlit u.ownFlit).retireMark
     else .next (st.setQs d (st.src s)).retire)
def execMovqReadSend (d : XReg) (s : QReg) (st : State) : Out :=
  st.guard [d.val] [cellQs s.val] (.next (st.setX d st.core.qs[s]).retire)
/-- R43, R100: the receive registers; with nothing to latch the task parks in a blocking receive,
once no frame stands before it (R61). -/
def execMovqReceive (d : XReg) (s : QReg) (st : State) : Out :=
  st.guard [d.val] []
    (match st.latch with
     | none => if st.frameWait then .next st.stall else .next (st.park .receive)
     | some u =>
       if u.badFlit then u.trap .poison (cellAddr u.core.num 0x8C0) else
       let w := ((u.core.latched.map (·.words.getD s.val 0)).getD 0)
       let v := u.setX d w
       .next (if s.val = 7 then v.popFlit else v).retire)

/-! ### Streams (R42, R102) -/

/-- Elements of a stream not yet consumed. -/
def Stream.left (t : Stream) : Nat := t.count - t.pos

/-- What the next element of a stream is. -/
inductive Element where
  | ready (v : Nat)
  | poisoned (addr : Nat)
  | notYet
  deriving DecidableEq, Repr

/-- The next element: from the copy's buffer, or from local memory when consumed (R122, R123). A poisoned one
shows the first byte of its source (DESIGN CHOICE, log entry 109). -/
def State.element (s : State) (t : Stream) : Element :=
  match t.entry with
  | some _ => match t.buf with
    | [] => .notYet
    | some v :: _ => .ready v
    | none :: _ => .poisoned (t.start + t.width * t.pos)
  | none =>
    let h : Home := .loc s.core.num ((t.start + t.width * t.pos) % 16384)
    match s.poisonHit s.ownStores h t.width with
    | some i => .poisoned (t.start + t.width * t.pos + i)
    | none => .ready (ofBytes (s.loadRun h t.width))

/-- An element is consumed. -/
def Stream.consume (t : Stream) : Stream :=
  { t with pos := t.pos + 1, buf := t.buf.drop 1, back := t.back ++ t.buf.take 1 }

def State.setStream (s : State) (i : SReg) (t : Option Stream) : State :=
  { s with core := { s.core with s := s.core.s.set i.val t } }

/-- R42, R102. ILL of a stream that is unbound or at its end comes before REGIDX (R57). -/
def State.movs (st : State) (d : XReg) (i : SReg) (ext : Nat → Nat → Word) : Out :=
  match st.core.s[i] with
  | none => st.ill
  | some t =>
    if t.left = 0 then st.ill
    else st.guard [d.val] []
      (match st.element t with
       | .notYet => .next st.stall
       | .poisoned a => st.trap .poison (BitVec.ofNat 64 a)
       | .ready v => .next ((st.setX d (ext t.width v)).setStream i (some t.consume)).retire)

def execMovs (d : XReg) (s : SReg) (st : State) : Out :=
  st.movs d s fun _ v => BitVec.ofNat 64 v
def execMovsS (d : XReg) (s : SReg) (st : State) : Out :=
  st.movs d s fun w v => BitVec.ofInt 64 (toS (8 * w) v)

end Sys2Proof.Machine
end

