-- ==== Sys2Proof/Machine/Mem.lean ====
section
/-! DEFINITION. Loads and stores of the core: scalar, ordered, vector, remote blocks (R104-R115). -/

namespace Sys2Proof.Machine

/-! ### What is still on its way (R225) -/

/-- The class of the acknowledgement of a store. -/
def Home.ackClass : Home → AckClass
  | .mirror _ => .mirror
  | .global _ _ => .remote
  | _ => .home

/-- Is an earlier store of the current core of this class not yet acknowledged? -/
def State.pendingStore (s : State) (c : AckClass) : Bool :=
  s.core.sb.any (fun e => e.home.ackClass == c)
    || s.flying.any (fun f => f.core == s.core.num && f.entry.home.ackClass == c)
    || (s.acks ++ s.lost).any (fun a => a.core == s.core.num && a.cls == c)
    || (c == .rpost && s.terms.any fun t => t.src == .core s.core.num)
    || (c == .remote && !s.core.remoteStores.isEmpty)
    || (c == .mirror && ((s.layer (layerOf s.core.num)).mq ++ (s.sent.map (·.stores)).flatten).any
      fun m => m.core == s.core.num)

/-- R225: everything earlier is acknowledged at the scope. -/
def State.settled (s : State) (c : Scope) : Bool :=
  if c.code < 2 then true
  else !s.pendingStore .home && !s.pendingStore .rpost
    && (decide (c.code < 5) || !s.pendingStore .mirror)
    && (decide (c.code < 7) || !s.pendingStore .remote)

/-- Every earlier store has been performed at its home (R227), one to another package among them. -/
def State.performed (s : State) : Bool :=
  s.core.sb.isEmpty && !(s.flying.any fun f => f.core == s.core.num) && s.core.remoteStores.isEmpty

/-- Do two ranges of a package's space share a 64-byte line? -/
def sameLine (a n b m : Nat) : Bool :=
  decide (a / 64 ≤ (b + m - 1) / 64) && decide (b / 64 ≤ (a + n - 1) / 64)

/-- The parts of core c's copies that may be on their way to another package: package, address and length. -/
def Core.partsOut (c : Core) : List (Nat × Nat × Nat) :=
  (c.locks.toList.map fun l => match l with
    | some e =>
      if e.kind == .copy && bits e.dst.toNat 63 1 = 1 then
        e.asked.map fun p => (bits e.dst.toNat 53 10, bits e.dst.toNat 0 53 + 16 * p, 16)
      else []
    | none => []).flatten

/-- R332: has core c sent a store to a line of this range that is not acknowledged yet? -/
def Core.lineOut (c : Core) (pkg va n : Nat) : Bool :=
  (c.remoteStores ++ c.partsOut).any fun r => r.1 == pkg && sameLine va n r.2.1 r.2.2

/-- R230, R332: a store of core c to a line of this range is in its buffer, or has been sent and is not
acknowledged yet: a remote load of the line waits. -/
def Core.lineBusy (c : Core) (pkg va n : Nat) : Bool :=
  c.lineOut pkg va n || c.sb.any fun e => match e.home with
    | .global p v => p == pkg && sameLine va n v e.bytes.length
    | _ => false

/-- R230: this package's memory by its own global name: a store of the current core that goes there by space 0
has still to be performed. -/
def State.aliasBusy (s : State) (pkg : Nat) : Bool := pkg == s.pkg && s.ownStores.any fun e => e.home.paged

/-- R112: the bytes of a range of another package, where the core's own buffer holds every one. -/
def State.buffered (s : State) (pkg va n : Nat) : Option (List Byte) :=
  (List.range n).mapM fun i => forwarded s.core.sb (.global pkg (va + i))

/-! ### Remote loads (R108, R351) -/

/-- The lowest-numbered free response slot. -/
def Core.freeSlot (c : Core) : Option (Fin 8) :=
  (List.finRange 8).find? fun i => (c.slots[i]).isNone

/-- R214: the core of the ligature that queues an access to an address: the line's member. -/
def State.queueCore (s : State) (a : Word) : Nat :=
  let g := s.core.members.length + 1
  (s.core.num :: s.core.members).getD (Nat.xor (bits a.toNat 6 4) (bits a.toNat 10 4) % g) s.core.num

/-- R350: the cycles since a remote load was last ready and found no slot are counted. -/
def Core.countStall (tick : Nat) (c : Core) : Core :=
  { c with
    slotWait := none
    rstall := match c.slotWait with
      | some t => BitVec.ofNat 32 (Nat.min (2 ^ 32 - 1) (c.rstall.toNat + (Config.cycle tick - Config.cycle t).toNat))
      | none => c.rstall }

/-- R108, R351: take a slot and send the request; with none free, stall at issue and count the time. -/
def State.remote (s : State) (use : SlotUse) (a : Word) (n pkg va : Nat) (op : ReqOp)
    (k : State → Out) : Out :=
  let q := s.queueCore a
  let s := { s with core := s.core.countStall s.tick }
  match (s.getCore q).freeSlot with
  | none => .next { s.stall with core := { s.stall.core with slotWait := some s.tick } }
  | some i =>
    let slot : RSlot := { use := use, addr := a, size := n, pc := s.core.pc, npc := s.core.npc
                          x := s.core.x, a := s.core.a }
    let u := s.modCore q fun c => { c with slots := c.slots.set i.val (some slot) }
    let u := { u with core := { u.core with rorder := u.core.rorder ++ [(q, i)] } }
    k (u.sendRequest { pkg := pkg, srcPkg := s.pkg, ctx := s.core.ctx, core := q
                       slot := i.val, va := va, op := op })

/-- The same for the homes of a checked access, where they are in another package's space. -/
def State.checkSegs (s : State) (i : Nat) (a : Word) (n : Nat) (segs : List (Home × Nat)) (kind : Kind)
    (k : State → Out) : Out :=
  match segs with
  | (.global p va, _) :: _ => s.checkGlobal i a n p va kind false k
  | _ => k s

/-- The source of a post or a dispatch (R129, R184): its bytes are taken before anything else. Those of another
package are asked for first, once the instruction is `ready` and no own store to their line is on its way (R230,
R332); the range locks count behind what the package has found, and before poison (R104). A read of a register
that it changes changes it (R384). -/
def State.takeBytes (s : State) (align : Nat) (a : Word) (n : Nat) (ready : Bool)
    (k : State → List Byte → Out) : Out :=
  match s.spaceOf a.toNat with
  | .global p va =>
    s.access { align := align, locks := false } a n fun _ =>
      let locked (o : Out) : Out := match s.core.lockHit .load a.toNat n with
        | some (b, e) => s.refuse .load (.lock e (BitVec.ofNat 64 b))
        | none => o
      match s.core.progress with
      | .asked 0 (some [c, off]) =>
        if returned c == .poison then locked (s.trap .poison (a + BitVec.ofNat 64 off))
        else s.trap (returned c) (a + BitVec.ofNat 64 off)
      | .asked 0 (some [_, v, _, _]) => locked (k s (bytesOf n v))
      | .asked 0 (some _) => .next (s.restartFor (.remotePage (va / 2 ^ 21 * 2 ^ 21)))
      | .asked 0 none => .next s.stall
      | _ =>
        if !ready || s.core.lineBusy p va n || s.aliasBusy p then .next s.stall
        else
          let u := { s.stall with core := { s.stall.core with progress := .asked 0 none, asking := some p } }
          .next (u.sendRequest { pkg := p, srcPkg := s.pkg, ctx := s.core.ctx, core := s.core.num
                                 va := va, op := .fetch n })
  | _ => s.access { align := align } a n fun segs =>
    if !ready then .next (s.holdFor segs)
    else if s.mustWait segs then .next (s.waitFor segs) else k (s.loaded segs) (s.loadSegs segs)

/-- A remote read that the instruction at PC waits for: SPINW's. -/
def State.remoteWait (s : State) (use : SlotUse) (a : Word) (n pkg va : Nat) (op : ReqOp) : Out :=
  s.remote use a n pkg va op fun u =>
    .next ({ u with core := { u.core with rwait := true, watch := none } }).stall

/-- An outstanding remote access holds back every later access of the core: an atomic (R227), and a load
with acquire (R113). -/
def SlotUse.orders : SlotUse → Bool
  | .amo _ _ _ => true
  | .ld _ _ acq => acq
  | .ldHigh _ acq => acq
  | _ => false

/-- The local bytes that a GLD has still to write (R115). -/
def SlotUse.locals : SlotUse → Option (Nat × Nat)
  | .gld dst n => some (dst % 2 ^ 14, n)
  | _ => none

/-- What the current core's outstanding remote loads are for. -/
def State.outstanding (s : State) : List SlotUse :=
  (s.core.rorder.filterMap fun r => (s.getCore r.1).slots[r.2]).map (·.use)

/-- R113, R227: later accesses wait. -/
def State.orderedBack (s : State) : Bool := s.core.rwait || s.outstanding.any (·.orders)

/-- R115: the homes of an access touch bytes that an outstanding GLD has still to write. -/
def State.gldHolds (s : State) (segs : List (Home × Nat)) : Bool :=
  s.outstanding.any fun u => match u.locals with
    | some (b, m) => segs.any fun g => match g.1 with
      | .loc c a => c == s.core.num && (firstCommon a g.2 b m).isSome
      | _ => false
    | none => false

/-! ### Scalar loads -/

/-- The alignment of a load or store (R105): only LD, LDX, ST and STX take any byte address of space 2. -/
def State.loadAlign (s : State) (a : Word) (n : Nat) (always : Bool) : Nat :=
  match s.spaceOf a.toNat with
  | .loc _ => if always then n else 1
  | _ => n

/-- The registers a load writes (R106). -/
def loadRegs (d : XReg) : LdType → List Nat
  | .p => [d.val, d.val + 1]
  | _ => [d.val]

/-- The register after an even one. -/
def nextReg (d : XReg) : XReg := if h : d.val + 1 < 62 then ⟨d.val + 1, h⟩ else d

/-- Write a loaded value (R111). -/
def State.setLoad (s : State) (d : XReg) (t : LdType) (v : Nat) : State :=
  match t with
  | .p => (s.setX d (BitVec.ofNat 64 v)).setX (nextReg d) (BitVec.ofNat 64 (v / 2 ^ 64))
  | _ => s.setX d (extendLoad t v)

/-- R112, R230, R332: a load from another package. Bytes that all stand in the core's own buffer are
taken from there, once the package has granted the load (R104); a load of a line that an own store has
still to reach waits; any other takes a response slot, and the core goes on (R108, R352). -/
def State.loadGlobal (s : State) (d : XReg) (t : LdType) (a : Word) (acq : Bool) (pkg va : Nat) : Out :=
  let n := loadSize t
  let far (s : State) : Out :=
    if s.core.lineBusy pkg va n || s.aliasBusy pkg then .next s.stall
    else s.remote (.ld d t acq) a n pkg va (.read n) fun u => .next u.retire
  if s.core.progress = .none && (s.buffered pkg va n).isNone then far s
  else s.checkGlobal 0 a n pkg va .load false fun u => match u.buffered pkg va n with
    | some bs => .next (u.setLoad d t (ofBytes bs)).retire
    | none => far u

/-- R111: a load of a type from an address, its register checks made. Behind a remote load, space 4 is
not read: its read may change it (R384). -/
def State.loadFrom (s : State) (d : XReg) (t : LdType) (a : Word) (aligned acq : Bool) : Out :=
  let n := loadSize t
  if s.orderedBack then .next s.stall
  else s.access { align := s.loadAlign a n aligned } a n fun segs =>
    match segs with
    | (.global p va, _) :: _ => s.loadGlobal d t a acq p va
    | (.mmio _, _) :: _ =>
      if !s.core.rorder.isEmpty then .next (s.holdFor segs)
      else if s.mustWait segs then .next (s.waitFor segs)
      else .next ((s.loaded segs).setLoad d t (ofBytes (s.loadSegs segs))).retire
    | _ =>
      if s.gldHolds segs then .next (s.holdFor segs)
      else if s.mustWait segs then .next (s.waitFor segs)
      else .next (s.setLoad d t (ofBytes (s.loadSegs segs))).retire

/-- R111. -/
def execLd (d : XReg) (s : XSrc) (_ : BitVec 4) (t : LdType) (o : BitVec 6) (st : State) : Out :=
  st.guard (loadRegs d t ++ s.regs) s.cells
    (st.loadFrom d t (st.src s + sext 6 o * BitVec.ofNat 64 (loadSize t)) false false)
def execLdx (d : XReg) (s r : XSrc) (k : Bool) (t : LdType) (st : State) : Out :=
  st.guard (loadRegs d t ++ s.regs ++ r.regs) (s.cells ++ r.cells)
    (st.loadFrom d t
      (st.src s + (if k then st.src r * BitVec.ofNat 64 (loadSize t) else st.src r)) false false)
/-- R113: an acquire holds back later accesses until the load has its value. -/
def execLda (d : XReg) (s : XSrc) (_ : Scope) (t : LdType) (q _ : Bool) (o : BitVec 4)
    (st : State) : Out :=
  st.guard (loadRegs d t ++ s.regs) s.cells
    (st.loadFrom d t (st.src s + sext 4 o * BitVec.ofNat 64 (loadSize t)) true q)

/-! ### Scalar stores -/

/-- The registers a store reads its data from (R106). -/
def storeRegs (d : XSrc) (w : StWidth) : List Nat :=
  match w, d with
  | .p, .reg r => [r.val, r.val + 1]
  | _, _ => d.regs
def storeCells (d : XSrc) (w : StWidth) : List Nat := (storeRegs d w).map cellX

/-- The bytes a store writes (R112). -/
def State.storeData (s : State) (d : XSrc) (w : StWidth) : List Byte :=
  match w, d with
  | .p, .reg r => bytesOf 8 (s.rx r).toNat ++ bytesOf 8 (s.rx (nextReg r)).toNat
  | _, _ => bytesOf (storeSize w) (s.src d).toNat

/-- The checks of a store of `n` bytes (R104, R105). -/
def State.storeAccess (s : State) (a : Word) (n : Nat) (always : Bool) : Access :=
  { kind := .store, align := s.loadAlign a n always }

/-- R112: a store to an address, its register checks made. -/
def State.storeTo (s : State) (d : XSrc) (w : StWidth) (a : Word) (aligned : Bool) : Out :=
  s.access (s.storeAccess a (storeSize w) aligned) a (storeSize w) fun segs =>
    s.checkSegs 0 a (storeSize w) segs .store fun s =>
      .next ((s.push a segs (s.storeData d w)).retireStore segs)

def execSt (d s : XSrc) (w : StWidth) (o : BitVec 10) (st : State) : Out :=
  st.guard (storeRegs d w ++ s.regs) (storeCells d w ++ s.cells)
    (st.storeTo d w (st.src s + sext 10 o * BitVec.ofNat 64 (storeSize w)) false)
def execStx (d s r : XSrc) (k : Bool) (w : StWidth) (st : State) : Out :=
  st.guard (storeRegs d w ++ s.regs ++ r.regs) (storeCells d w ++ s.cells ++ r.cells)
    (st.storeTo d w
      (st.src s + (if k then st.src r * BitVec.ofNat 64 (storeSize w) else st.src r)) false)
/-- R113: a release performs once everything earlier is acknowledged at its scope. -/
def execStl (d s : XSrc) (c : Scope) (w : StWidth) (q _ : Bool) (o : BitVec 4) (st : State) : Out :=
  st.guard (storeRegs d w ++ s.regs) (storeCells d w ++ s.cells)
    (let addr := st.src s + sext 4 o * BitVec.ofNat 64 (storeSize w)
     st.access (st.storeAccess addr (storeSize w) true) addr (storeSize w) fun segs =>
       if q && !st.settled c then .next st.stall
       else st.checkSegs 0 addr (storeSize w) segs .store fun st =>
         .next ((st.push addr segs (st.storeData d w)).retireStore segs))

/-! ### Vector memory (R114) -/

/-- Write a vector register. -/
def State.setV (s : State) (d : VReg) (v : Vector Lane 64) : State :=
  ({ s with core := { s.core with v := s.core.v.set d.val v } }).unpoison (cellV d.val)

/-- R138: the mask register of an instruction, as read; without one every lane is active. -/
def State.mask (s : State) (m : Mask) : Word :=
  match m with
  | none => BitVec.allOnes 64
  | some r => s.core.m[r]
def maskCells (m : Mask) : List Nat :=
  match m with
  | none => []
  | some r => [cellM r.val]

/-- R114: the address of a lane. -/
def State.laneAddr (s : State) (m : VMode) (i : Nat) : Word :=
  match m with
  | .contiguous b => s.src b + BitVec.ofNat 64 (4 * i)
  | .strided b t => s.src b + BitVec.ofNat 64 i * s.src t
  | .indexed v b => s.src b + ((s.core.v[v]).toList.getD i 0).zeroExtend 64

def modeRegs : VMode → List Nat
  | .contiguous b => b.regs
  | .strided b t => b.regs ++ t.regs
  | .indexed _ b => b.regs
def modeCells : VMode → List Nat
  | .contiguous b => b.cells
  | .strided b t => b.cells ++ t.cells
  | .indexed v b => cellV v.val :: b.cells

/-- The active lanes with their addresses. -/
def State.lanes (s : State) (m : VMode) (k : Mask) : List (Nat × Word) :=
  ((List.range 64).filter fun i => (s.mask k).getLsbD i).map fun i => (i, s.laneAddr m i)

/-- The lanes of a load put into a vector. -/
def putLanes (v : Vector Lane 64) : List (Nat × Nat) → Vector Lane 64
  | [] => v
  | (i, x) :: t => putLanes (v.setIfInBounds i (BitVec.ofNat 32 x)) t

def execVld (d : VReg) (m : VMode) (k : Mask) (st : State) : Out :=
  st.guard (modeRegs m) (modeCells m ++ maskCells k)
    (st.vmu
      (let ls := st.lanes m k
       st.accesses { allow := .noGlobal, align := 4 } (ls.map fun l => (l.2, 4)) fun gs =>
         if gs.any st.mustWait then .next (st.waitFor gs.flatten)
         else
           let vals := (ls.map (·.1)).zip (gs.map fun g => ofBytes (st.loadSegs g))
           .next ((gs.foldl State.loaded st).setV d (putLanes st.core.v[d] vals)).retire))

/-- The stores of the lanes, lowest lane first, so that the highest remains (R114). -/
def State.pushAll (s : State) : List ((Word × List (Home × Nat)) × List Byte) → State
  | [] => s
  | ((a, g), b) :: t => (s.push a g b).pushAll t

/-- R114: the consecutive lanes of mode 0 are stored together; the access is one, whatever its mask. -/
def joinLanes : List ((Word × List (Home × Nat)) × List Byte) → List ((Word × List (Home × Nat)) × List Byte)
  | [] => []
  | x :: t => match joinLanes t with
    | y :: u => (match x.1.2, y.1.2 with
        | [(h, n)], (h', n') :: gs =>
          if h.plus n = h' && y.1.1 == x.1.1 + BitVec.ofNat 64 n then
            ((x.1.1, (h, n + n') :: gs), x.2 ++ y.2) :: u
          else x :: y :: u
        | _, _ => x :: y :: u)
    | [] => [x]

/-- R251: the entries of one store to space 3 enter the mirror queue together. -/
def chained : List SbEntry → List SbEntry
  | [] => []
  | [e] => [e]
  | e :: t => (match e.home with
    | .mirror _ => { e with more := true }
    | _ => e) :: chained t

/-- The entries of the buffer behind the first `k` are of one store. -/
def State.chain (s : State) (k : Nat) : State :=
  { s with core := { s.core with sb := s.core.sb.take k ++ chained (s.core.sb.drop k) } }

def oneAccess : VMode → Bool
  | .contiguous _ => true
  | _ => false

def execVst (d : VReg) (m : VMode) (k : Mask) (st : State) : Out :=
  st.guard (modeRegs m) (cellV d.val :: (modeCells m ++ maskCells k))
    (st.vmu
      (let ls := st.lanes m k
       st.accesses { kind := .store, allow := .noGlobal, align := 4 } (ls.map fun l => (l.2, 4))
         fun gs =>
           let data := ls.map fun l => bytesOf 4 ((st.core.v[d]).toList.getD l.1 0).toNat
           let stores := ((ls.map (·.2)).zip gs).zip data
           .next ((if oneAccess m then (st.pushAll (joinLanes stores)).chain st.core.sb.length
             else st.pushAll stores).retireStore gs.flatten)))

/-! ### Remote blocks (R115) -/

/-- 16, 32, 64 or 128 bytes. -/
def blockSize (z : BitVec 2) : Nat := 16 * 2 ^ z.toNat

/-- The local-memory side must lie in space 2. -/
def State.localSide (s : State) (a : Word) (k : Out) : Out :=
  match s.spaceOf a.toNat with
  | .loc _ => k
  | _ => s.trap .addr a

def execGld (d s : XSrc) (_ : BitVec 4) (z : BitVec 2) (st : State) : Out :=
  st.guard (d.regs ++ s.regs) (d.cells ++ s.cells)
    (let n := blockSize z
     let dst := st.src d
     let src := st.src s
     st.localSide dst
       (st.access { align := n } src n fun gs =>
         st.access { kind := .store, align := n } dst n fun gd =>
           if st.orderedBack || st.gldHolds (gs ++ gd) then .next st.stall
           else match gs with
           | (.global p va, _) :: _ =>
             if st.core.lineBusy p va n || st.aliasBusy p then .next st.stall
             else st.remote (.gld dst.toNat n) src n p va (.read n) fun u => .next u.retire
           | (.mmio _, _) :: _ =>
             if !st.core.rorder.isEmpty then .next (st.holdFor gs)
             else if st.mustWait gs then .next (st.waitFor gs)
             else .next ((st.loaded gs).push dst gd (st.loadSegs gs)).retire
           | _ =>
             if st.mustWait gs then .next (st.waitFor gs)
             else .next (st.push dst gd (st.loadSegs gs)).retire))

def execGst (s t : XSrc) (z : BitVec 2) (r : Bool) (st : State) : Out :=
  st.guard (s.regs ++ t.regs) (s.cells ++ t.cells)
    (let n := blockSize z
     let dst := st.src s
     let src := st.src t
     st.localSide src
       (st.access { align := n } src n fun gs =>
         st.access { kind := .store, align := n } dst n fun gd =>
           if r && !st.settled .system then .next st.stall
           else st.checkSegs 0 dst n gd .store fun st =>
             .next ((st.push dst gd (st.loadSegs gs)).retireStore gd)))

end Sys2Proof.Machine
end

