-- ==== Sys2Proof/Machine/Amo.lean ====
section
/-! DEFINITION. Atomics and bank operations (R116, R117, R227). -/

namespace Sys2Proof.Machine

/-- The members of AMO, by op code (R116). -/
def amoOp (op n old b e : Nat) : Nat :=
  let so := toS (8 * n) old
  let sb := toS (8 * n) b
  match op with
  | 0 => b
  | 1 => (old + b) % 2 ^ (8 * n)
  | 2 => Nat.land old b
  | 3 => Nat.lor old b
  | 4 => Nat.xor old b
  | 5 => if so ≤ sb then old else b
  | 6 => if so ≤ sb then b else old
  | 7 => if old ≤ b then old else b
  | 8 => if old ≤ b then b else old
  | 9 => if old = e then b else old
  | _ => fmtF32.addC .rne old b

/-- R116: zero extension for MINU, MAXU and FADD, sign extension for the others. -/
def amoExtend (op n old : Nat) : Word :=
  if op = 7 || op = 8 || op = 10 then BitVec.ofNat 64 old else BitVec.ofInt 64 (toS (8 * n) old)

/-- R116: read, modify and write at a home of this package as one step; the old value. -/
def State.amoHome (s : State) (h : Home) (op n b e : Nat) : Nat × State :=
  let old := ofBytes ((List.range n).map fun i => s.homeByte (layerOf s.core.num) (h.plus i))
  (old, s.storeHome h (bytesOf n (amoOp op n old b e)))

/-- An atomic that waits, or whose request is lost; where its answer is lost, it has been performed (R247). -/
def State.amoLost (s : State) (segs : List (Home × Nat)) (op n b e : Nat) : State :=
  match segs with
  | (h, _) :: _ => (if s.answerLate segs then (s.amoHome h op n b e).2 else s).waitFor segs
  | [] => s.waitFor segs

/-- R116, R227: an atomic waits for the core's earlier stores to be performed, and with REL for
everything to be acknowledged at SYSTEM; it is a region mark (R109). -/
def State.amo (st : State) (op : Nat) (d : XReg) (s t : XSrc) (w r : Bool) : Out :=
  let n := if w then 8 else 4
  st.guard (d.val :: (s.regs ++ t.regs))
    ((if op = 9 then [cellX d.val] else []) ++ s.cells ++ t.cells)
     (let a := st.src s
      let b := (st.src t).toNat % 2 ^ (8 * n)
      let e := (st.rx d).toNat % 2 ^ (8 * n)
      st.access { kind := .atomic, allow := .noMirrorMmio, align := n } a n fun segs =>
        if !st.performed || (r && !st.settled .system) then .next (st.holdFor segs)
        else if st.mustWait segs then .next (st.amoLost segs op n b e)
        else match segs with
          | (.global p va, _) :: _ =>
            st.remote (.amo d w (op = 7 || op = 8 || op = 10)) a n p va (.amo op n b e) fun u => .next u.retire
          | (h, _) :: _ =>
            -- the atomic reads its bytes: poison stops it (R356)
            match st.poisonHit [] h n with
            | some i => st.trap .poison (a + BitVec.ofNat 64 i)
            | none =>
              let r := st.amoHome h op n b e
              .next (r.2.setX d (amoExtend op n r.1)).retireMark
          | [] => .next st.stall)

def execAmoSwap (d : XReg) (s t : XSrc) (w _ r : Bool) (st : State) : Out := st.amo 0 d s t w r
def execAmoAdd (d : XReg) (s t : XSrc) (w _ r : Bool) (st : State) : Out := st.amo 1 d s t w r
def execAmoAnd (d : XReg) (s t : XSrc) (w _ r : Bool) (st : State) : Out := st.amo 2 d s t w r
def execAmoOr (d : XReg) (s t : XSrc) (w _ r : Bool) (st : State) : Out := st.amo 3 d s t w r
def execAmoXor (d : XReg) (s t : XSrc) (w _ r : Bool) (st : State) : Out := st.amo 4 d s t w r
def execAmoMin (d : XReg) (s t : XSrc) (w _ r : Bool) (st : State) : Out := st.amo 5 d s t w r
def execAmoMax (d : XReg) (s t : XSrc) (w _ r : Bool) (st : State) : Out := st.amo 6 d s t w r
def execAmoMinu (d : XReg) (s t : XSrc) (w _ r : Bool) (st : State) : Out := st.amo 7 d s t w r
def execAmoMaxu (d : XReg) (s t : XSrc) (w _ r : Bool) (st : State) : Out := st.amo 8 d s t w r
def execAmoCas (d : XReg) (s t : XSrc) (w _ r : Bool) (st : State) : Out := st.amo 9 d s t w r
def execAmoFadd (d : XReg) (s t : XSrc) (_ r : Bool) (st : State) : Out := st.amo 10 d s t false r

/-! ### BKOP (R117) -/

/-- The words of a bank operation. -/
def State.bankWords (s : State) (segs : List (Home × Nat)) (n : Nat) : List Nat :=
  let bs := s.loadSegs segs
  (List.range n).map fun i => ofBytes ((bs.drop (4 * i)).take 4)

/-- R117's own conditions: space 1, 4-byte aligned, at most 4,096 words within one vault. -/
def State.bankOk (s : State) (a n : Word) : Bool :=
  match s.spaceOf a.toNat with
  | .vault off => decide (a.toNat % 4 = 0) && decide (n.toNat ≤ 4096)
      && decide (off % 2 ^ 21 + 4 * n.toNat ≤ 2 ^ 21)
  | _ => false

/-- The exact sum of FP32 values, or its special case (R117). -/
def sumF32 (ws : List Nat) : FV :=
  ws.foldl (fun a w => FV.add .rne a (fmtF32.value w)) (.fin false 0 0)

/-- The index of the first element that no other beats. -/
def argBest (better : Int → Int → Bool) : List Int → Nat → Option (Int × Nat) → Option (Int × Nat)
  | [], _, r => r
  | x :: t, i, none => argBest better t (i + 1) (some (x, i))
  | x :: t, i, some (y, j) => argBest better t (i + 1) (if better x y then some (x, i) else some (y, j))

/-- The result of each reducing member. -/
def bankResult (fn : Nat) (ws : List Nat) : Word :=
  let si := ws.map (toS 32)
  match fn with
  | 0 => BitVec.ofInt 64 si.sum
  | 1 => if ws.isEmpty then 0 else codeW (fmtF32.ofFV .rne (sumF32 ws)).code
  | 2 => BitVec.ofInt 64 (si.foldl min (2 ^ 31 - 1))
  | 3 => BitVec.ofInt 64 (si.foldl max (-(2 ^ 31)))
  | 4 => codeW (ws.foldl fmtF32.minC (fmtF32.inf false))
  | 5 => codeW (ws.foldl fmtF32.maxC (fmtF32.inf true))
  | 6 => match argBest (fun x y => decide (x < y)) si 0 none with
    | some (_, i) => BitVec.ofNat 64 i
    | none => BitVec.allOnes 64
  | _ => match argBest (fun x y => decide (y < x)) si 0 none with
    | some (_, i) => BitVec.ofNat 64 i
    | none => BitVec.allOnes 64

/-- A reducing member. The banks read memory itself, once every earlier store of the core is performed
(R278). -/
def State.bkop (st : State) (fn : Nat) (d : XReg) (s t : XSrc) : Out :=
  st.guard (d.val :: (s.regs ++ t.regs)) (s.cells ++ t.cells)
    (let a := st.src s
     if !st.bankOk a (st.src t) then st.trap .addr a
     else
       let n := (st.src t).toNat
       st.access {} a (4 * n) fun segs =>
         if !st.performed then .next (st.holdFor segs)
         else if st.mustWait segs then .next (st.waitFor segs)
         else .next (st.setX d (bankResult fn (st.bankWords segs n))).retire)

def execBkopSumS32 (d : XReg) (s t : XSrc) (st : State) : Out := st.bkop 0 d s t
def execBkopSumF32 (d : XReg) (s t : XSrc) (st : State) : Out := st.bkop 1 d s t
def execBkopMinS32 (d : XReg) (s t : XSrc) (st : State) : Out := st.bkop 2 d s t
def execBkopMaxS32 (d : XReg) (s t : XSrc) (st : State) : Out := st.bkop 3 d s t
def execBkopMinF32 (d : XReg) (s t : XSrc) (st : State) : Out := st.bkop 4 d s t
def execBkopMaxF32 (d : XReg) (s t : XSrc) (st : State) : Out := st.bkop 5 d s t
def execBkopArgminS32 (d : XReg) (s t : XSrc) (st : State) : Out := st.bkop 6 d s t
def execBkopArgmaxS32 (d : XReg) (s t : XSrc) (st : State) : Out := st.bkop 7 d s t

/-- `n` copies of a word. -/
def repeatWord (n : Nat) (w : List Byte) : List Byte := (List.replicate n w).flatten

/-- Stores performed at their homes, in order. -/
def State.storeRuns (s : State) : List (Home × Nat) → List Byte → State
  | [], _ => s
  | (h, n) :: t, bs => (s.storeHome h (bs.take n)).storeRuns t (bs.drop n)

/-- R117, R278: the fill stands after every earlier access of the core and before every later one: it is
performed in its own step, once the earlier stores are. -/
def execBkopFill (d s t : XSrc) (st : State) : Out :=
  st.guard (d.regs ++ s.regs ++ t.regs) (d.cells ++ s.cells ++ t.cells)
    (let a := st.src s
     if !st.bankOk a (st.src t) then st.trap .addr a
     else
       let n := (st.src t).toNat
       st.access { kind := .store } a (4 * n) fun segs =>
         let filled (st : State) : State := st.storeRuns segs (repeatWord n (bytesOf 4 (st.src d).toNat))
         if !st.performed then .next (st.holdFor segs)
         else if st.mustWait segs then .next ((if st.answerLate segs then filled st else st).waitFor segs)
         else .next (filled st).retire)

end Sys2Proof.Machine
end

