-- ==== Sys2Proof/Machine/Branch.lean ====
section
/-! DEFINITION. Branches, the counted loop, jumps and calls (R90-R93). -/

namespace Sys2Proof.Machine

/-- R53: the target of a word offset from the instruction's own address. -/
def State.target (s : State) (off : Word) : Word := s.core.pc + off * 4#64

/-- The instruction is done and goes to an address. -/
def State.goto (s : State) (a : Word) : State :=
  ({ s with core := { s.core with npc := a } }).retire

/-- R90: a conditional branch. -/
def State.branch (st : State) (s t : XSrc) (o : BitVec 13) (c : Word → Word → Bool) : Out :=
  st.guard (s.regs ++ t.regs) (s.cells ++ t.cells)
    (.next (if c (st.src s) (st.src t) then st.goto (st.target (sext 13 o)) else st.retire))

def execBeq (s t : XSrc) (o : BitVec 13) (st : State) : Out := st.branch s t o fun a b => a == b
def execBne (s t : XSrc) (o : BitVec 13) (st : State) : Out := st.branch s t o fun a b => a != b
def execBlt (s t : XSrc) (o : BitVec 13) (st : State) : Out := st.branch s t o fun a b => a.slt b
def execBge (s t : XSrc) (o : BitVec 13) (st : State) : Out := st.branch s t o fun a b => !a.slt b

/-- R91. -/
def execLoop (s : XReg) (o : BitVec 13) (st : State) : Out :=
  st.guard [s.val] [cellX s.val]
    (let n := st.rx s - 1
     let u := st.setX s n
     .next (if n != 0 then u.goto (st.target (sext 13 o)) else u.retire))

/-- R92. -/
def execJ (o : BitVec 25) (st : State) : Out := .next (st.goto (st.target (sext 25 o)))

/-- R38: the link shadow. -/
def State.setLink (s : State) (a : Word) : State := { s with core := { s.core with link := a } }

/-- R92: the link register is x1. -/
def execCall (o : BitVec 25) (st : State) : Out :=
  st.guard [1] []
    (.next (((st.setX 1 (st.core.pc + 4)).setLink (st.core.pc + 4)).goto (st.target (sext 25 o))))

/-- R93: an indirect target must be word aligned. -/
def State.indirect (st : State) (target : Word) (k : Out) : Out :=
  if target.toNat % 4 ≠ 0 then st.trap .align target else k

def execJr (s : XSrc) (st : State) : Out :=
  st.guard s.regs s.cells (st.indirect (st.src s) (.next (st.goto (st.src s))))
def execJalr (d : XReg) (s : XSrc) (st : State) : Out :=
  st.guard (d.val :: s.regs) s.cells (st.indirect (st.src s)
    (.next (((st.setX d st.core.npc).setLink st.core.npc).goto (st.src s))))
/-- RET differs from JR only in prediction. -/
def execRet (s : XSrc) (st : State) : Out :=
  st.guard s.regs s.cells (st.indirect (st.src s) (.next (st.goto (st.src s))))

end Sys2Proof.Machine
end

