-- ==== Sys2Proof/Machine/Copy.lean ====
section
/-! DEFINITION. Copies, range locks and streams (R122-R126). -/

namespace Sys2Proof.Machine

/-- A free range-lock entry (R122, R126): the lowest-numbered one (DESIGN CHOICE, log entry 104). -/
def Core.freeLock (c : Core) : Option (Fin 16) :=
  (List.finRange 16).find? fun i => (c.locks[i]).isNone

def State.setLock (s : State) (i : Fin 16) (e : Option LockEntry) : State :=
  { s with core := { s.core with locks := s.core.locks.set i.val e } }

/-- R124: a stream becomes unbound; its copy runs on with its elements discarded. -/
def State.unbind (s : State) (i : SReg) : State :=
  let locks := s.core.locks.map fun e => e.map fun k =>
    match k.kind with
    | .stream (some j) w => if j = i then { k with kind := CopyKind.stream none w } else k
    | _ => k
  { s with core := { s.core with s := s.core.s.set i.val none, locks := locks } }

/-- The control block of a copy (R122). -/
structure CopyBlock where
  dst : Nat
  src : Nat
  len : Nat
  flg : Nat
  pad : Nat
  deriving DecidableEq, Repr

def copyBlock (bs : List Byte) : CopyBlock :=
  { dst := ofBytes (bs.take 8), src := ofBytes ((bs.drop 8).take 8)
    len := ofBytes ((bs.drop 16).take 4), flg := ofBytes ((bs.drop 20).take 4)
    pad := ofBytes (bs.drop 24) }

/-- The control block lies in space 2, 32-byte aligned, and is read at issue as a load. -/
def State.readBlock (s : State) (a : Word) (k : List Byte → Out) : Out :=
  match s.spaceOf a.toNat with
  | .loc _ =>
    if a.toNat % 32 ≠ 0 then s.trap .addr a
    else s.access {} a 32 fun segs => k (s.loadSegs segs)
  | _ => s.trap .addr a

/-- R122: steps 1, 3 and 4 of R104 over a range. -/
def State.checkRange (s : State) (i : Nat) (k : Kind) (a : Word) (n : Nat) (c : State → Out) : Out :=
  s.access { kind := k, locks := false, data := false } a n fun segs =>
    s.checkSegs i a n segs k c

/-- R122: COPY. Element-width bits have no meaning here and are ignored. -/
def execCopy (d : XReg) (s : XSrc) (st : State) : Out :=
  st.guard (d.val :: s.regs) s.cells
    (let x := st.src s
     st.readBlock x fun bs =>
       let b := copyBlock bs
       if b.pad ≠ 0 || b.flg / 4 ≠ 0 || b.len = 0 || decide (2 ^ 24 < b.len) then st.trap .addr x
       else if (firstCommon b.src b.len b.dst b.len).isSome then
         st.trap .addr (BitVec.ofNat 64 b.dst)
       else
         st.checkRange 0 .load (BitVec.ofNat 64 b.src) b.len fun st =>
           st.checkRange 1 .store (BitVec.ofNat 64 b.dst) b.len fun st =>
             (match st.core.freeLock with
              | none => .next st.stall
              | some e =>
                .next ((st.setLock e (some
                  { kind := .copy, src := BitVec.ofNat 64 b.src, dst := BitVec.ofNat 64 b.dst
                    len := b.len })).setX d (BitVec.ofNat 64 e.val)).retire))

/-- R122: COPYS. FLG[1:0] gives the element width. -/
def execCopys (d : SReg) (s : XSrc) (st : State) : Out :=
  st.guard s.regs s.cells
    (let x := st.src s
     st.readBlock x fun bs =>
       let b := copyBlock bs
       let w := 2 ^ (b.flg % 4)
       if b.pad ≠ 0 || b.flg / 4 ≠ 0 || b.len = 0 || decide (2 ^ 24 < b.len) then st.trap .addr x
       else if b.dst ≠ 0 || b.len % w ≠ 0 then st.trap .addr x
       else
         st.checkRange 0 .load (BitVec.ofNat 64 b.src) b.len fun st =>
           (match st.core.freeLock with
            | none => .next st.stall
            | some e =>
              let u := (st.unbind d).setLock e (some
                { kind := .stream (some d) w, src := BitVec.ofNat 64 b.src, dst := 0, len := b.len })
              .next (u.setStream d (some
                { entry := some e, start := b.src, width := w, count := b.len / w })).retire))

/-- R123: SBIND. -/
def execSbind (d : SReg) (s t : XSrc) (w : BitVec 2) (st : State) : Out :=
  st.guard (s.regs ++ t.regs) (s.cells ++ t.cells)
    (let a := st.src s
     let n := (st.src t).toNat
     let width := 2 ^ w.toNat
     let bound : Out := .next ((st.unbind d).setStream d (some
       { entry := none, start := a.toNat, width := width, count := n })).retire
     if n = 0 then
       -- an empty range holds no byte to check: only its start
       match st.spaceOf a.toNat with
       | .loc _ => if a.toNat % width ≠ 0 then st.trap .align a else bound
       | _ => st.trap .addr a
     else
       st.access { allow := .onlyLoc, align := width, data := false } a (n * width) fun _ => bound)

def execSctlUnbind (d : SReg) (st : State) : Out :=
  match st.core.s[d] with
  | none => st.ill
  | some _ => .next (st.unbind d).retire

/-- R124: SKIP waits for each element as a read would; the position moves when it completes, and
an instruction that traps leaves it where it was (R102). A poisoned element of a copy raises POISON; the
elements of a bound range are not read, and their poison is not looked at (DESIGN CHOICE, log entry
81). ILL comes before REGIDX (R57). -/
def execSctlSkip (d : SReg) (t : XSrc) (st : State) : Out :=
  match st.core.s[d] with
  | none => st.ill
  | some u =>
    st.guard t.regs t.cells
      (let n := Nat.min (st.src t).toNat u.left
       match u.entry with
       | none => .next (st.setStream d (some { u with pos := u.pos + n })).retire
       | some _ =>
         let m := Nat.min (n - u.skipped) u.buf.length
         match (u.buf.take m).findIdx? (·.isNone) with
         | some i => (st.setStream d (some u.unskip)).trap .poison
             (BitVec.ofNat 64 (u.start + u.width * (u.pos + u.skipped + i)))
         | none =>
           let v := { u with buf := u.buf.drop m, back := u.back ++ u.buf.take m }
           if n ≤ u.skipped + m then
             .next (st.setStream d (some { v with pos := u.pos + n, skipped := 0 })).retire
           else .next (st.setStream d (some { v with skipped := u.skipped + m })).stall)

def execSctlPos (d : XReg) (s : SReg) (st : State) : Out :=
  st.guard [d.val] []
    (.next (st.setX d (BitVec.ofNat 64 ((st.core.s[s].map (·.pos)).getD 0))).retire)
def execSctlLeft (d : XReg) (s : SReg) (st : State) : Out :=
  st.guard [d.val] []
    (.next (st.setX d (BitVec.ofNat 64 ((st.core.s[s].map (·.left)).getD 0))).retire)

/-- R125. -/
def execWaitr (s : XSrc) (st : State) : Out :=
  st.guard s.regs s.cells
    (if (st.core.locks[(st.src s).toNat % 16]'(Nat.mod_lt _ (by decide))).isNone then .next st.retire
     else .next st.stall)
def execWaitrAll (st : State) : Out :=
  if st.core.locks.toList.all (·.isNone) then .next st.retire else .next st.stall

end Sys2Proof.Machine
end

