-- ==== Sys2Proof/Machine/Order.lean ====
section
/-! DEFINITION. Fences, waiting on a line, region marks and pre-translation (R118-R121). -/

namespace Sys2Proof.Machine

/-- R118: every earlier store of a scope that is not settled holds the fence; earlier loads have
their values before the fence issues. -/
def execFenceFull (c : Scope) (st : State) : Out :=
  if st.settled c then .next st.retire else .next st.stall
def execFenceAcq (_ : Scope) (st : State) : Out := .next st.retire
def execFenceRel (c : Scope) (st : State) : Out :=
  if st.settled c then .next st.retire else .next st.stall

/-- The 64-byte line of a home. -/
def Home.line : Home → Home
  | .vault o => .vault (o / 64 * 64)
  | .hbm o => .hbm (o / 64 * 64)
  | .loc c o => .loc c (o / 64 * 64)
  | .mirror o => .mirror (o / 64 * 64)
  | .mmio o => .mmio (o / 64 * 64)
  | .global p o => .global p (o / 64 * 64)

/-- R119: park on a line, the watch armed with the read. -/
def State.parkSpin (s : State) (h : Home) (e : Nat) : State :=
  let u := s.park (.spinw e)
  { u with core := { u.core with watch := some (h.line, false) } }

/-- R119. -/
def execSpinw (d : XReg) (s : XSrc) (_ : BitVec 4) (e : BitVec 5) (st : State) : Out :=
  st.guard (d.val :: s.regs) (cellX d.val :: s.cells)
    (if st.core.rwait || st.frameWait then .next st.stall
     else
      let a := st.src s
      st.access { allow := .noLocMmio, align := 8 } a 8 fun segs =>
        match segs with
        | (.global p va, _) :: _ =>
          if st.core.lineBusy p va 8 || st.aliasBusy p then .next st.stall
          else st.remoteWait (.spinw d e.toNat) a 8 p va (.read 8)
        | (h, _) :: _ =>
          if st.mustWait segs then .next (st.waitFor segs)
          else
            let v := BitVec.ofNat 64 (ofBytes (st.loadSegs segs))
            if st.core.woken || v != st.rx d then
              let u := st.setX d v
              .next ({ u with core := { u.core with woken := false } }).retire
            else .next (st.parkSpin h e.toNat)
        | [] => .next st.stall)

/-- R120. -/
def execRegion (st : State) : Out := .next st.retireMark

/-- R121: steps 1, 3 and 4 of R104, and a pin on a translated page. A page that migrates waits
(R322). -/
def execTouch (s : XSrc) (w : Bool) (o : BitVec 12) (st : State) : Out :=
  st.guard s.regs s.cells
    (let a := st.src s + sext 12 o
     st.access { kind := if w then .store else .load, locks := false, data := false } a 1 fun segs =>
       match st.spaceOf a.toNat, segs with
       | .virt va, _ =>
         match st.walk (st.pageKey va).1 (st.pageKey va).2 with
         | .hit t f => if pteMig (st.pte t f) then .next st.stall
             else .next (st.pin (st.pageKey va)).retire
         | _ => .next (st.askWalk (if w then .store else .load) (va / 2 ^ 21) va)
       | .global p va, _ => st.checkGlobal 0 a 1 p va (if w then .store else .load) true fun st =>
           .next (st.keepPin (p + 1, st.core.ctx, va / 2 ^ 21)).retire
       | _, _ => .next st.retire)

end Sys2Proof.Machine
end

