-- ==== Sys2Proof/Machine/Vector.lean ====
section
/-! DEFINITION. Vector arithmetic, masks, moving and reducing lanes (R138-R146). A VMU operation is
described once, as what it reads and what it does to the state, and is run either by the instruction
itself or by a pass of a repeat frame (R61). -/

namespace Sys2Proof.Machine

/-- The vector lanes or the mask register that a VMU operation writes: those of the snapshot (R110). -/
inductive VDst where
  | none
  /-- the active lanes of a vector -/
  | lanes (d : VReg) (m : Mask)
  | mask (d : MReg)
  deriving DecidableEq, Repr

/-- A VMU operation: the cells of the registers it reads (R135), what it writes of the vector and mask
registers, whether it is committing (R137), whether it needs the array rather than a lane group (R203), and
its effect or the fault that stops it. -/
structure VOp where
  cells : List Nat
  dst : VDst := .none
  commit : Bool := false
  array : Bool := false
  run : State → Except Check State

/-- An operation that raises no trap. -/
def VOp.pure (cells : List Nat) (dst : VDst) (f : State → State) : VOp :=
  { cells := cells, dst := dst, run := fun s => .ok (f s) }

/-- The instruction: in program order after every frame (R61), with its resource (R203); a committing one
closes its region. -/
def State.issue (st : State) (o : VOp) : Out :=
  st.guard [] o.cells (st.vmuUse o.array fun st =>
    match o.run st with
    | .ok u => .next (if o.commit then u.retireMark else u.retire)
    | .error c => st.refuse .load c)

/-! ### Lanes -/

abbrev Lanes := Vector Lane 64

/-- R138: every active lane of the destination is computed, the others keep their value. -/
def State.setLanes (s : State) (d : VReg) (m : Mask) (f : Fin 64 → Lane) : State :=
  let k := s.mask m
  s.setV d (Vector.ofFn fun i => if k.getLsbD i.val then f i else s.core.v[d][i])

def lane3 (d a b : VReg) (m : Mask) (f : Lane → Lane → Lane) : VOp :=
  .pure ([cellV a.val, cellV b.val] ++ maskCells m) (.lanes d m) fun s =>
    s.setLanes d m fun i => f s.core.v[a][i] s.core.v[b][i]
/-- The destination is a source too. -/
def lane4 (d a b : VReg) (m : Mask) (f : Lane → Lane → Lane → Lane) : VOp :=
  .pure ([cellV d.val, cellV a.val, cellV b.val] ++ maskCells m) (.lanes d m) fun s =>
    s.setLanes d m fun i => f s.core.v[d][i] s.core.v[a][i] s.core.v[b][i]
def lane2 (d a : VReg) (m : Mask) (f : Lane → Lane) : VOp :=
  .pure (cellV a.val :: maskCells m) (.lanes d m) fun s => s.setLanes d m fun i => f s.core.v[a][i]

/-- Saturation (R68). -/
def satS (i : Int) : Lane := BitVec.ofInt 32 (clampI (-(2 ^ 31)) (2 ^ 31 - 1) i)
def satZ (i : Int) : Lane := BitVec.ofInt 32 (clampI 0 (2 ^ 32 - 1) i)
/-- R16: a lane shift takes the low six bits of its amount. -/
def laneSh (b : Lane) : Nat := b.toNat % 64
def lSll (a : Lane) (n : Nat) : Lane := a <<< n
def lSrl (a : Lane) (n : Nat) : Lane := a >>> n
def lSra (a : Lane) (n : Nat) : Lane := a.sshiftRight n
def lRor (a : Lane) (n : Nat) : Lane := a.rotateRight (n % 32)
/-- One signed byte of a lane. -/
def sbyte (a : Lane) (q : Nat) : Int := toS 8 (a.toNat / 2 ^ (8 * q))
def lDot4 (d a b : Lane) : Lane :=
  BitVec.ofInt 32 (d.toInt + sbyte a 0 * sbyte b 0 + sbyte a 1 * sbyte b 1 + sbyte a 2 * sbyte b 2
    + sbyte a 3 * sbyte b 3)
def lMulh (a b : Lane) : Lane := BitVec.ofInt 32 (a.toInt * b.toInt / 2 ^ 32)
def lMulhu (a b : Lane) : Lane := BitVec.ofNat 32 (a.toNat * b.toNat / 2 ^ 32)
def lMin (a b : Lane) : Lane := if a.slt b then a else b
def lMax (a b : Lane) : Lane := if a.slt b then b else a
def lMinu (a b : Lane) : Lane := if a.ult b then a else b
def lMaxu (a b : Lane) : Lane := if a.ult b then b else a
def lAbs (a : Lane) : Lane := BitVec.ofInt 32 (a.toInt.natAbs : Nat)
/-- A code as a lane. -/
def laneC (c : Nat) : Lane := BitVec.ofNat 32 c
def lFma (r : Rm) (sp sc : Bool) (d a b : Lane) : Lane :=
  -- a * b, negated with sp, plus d, negated with sc, with one rounding
  let va := fmtF32.value a.toNat
  let vc := fmtF32.value d.toNat
  laneC (fmtF32.fmaC r (if sp then va.neg else va) (fmtF32.value b.toNat) (if sc then vc.neg else vc))

def oVadd (d a b : VReg) (m : Mask) : VOp := lane3 d a b m fun x y => x + y
def oVsub (d a b : VReg) (m : Mask) : VOp := lane3 d a b m fun x y => x - y
def oVadds (d a b : VReg) (m : Mask) : VOp := lane3 d a b m fun x y => satS (x.toInt + y.toInt)
def oVsubs (d a b : VReg) (m : Mask) : VOp := lane3 d a b m fun x y => satS (x.toInt - y.toInt)
def oVaddus (d a b : VReg) (m : Mask) : VOp := lane3 d a b m fun x y => satZ ((x.toNat : Int) + y.toNat)
def oVsubus (d a b : VReg) (m : Mask) : VOp := lane3 d a b m fun x y => satZ ((x.toNat : Int) - y.toNat)
def oVmul (d a b : VReg) (m : Mask) : VOp := lane3 d a b m fun x y => x * y
def oVmulh (d a b : VReg) (m : Mask) : VOp := lane3 d a b m lMulh
def oVmulhu (d a b : VReg) (m : Mask) : VOp := lane3 d a b m lMulhu
def oVmac (d a b : VReg) (m : Mask) : VOp := lane4 d a b m fun z x y => z + x * y
def oVdot4 (d a b : VReg) (m : Mask) : VOp := lane4 d a b m lDot4
def oVand (d a b : VReg) (m : Mask) : VOp := lane3 d a b m fun x y => x &&& y
def oVor (d a b : VReg) (m : Mask) : VOp := lane3 d a b m fun x y => x ||| y
def oVxor (d a b : VReg) (m : Mask) : VOp := lane3 d a b m fun x y => x ^^^ y
def oVandn (d a b : VReg) (m : Mask) : VOp := lane3 d a b m fun x y => x &&& ~~~y
def oVnot (d a : VReg) (m : Mask) : VOp := lane2 d a m fun x => ~~~x
def oVsll (d a b : VReg) (m : Mask) : VOp := lane3 d a b m fun x y => lSll x (laneSh y)
def oVsrl (d a b : VReg) (m : Mask) : VOp := lane3 d a b m fun x y => lSrl x (laneSh y)
def oVsra (d a b : VReg) (m : Mask) : VOp := lane3 d a b m fun x y => lSra x (laneSh y)
def oVror (d a b : VReg) (m : Mask) : VOp := lane3 d a b m fun x y => lRor x (laneSh y)
def oVslli (d a : VReg) (n : BitVec 5) (m : Mask) : VOp := lane2 d a m fun x => lSll x n.toNat
def oVsrli (d a : VReg) (n : BitVec 5) (m : Mask) : VOp := lane2 d a m fun x => lSrl x n.toNat
def oVsrai (d a : VReg) (n : BitVec 5) (m : Mask) : VOp := lane2 d a m fun x => lSra x n.toNat
def oVrori (d a : VReg) (n : BitVec 5) (m : Mask) : VOp := lane2 d a m fun x => lRor x n.toNat
def oVmin (d a b : VReg) (m : Mask) : VOp := lane3 d a b m lMin
def oVmax (d a b : VReg) (m : Mask) : VOp := lane3 d a b m lMax
def oVminu (d a b : VReg) (m : Mask) : VOp := lane3 d a b m lMinu
def oVmaxu (d a b : VReg) (m : Mask) : VOp := lane3 d a b m lMaxu
def oVabs (d a : VReg) (m : Mask) : VOp := lane2 d a m lAbs
def oVfadd (d a b : VReg) (m : Mask) (r : Rm) : VOp :=
  lane3 d a b m fun x y => laneC (fmtF32.addC r x.toNat y.toNat)
def oVfsub (d a b : VReg) (m : Mask) (r : Rm) : VOp :=
  lane3 d a b m fun x y => laneC (fmtF32.subC r x.toNat y.toNat)
def oVfmul (d a b : VReg) (m : Mask) (r : Rm) : VOp :=
  lane3 d a b m fun x y => laneC (fmtF32.mulC r x.toNat y.toNat)
def oVfma (d a b : VReg) (m : Mask) (r : Rm) : VOp := lane4 d a b m (lFma r false false)
def oVfms (d a b : VReg) (m : Mask) (r : Rm) : VOp := lane4 d a b m (lFma r false true)
def oVfnma (d a b : VReg) (m : Mask) (r : Rm) : VOp := lane4 d a b m (lFma r true false)
def oVfmin (d a b : VReg) (m : Mask) : VOp :=
  lane3 d a b m fun x y => laneC (fmtF32.minC x.toNat y.toNat)
def oVfmax (d a b : VReg) (m : Mask) : VOp :=
  lane3 d a b m fun x y => laneC (fmtF32.maxC x.toNat y.toNat)
def oVfabs (d a : VReg) (m : Mask) : VOp := lane2 d a m fun x => laneC (fmtF32.absC x.toNat)
def oVfneg (d a : VReg) (m : Mask) : VOp := lane2 d a m fun x => laneC (fmtF32.negC x.toNat)
def oVfdiv (d a b : VReg) (m : Mask) (r : Rm) : VOp :=
  lane3 d a b m fun x y => laneC (fmtF32.divC r x.toNat y.toNat)
def oVfsqrt (d a : VReg) (m : Mask) (r : Rm) : VOp := lane2 d a m fun x => laneC (fmtF32.sqrtC r x.toNat)
def oVfrecip (d a : VReg) (m : Mask) (r : Rm) : VOp := lane2 d a m fun x => laneC (fmtF32.recipC r x.toNat)
def oVfrsqrt (d a : VReg) (m : Mask) (r : Rm) : VOp := lane2 d a m fun x => laneC (fmtF32.rsqrtC r x.toNat)

/-! ### VCVT (R140) -/

/-- 16-bit element e of a vector. -/
def half (v : Lanes) (e : Nat) : Nat := (v.toList.getD (e / 2) 0).toNat / 2 ^ (16 * (e % 2)) % 2 ^ 16
/-- Two vectors narrowed and packed into one. -/
def pack (f : Fmt) (r : Rm) (a b : Lanes) : Lanes :=
  let elem (e : Nat) : Nat :=
    let w := if e < 64 then (a.toList.getD e 0).toNat else (b.toList.getD (e - 64) 0).toNat
    fmtF32.convert f r w
  Vector.ofFn fun i => laneC (elem (2 * i.val) + 2 ^ 16 * elem (2 * i.val + 1))

def oVcvtS32 (d a : VReg) (m : Mask) (r : Rm) : VOp :=
  lane2 d a m fun x => BitVec.ofInt 32 (fmtF32.toInt r (-(2 ^ 31)) (2 ^ 31 - 1) x.toNat)
def oVcvtZ32 (d a : VReg) (m : Mask) (r : Rm) : VOp :=
  lane2 d a m fun x => BitVec.ofInt 32 (fmtF32.toInt r 0 (2 ^ 32 - 1) x.toNat)
def oVcvtF32S32 (d a : VReg) (m : Mask) (r : Rm) : VOp := lane2 d a m fun x => laneC (fmtF32.ofInt r x.toInt)
def oVcvtF32Z32 (d a : VReg) (m : Mask) (r : Rm) : VOp := lane2 d a m fun x => laneC (fmtF32.ofInt r x.toNat)
def oVcvtPbf16 (d a b : VReg) (r : Rm) : VOp :=
  .pure [cellV a.val, cellV b.val] (.lanes d none) fun s => s.setV d (pack fmtBf16 r s.core.v[a] s.core.v[b])
def oVcvtPf16 (d a b : VReg) (r : Rm) : VOp :=
  .pure [cellV a.val, cellV b.val] (.lanes d none) fun s => s.setV d (pack fmtF16 r s.core.v[a] s.core.v[b])
/-- An unpacking member: lane i takes element off + i. -/
def unpack (f : Fmt) (off : Nat) (d a : VReg) (m : Mask) : VOp :=
  .pure (cellV a.val :: maskCells m) (.lanes d m) fun s =>
    s.setLanes d m fun i => laneC (f.convert fmtF32 .rne (half s.core.v[a] (off + i.val)))
def oVcvtUbf16Lo (d a : VReg) (m : Mask) : VOp := unpack fmtBf16 0 d a m
def oVcvtUbf16Hi (d a : VReg) (m : Mask) : VOp := unpack fmtBf16 64 d a m
def oVcvtUf16Lo (d a : VReg) (m : Mask) : VOp := unpack fmtF16 0 d a m
def oVcvtUf16Hi (d a : VReg) (m : Mask) : VOp := unpack fmtF16 64 d a m

/-! ### Masks and selection (R141, R142) -/

def vcondHolds (c : VCond) (a b : Lane) : Bool :=
  let x := fmtF32.value a.toNat
  let y := fmtF32.value b.toNat
  match c with
  | .eq => a == b
  | .ne => a != b
  | .lt => a.slt b
  | .le => !b.slt a
  | .ltu => a.ult b
  | .leu => !b.ult a
  | .feq => x.eqv y
  | .fne => !x.eqv y
  | .flt => x.lt y
  | .fle => x.lt y || x.eqv y
  | .unord => x.isNan || y.isNan

/-- A mask from one truth value per lane. -/
def maskWord (f : Nat → Bool) : Word :=
  BitVec.ofNat 64 (((List.range 64).map fun i => if f i then 2 ^ i else 0).sum)

def oVcmp (d : MReg) (a b : VReg) (m : Mask) (c : VCond) : VOp :=
  .pure ([cellV a.val, cellV b.val] ++ maskCells m) (.mask d) fun s =>
    s.setM d (maskWord fun i => (s.mask m).getLsbD i
      && vcondHolds c (s.core.v[a].toList.getD i 0) (s.core.v[b].toList.getD i 0))
def oMask2 (d a b : MReg) (f : Word → Word → Word) : VOp :=
  .pure [cellM a.val, cellM b.val] (.mask d) fun s => s.setM d (f s.core.m[a] s.core.m[b])
def oVmaskAnd (d a b : MReg) : VOp := oMask2 d a b fun x y => x &&& y
def oVmaskOr (d a b : MReg) : VOp := oMask2 d a b fun x y => x ||| y
def oVmaskXor (d a b : MReg) : VOp := oMask2 d a b fun x y => x ^^^ y
def oVmaskAndn (d a b : MReg) : VOp := oMask2 d a b fun x y => x &&& ~~~y
def oVmaskNot (d a : MReg) : VOp := .pure [cellM a.val] (.mask d) fun s => s.setM d (~~~s.core.m[a])
def oVmaskSet (d : MReg) : VOp := .pure [] (.mask d) fun s => s.setM d (BitVec.allOnes 64)
def oVmaskClr (d : MReg) : VOp := .pure [] (.mask d) fun s => s.setM d 0
def oVsel (d a b : VReg) (m : MReg) : VOp :=
  .pure [cellV a.val, cellV b.val, cellM m.val] (.lanes d none) fun s =>
    s.setV d (Vector.ofFn fun i =>
      if (s.core.m[m]).getLsbD i.val then s.core.v[a][i] else s.core.v[b][i])

/-! ### Moving lanes (R143) -/

def oVperm (d a b : VReg) (m : Mask) : VOp :=
  .pure ([cellV a.val, cellV b.val] ++ maskCells m) (.lanes d m) fun s =>
    s.setLanes d m fun i => s.core.v[a].toList.getD ((s.core.v[b][i]).toNat % 64) 0
def oVrev (d a : VReg) (m : Mask) : VOp :=
  .pure (cellV a.val :: maskCells m) (.lanes d m) fun s =>
    s.setLanes d m fun i => s.core.v[a].toList.getD (63 - i.val) 0
def oVslide (d a b : VReg) (m : Mask) (k : BitVec 6) : VOp :=
  .pure ([cellV a.val, cellV b.val] ++ maskCells m) (.lanes d m) fun s =>
    s.setLanes d m fun i => (s.core.v[a].toList ++ s.core.v[b].toList).getD (i.val + k.toNat) 0
def oVlaneIota (d : VReg) (m : Mask) : VOp :=
  .pure (maskCells m) (.lanes d m) fun s => s.setLanes d m fun i => laneC i.val

/-- The active lanes with their values, in ascending order. -/
def State.active (s : State) (a : VReg) (m : Mask) : List (Nat × Lane) :=
  (((List.range 64).zip s.core.v[a].toList).filter fun p => (s.mask m).getLsbD p.1)

/-- A vector from its first lanes, the rest zero. -/
def vecOf (l : List Lane) : Lanes := Vector.ofFn fun i => l.getD i.val 0

def oVlaneCompress (d a : VReg) (m : Mask) : VOp :=
  .pure (cellV a.val :: maskCells m) (.lanes d none) fun s => s.setV d (vecOf ((s.active a m).map (·.2)))

/-! ### Across the lanes (R144, R145) -/

/-- A reduction to lane 0. -/
def oRed (d a : VReg) (m : Mask) (f : List (Nat × Lane) → Lane) : VOp :=
  .pure (cellV a.val :: maskCells m) (.lanes d none) fun s => s.setV d (vecOf [f (s.active a m)])

/-- The exact sum of FP32 values under the special-value rules of R30 and R144. -/
def sumLanes (r : Rm) (l : List Lane) : Lane :=
  let vs := l.map fun x => fmtF32.value x.toNat
  match vs.foldl (FV.add .rne) (.fin true 0 0) with
  | .fin _ 0 _ =>
    let neg := if vs.all (·.isZero) then !vs.isEmpty && vs.all (·.signNeg) else r == .rdn
    laneC (fmtF32.zero neg)
  | v => laneC (fmtF32.ofFV r v).code

/-- FP32 codes in the order of R20, NaN below everything. -/
def rank (w : Lane) : Int :=
  if (fmtF32.value w.toNat).isNan then -(2 ^ 40)
  else if w.getLsbD 31 then -((w.toNat % 2 ^ 31 : Nat) : Int) - 1 else (w.toNat : Int)

/-- The first entry whose rank no other beats. -/
def bestLane (better : Int → Int → Bool) : List (Nat × Lane) → Option (Nat × Lane)
  | [] => none
  | p :: t => match bestLane better t with
    | none => some p
    | some q => if better (rank q.2) (rank p.2) then some q else some p

/-- ARGMIN and ARGMAX: the first NaN, else the first lane with the extreme. -/
def argLane (better : Int → Int → Bool) (l : List (Nat × Lane)) : Lane :=
  match l.find? (fun p => (fmtF32.value p.2.toNat).isNan) with
  | some p => laneC p.1
  | none => match bestLane better l with
    | some p => laneC p.1
    | none => BitVec.allOnes 32

def oVredSumS32 (d a : VReg) (m : Mask) : VOp := oRed d a m fun l => (l.map (·.2)).foldl (· + ·) 0
def oVredSumF32 (d a : VReg) (m : Mask) (r : Rm) : VOp := oRed d a m fun l => sumLanes r (l.map (·.2))
def oVredMinS32 (d a : VReg) (m : Mask) : VOp := oRed d a m fun l => (l.map (·.2)).foldl lMin 0x7FFFFFFF
def oVredMaxS32 (d a : VReg) (m : Mask) : VOp := oRed d a m fun l => (l.map (·.2)).foldl lMax 0x80000000
def oVredMinF32 (d a : VReg) (m : Mask) : VOp :=
  oRed d a m fun l => laneC ((l.map (·.2.toNat)).foldl fmtF32.minC (fmtF32.inf false))
def oVredMaxF32 (d a : VReg) (m : Mask) : VOp :=
  oRed d a m fun l => laneC ((l.map (·.2.toNat)).foldl fmtF32.maxC (fmtF32.inf true))
def oVredArgminF32 (d a : VReg) (m : Mask) : VOp := oRed d a m (argLane fun x y => decide (x < y))
def oVredArgmaxF32 (d a : VReg) (m : Mask) : VOp := oRed d a m (argLane fun x y => decide (y < x))

/-- The k best, best first (R145). -/
def topK : Nat → List (Nat × Lane) → List (Nat × Lane)
  | 0, _ => []
  | k + 1, l => match bestLane (fun x y => decide (y < x)) l with
    | none => []
    | some p => p :: topK k (l.filter (·.1 != p.1))

/-- The pairs of lanes that R145 writes for its list. -/
def topPairs (k : Nat) (l : List (Nat × Lane)) : List Lane :=
  ((List.range k).map fun i => match l[i]? with
    | some p => [if (fmtF32.value p.2.toNat).isNan then laneC fmtF32.nan else p.2, laneC p.1]
    | none => [laneC 0xFF80_0000, BitVec.allOnes 32]).flatten

def oVtopk (d a : VReg) (n : BitVec 5) (m : Mask) : VOp :=
  .pure (cellV a.val :: maskCells m) (.lanes d none) fun s =>
    s.setV d (vecOf (topPairs n.toNat (topK n.toNat (s.active a m))))

/-! ### Crossing to scalar registers (R146) -/

def execVbcast (d : VReg) (s : XSrc) (st : State) : Out :=
  st.guard s.regs s.cells
    (st.vmuUse false fun st => (.next (st.setV d (Vector.replicate 64 (lo32 (st.src s)))).retire))
def execVbcastLane (d s : VReg) (t : XSrc) (st : State) : Out :=
  st.guard t.regs (cellV s.val :: t.cells)
    (st.vmuUse false fun st => (.next (st.setV d (Vector.replicate 64
      (st.core.v[s].toList.getD ((st.src t).toNat % 64) 0))).retire))
def execVmovx (d : XReg) (s : VReg) (t : XSrc) (st : State) : Out :=
  st.guard (d.val :: t.regs) (cellV s.val :: t.cells)
    (st.vmuUse false fun st => (.next (st.setX d (zextW (st.core.v[s].toList.getD ((st.src t).toNat % 64) 0))).retire))
def execVmovxS (d : XReg) (s : VReg) (t : XSrc) (st : State) : Out :=
  st.guard (d.val :: t.regs) (cellV s.val :: t.cells)
    (st.vmuUse false fun st => (.next (st.setX d (sextW (st.core.v[s].toList.getD ((st.src t).toNat % 64) 0))).retire))

/-! ### The instructions -/

def execVadd (d a b : VReg) (m : Mask) (st : State) : Out := st.issue (oVadd d a b m)
def execVsub (d a b : VReg) (m : Mask) (st : State) : Out := st.issue (oVsub d a b m)
def execVadds (d a b : VReg) (m : Mask) (st : State) : Out := st.issue (oVadds d a b m)
def execVsubs (d a b : VReg) (m : Mask) (st : State) : Out := st.issue (oVsubs d a b m)
def execVaddus (d a b : VReg) (m : Mask) (st : State) : Out := st.issue (oVaddus d a b m)
def execVsubus (d a b : VReg) (m : Mask) (st : State) : Out := st.issue (oVsubus d a b m)
def execVmul (d a b : VReg) (m : Mask) (st : State) : Out := st.issue (oVmul d a b m)
def execVmulh (d a b : VReg) (m : Mask) (st : State) : Out := st.issue (oVmulh d a b m)
def execVmulhu (d a b : VReg) (m : Mask) (st : State) : Out := st.issue (oVmulhu d a b m)
def execVmac (d a b : VReg) (m : Mask) (st : State) : Out := st.issue (oVmac d a b m)
def execVdot4 (d a b : VReg) (m : Mask) (st : State) : Out := st.issue (oVdot4 d a b m)
def execVand (d a b : VReg) (m : Mask) (st : State) : Out := st.issue (oVand d a b m)
def execVor (d a b : VReg) (m : Mask) (st : State) : Out := st.issue (oVor d a b m)
def execVxor (d a b : VReg) (m : Mask) (st : State) : Out := st.issue (oVxor d a b m)
def execVandn (d a b : VReg) (m : Mask) (st : State) : Out := st.issue (oVandn d a b m)
def execVnot (d a : VReg) (m : Mask) (st : State) : Out := st.issue (oVnot d a m)
def execVsll (d a b : VReg) (m : Mask) (st : State) : Out := st.issue (oVsll d a b m)
def execVsrl (d a b : VReg) (m : Mask) (st : State) : Out := st.issue (oVsrl d a b m)
def execVsra (d a b : VReg) (m : Mask) (st : State) : Out := st.issue (oVsra d a b m)
def execVror (d a b : VReg) (m : Mask) (st : State) : Out := st.issue (oVror d a b m)
def execVslli (d a : VReg) (n : BitVec 5) (m : Mask) (st : State) : Out := st.issue (oVslli d a n m)
def execVsrli (d a : VReg) (n : BitVec 5) (m : Mask) (st : State) : Out := st.issue (oVsrli d a n m)
def execVsrai (d a : VReg) (n : BitVec 5) (m : Mask) (st : State) : Out := st.issue (oVsrai d a n m)
def execVrori (d a : VReg) (n : BitVec 5) (m : Mask) (st : State) : Out := st.issue (oVrori d a n m)
def execVmin (d a b : VReg) (m : Mask) (st : State) : Out := st.issue (oVmin d a b m)
def execVmax (d a b : VReg) (m : Mask) (st : State) : Out := st.issue (oVmax d a b m)
def execVminu (d a b : VReg) (m : Mask) (st : State) : Out := st.issue (oVminu d a b m)
def execVmaxu (d a b : VReg) (m : Mask) (st : State) : Out := st.issue (oVmaxu d a b m)
def execVabs (d a : VReg) (m : Mask) (st : State) : Out := st.issue (oVabs d a m)
def execVfadd (d a b : VReg) (m : Mask) (r : Rm) (st : State) : Out := st.issue (oVfadd d a b m r)
def execVfsub (d a b : VReg) (m : Mask) (r : Rm) (st : State) : Out := st.issue (oVfsub d a b m r)
def execVfmul (d a b : VReg) (m : Mask) (r : Rm) (st : State) : Out := st.issue (oVfmul d a b m r)
def execVfma (d a b : VReg) (m : Mask) (r : Rm) (st : State) : Out := st.issue (oVfma d a b m r)
def execVfms (d a b : VReg) (m : Mask) (r : Rm) (st : State) : Out := st.issue (oVfms d a b m r)
def execVfnma (d a b : VReg) (m : Mask) (r : Rm) (st : State) : Out := st.issue (oVfnma d a b m r)
def execVfmin (d a b : VReg) (m : Mask) (st : State) : Out := st.issue (oVfmin d a b m)
def execVfmax (d a b : VReg) (m : Mask) (st : State) : Out := st.issue (oVfmax d a b m)
def execVfabs (d a : VReg) (m : Mask) (st : State) : Out := st.issue (oVfabs d a m)
def execVfneg (d a : VReg) (m : Mask) (st : State) : Out := st.issue (oVfneg d a m)
def execVfdiv (d a b : VReg) (m : Mask) (r : Rm) (st : State) : Out := st.issue (oVfdiv d a b m r)
def execVfsqrt (d a : VReg) (m : Mask) (r : Rm) (st : State) : Out := st.issue (oVfsqrt d a m r)
def execVfrecip (d a : VReg) (m : Mask) (r : Rm) (st : State) : Out := st.issue (oVfrecip d a m r)
def execVfrsqrt (d a : VReg) (m : Mask) (r : Rm) (st : State) : Out := st.issue (oVfrsqrt d a m r)
def execVcvtS32 (d a : VReg) (m : Mask) (r : Rm) (st : State) : Out := st.issue (oVcvtS32 d a m r)
def execVcvtZ32 (d a : VReg) (m : Mask) (r : Rm) (st : State) : Out := st.issue (oVcvtZ32 d a m r)
def execVcvtF32S32 (d a : VReg) (m : Mask) (r : Rm) (st : State) : Out := st.issue (oVcvtF32S32 d a m r)
def execVcvtF32Z32 (d a : VReg) (m : Mask) (r : Rm) (st : State) : Out := st.issue (oVcvtF32Z32 d a m r)
def execVcvtPbf16 (d a b : VReg) (r : Rm) (st : State) : Out := st.issue (oVcvtPbf16 d a b r)
def execVcvtPf16 (d a b : VReg) (r : Rm) (st : State) : Out := st.issue (oVcvtPf16 d a b r)
def execVcvtUbf16Lo (d a : VReg) (m : Mask) (st : State) : Out := st.issue (oVcvtUbf16Lo d a m)
def execVcvtUbf16Hi (d a : VReg) (m : Mask) (st : State) : Out := st.issue (oVcvtUbf16Hi d a m)
def execVcvtUf16Lo (d a : VReg) (m : Mask) (st : State) : Out := st.issue (oVcvtUf16Lo d a m)
def execVcvtUf16Hi (d a : VReg) (m : Mask) (st : State) : Out := st.issue (oVcvtUf16Hi d a m)
def execVcmp (d : MReg) (a b : VReg) (m : Mask) (c : VCond) (st : State) : Out := st.issue (oVcmp d a b m c)
def execVmaskAnd (d a b : MReg) (st : State) : Out := st.issue (oVmaskAnd d a b)
def execVmaskOr (d a b : MReg) (st : State) : Out := st.issue (oVmaskOr d a b)
def execVmaskXor (d a b : MReg) (st : State) : Out := st.issue (oVmaskXor d a b)
def execVmaskAndn (d a b : MReg) (st : State) : Out := st.issue (oVmaskAndn d a b)
def execVmaskNot (d a : MReg) (st : State) : Out := st.issue (oVmaskNot d a)
def execVmaskSet (d : MReg) (st : State) : Out := st.issue (oVmaskSet d)
def execVmaskClr (d : MReg) (st : State) : Out := st.issue (oVmaskClr d)
def execVsel (d a b : VReg) (m : MReg) (st : State) : Out := st.issue (oVsel d a b m)
def execVperm (d a b : VReg) (m : Mask) (st : State) : Out := st.issue (oVperm d a b m)
def execVrev (d a : VReg) (m : Mask) (st : State) : Out := st.issue (oVrev d a m)
def execVslide (d a b : VReg) (m : Mask) (k : BitVec 6) (st : State) : Out := st.issue (oVslide d a b m k)
def execVlaneIota (d : VReg) (m : Mask) (st : State) : Out := st.issue (oVlaneIota d m)
def execVlaneCompress (d a : VReg) (m : Mask) (st : State) : Out := st.issue (oVlaneCompress d a m)
def execVredSumS32 (d a : VReg) (m : Mask) (st : State) : Out := st.issue (oVredSumS32 d a m)
def execVredSumF32 (d a : VReg) (m : Mask) (r : Rm) (st : State) : Out := st.issue (oVredSumF32 d a m r)
def execVredMinS32 (d a : VReg) (m : Mask) (st : State) : Out := st.issue (oVredMinS32 d a m)
def execVredMaxS32 (d a : VReg) (m : Mask) (st : State) : Out := st.issue (oVredMaxS32 d a m)
def execVredMinF32 (d a : VReg) (m : Mask) (st : State) : Out := st.issue (oVredMinF32 d a m)
def execVredMaxF32 (d a : VReg) (m : Mask) (st : State) : Out := st.issue (oVredMaxF32 d a m)
def execVredArgminF32 (d a : VReg) (m : Mask) (st : State) : Out := st.issue (oVredArgminF32 d a m)
def execVredArgmaxF32 (d a : VReg) (m : Mask) (st : State) : Out := st.issue (oVredArgmaxF32 d a m)
def execVtopk (d a : VReg) (n : BitVec 5) (m : Mask) (st : State) : Out := st.issue (oVtopk d a n m)

end Sys2Proof.Machine
end

