-- ==== Sys2Proof/Machine/Tile.lean ====
section
/-! DEFINITION. Tiles, the weight share, decode tables, ENC and DEC (R25, R27, R147-R152). -/

namespace Sys2Proof.Machine

/-! ### Tile registers -/

/-- Write a tile register. -/
def State.setT (s : State) (d : TReg) (b : Memory) : State :=
  ({ s with core := { s.core with t := s.core.t.set d.val b } }).unpoison (cellT d.val)

/-- A memory from cells in any order. -/
def ofCells (cs : List Host.Cell) : Memory := cs.foldl (fun m c => m.write c.1 c.2) []

/-- An X5 register as a class-X one. -/
def x5 (r : X5Reg) : XReg := ⟨r.val, Nat.lt_of_lt_of_le r.isLt (by decide)⟩

/-- The stride that b gives: x0 or zero mean `dflt` (R147, R160). -/
def State.strideOf (s : State) (b : X5Reg) (dflt : Nat) : Word :=
  let v := s.rx (x5 b)
  if v == 0 then BitVec.ofNat 64 dflt else v

/-- The rows of a tile transfer (R147). -/
def State.tileRows (s : State) (a b : X5Reg) : List (Word × Nat) :=
  (List.range 64).map fun r => (s.rx (x5 a) + BitVec.ofNat 64 r * s.strideOf b 128, 128)

/-- R147: base and stride are multiples of 16, before any row is checked. -/
def State.tileAligned (s : State) (a b : X5Reg) (k : Out) : Out :=
  let base := s.rx (x5 a)
  let stride := s.strideOf b 128
  if base.toNat % 16 ≠ 0 then s.trap .align base
  else if stride.toNat % 16 ≠ 0 then s.trap .align (base + stride)
  else k

/-- R147, R137: every row is read and checked before the tile changes. -/
def execTld (d : TReg) (a b : X5Reg) (st : State) : Out :=
  st.guard [a.val, b.val] [cellX a.val, cellX b.val]
    (st.vmu
      (st.tileAligned a b
        (st.accesses { allow := .mem0123 } (st.tileRows a b) fun gs =>
          if gs.any st.mustWait then .next (st.waitFor gs.flatten)
          else .next ((st.setT d (Memory.writeBytes [] 0 (gs.map st.loadSegs).flatten)).retireMark))))

/-- The rows of a tile register. -/
def tileRow (b : Memory) (r : Nat) : List Byte := b.readBytes (128 * r) 128

/-- The 16-byte parts of the rows, rows ascending. -/
def State.tileParts (s : State) (a b : X5Reg) : List (Word × Nat) :=
  ((s.tileRows a b).map fun r =>
    (List.range 8).map fun i => (r.1 + BitVec.ofNat 64 (16 * i), 16)).flatten

/-- R147: every row is checked; the parts are stores in program order. -/
def execTst (d : TReg) (a b : X5Reg) (st : State) : Out :=
  st.guard [a.val, b.val] [cellT d.val, cellX a.val, cellX b.val]
    (st.vmu
      (st.tileAligned a b
        (st.accesses { kind := .store, allow := .mem0123 } (st.tileRows a b) fun _ =>
          let parts := st.tileParts a b
          st.accesses { kind := .store, allow := .mem0123 } parts fun gs =>
            let data := (List.range 512).map fun i => (st.core.t[d]).readBytes (16 * i) 16
            .next ((st.pushAll (((parts.map (·.1)).zip gs).zip data)).retireStore gs.flatten))))

/-- R148: the length of a compressed image, from its presence map. -/
def imageLen (map : List Byte) : Nat := 128 + 8 * (map.map fun b => popN 8 b.toNat).sum

/-- The first n 16-byte parts of the share from a slot on, as cells of the state window. -/
def partsFrom (d : Fin 32) (n : Nat) : List Nat := (List.range n).map fun i => cellPart (32 * d.val + i)

/-- R148: TLD.W. The pins of R137 step 4 last until the region mark that the instruction itself is. It reads
from the spaces that TLD reads from (DESIGN CHOICE, log entry 85), and it clears the poison of each part of the
share that its image covers (R356). -/
def execTldW (d : Fin 32) (a : X5Reg) (st : State) : Out :=
  st.guard [a.val] [cellX a.val]
    (st.vmu
      (let base := st.rx (x5 a)
       let acc : Access := { allow := .mem0123, align := 16 }
       st.access acc base 128 fun g =>
         if st.mustWait g then .next (st.waitFor g)
         else
           let len := imageLen (st.loadSegs g)
           if 16384 < 512 * d.val + len then st.trap .fmt 0
           else st.access acc base len fun g =>
             if st.mustWait g then .next (st.waitFor g)
             else st.pinPages base len fun st =>
               let u := { st with core := { st.core with
                 share := st.core.share.writeBytes (512 * d.val) (st.loadSegs g) } }
               .next ((partsFrom d (len / 16)).foldl State.unpoison u).retireMark))

/-- R148: byte c of row r of the image at an offset of the share: present groups stand one after
another behind the map. -/
def imageBytes (share : Memory) (off : Nat) : List Byte :=
  ((List.range 1024).foldl (fun (r : Nat × List (List Byte)) g =>
    if (share.read (off + g / 8)).getLsbD (g % 8) then (r.1 + 8, share.readBytes r.1 8 :: r.2)
    else (r.1, List.replicate 8 0 :: r.2)) (off + 128, [])).2.reverse.flatten

/-! ### TMOV (R149) -/

/-- A committing operation that writes a tile from cells. -/
def oTile (cells : List Nat) (d : TReg) (f : State → Memory) : VOp :=
  { cells := cells, commit := true, run := fun s => .ok (s.setT d (f s)) }

def oTmov (d a : TReg) : VOp := oTile [cellT a.val] d fun s => s.core.t[a]
/-- 16-bit element (i, k) := element (k, i). -/
def oTmovT16 (d a : TReg) : VOp :=
  oTile [cellT a.val] d fun s => ofCells ((s.core.t[a]).map fun c =>
    (128 * (c.1 % 128 / 2) + 2 * (c.1 / 128) + c.1 % 2, c.2))
/-- Byte (i, 64h + k) := byte (k, 64h + i). -/
def oTmovT8 (d a : TReg) : VOp :=
  oTile [cellT a.val] d fun s => ofCells ((s.core.t[a]).map fun c =>
    (128 * (c.1 % 64) + 64 * (c.1 % 128 / 64) + c.1 / 128, c.2))
def vecBytes (v : Lanes) : List Byte := (v.toList.map fun x => bytesOf 4 x.toNat).flatten
def lanesOf (bs : Nat → List Byte) : Lanes := Vector.ofFn fun i => laneC (ofBytes (bs i.val))
def oTmovVr (d : TReg) (a : VReg) (b : Fin 32) : VOp :=
  oTile [cellV a.val] d fun s => (s.core.t[d]).writeBytes (256 * b.val) (vecBytes s.core.v[a])
def oTmovRv (d : VReg) (a : TReg) (b : Fin 32) : VOp :=
  .pure [cellT a.val] (.lanes d none) fun s =>
    s.setV d (lanesOf fun i => (s.core.t[a]).readBytes (256 * b.val + 4 * i) 4)
def oTmovZero (d : TReg) : VOp := oTile [] d fun _ => []

def execTmov (d a : TReg) (st : State) : Out := st.issue (oTmov d a)
def execTmovT16 (d a : TReg) (st : State) : Out := st.issue (oTmovT16 d a)
def execTmovT8 (d a : TReg) (st : State) : Out := st.issue (oTmovT8 d a)
def execTmovVr (d : TReg) (a : VReg) (b : Fin 32) (st : State) : Out := st.issue (oTmovVr d a b)
def execTmovRv (d : VReg) (a : TReg) (b : Fin 32) (st : State) : Out := st.issue (oTmovRv d a b)
def execTmovZero (d : TReg) (st : State) : Out := st.issue (oTmovZero d)

/-! ### Decode tables (R25, R27, R150, R151) -/

def State.setTable (s : State) (t : DTable) : State :=
  ({ s with core := { s.core with table := t } }).unpoison cellTab

/-- R150. -/
def execTabld (a : X5Reg) (o : Bool) (st : State) : Out :=
  st.guard [a.val] [cellX a.val]
    (st.vmu
      (st.access { allow := .mem0123, align := 4 } (st.rx (x5 a)) 1024 fun g =>
        if st.mustWait g then .next (st.waitFor g)
        else
          let bs := st.loadSegs g
          let es := (List.range 256).map fun i => ofBytes ((bs.drop (4 * i)).take 4)
          if es.any fun e => decide (2 ^ 19 ≤ e) then st.trap .fmt 0
          else .next (st.setTable (.loaded (es.map (BitVec.ofNat 19)) o)).retireMark))
def execTabldPreset (p : Fin 4) (st : State) : Out :=
  st.vmuUse false fun st => .next (st.setTable (.preset p)).retireMark

/-- R152. -/
def execEnc (d a : VReg) (q : Fin 4) (st : State) : Out :=
  st.guard [] [cellV a.val, cellTab]
    (st.vmuUse false fun st =>
      (if !st.core.table.encOk then st.trap .fmt 0
       else
         let code (i : Nat) : Nat := st.core.table.encode (st.core.v[a].toList.getD i 0).toNat
         .next (st.setV d (Vector.ofFn fun i =>
           if i.val / 16 = q.val then
             let j := 4 * (i.val % 16)
             laneC (code j + 256 * code (j + 1) + 65536 * code (j + 2) + 16777216 * code (j + 3))
           else st.core.v[d][i])).retire))
def execDec (d a : VReg) (q : Fin 4) (st : State) : Out :=
  st.guard [] [cellV a.val, cellTab]
    (st.vmuUse false fun st =>
      (let byte (e : Nat) : Nat := (st.core.v[a].toList.getD (e / 4) 0).toNat / 2 ^ (8 * (e % 4)) % 256
       .next (st.setV d (Vector.ofFn fun i =>
         laneC (fmtE8m10.convert fmtF32 .rne (st.core.table.entry (byte (64 * q.val + i.val)))))).retire))

end Sys2Proof.Machine
end

