-- ==== Sys2Proof/Machine/Flags.lean ====
section
/-! DEFINITION. The flags: the sticky status bits of an accumulator tile (R31), which bits an MMA step
sets (R30), and the overflow predicate that is evaluated at every read and readout. -/

namespace Sys2Proof.Machine

/-- What a step or a readout sets, beside what stands. -/
structure Sticky where
  iovf : Bool := false
  fovf : Bool := false
  inv : Bool := false
  unf : Bool := false
  inx : Bool := false
  sat : Bool := false
  skip : Bool := false
  deriving DecidableEq, Repr

/-- ACCSTAT[6:0] (R49). -/
def Sticky.word (f : Sticky) : BitVec 7 :=
  BitVec.ofNat 7 (f.iovf.toNat + 2 * f.fovf.toNat + 4 * f.inv.toNat + 8 * f.unf.toNat
    + 16 * f.inx.toNat + 32 * f.sat.toNat + 64 * f.skip.toNat)

def Sticky.or (a b : Sticky) : Sticky :=
  { iovf := a.iovf || b.iovf, fovf := a.fovf || b.fovf, inv := a.inv || b.inv, unf := a.unf || b.unf
    inx := a.inx || b.inx, sat := a.sat || b.sat, skip := a.skip || b.skip }

/-- R31: a bit once set stays set. -/
def Acc.stick (c : Acc) (f : Sticky) : Acc := { c with status := c.status ||| f.word }

/-- An element, 80 bits. -/
def Acc.elem (c : Acc) (i : Nat) : BitVec 80 := ((c.elems.find? (·.1 == i)).map (·.2)).getD 0

/-- R31: is the exact sum outside the 36-bit range? -/
def outside36 (v : BitVec 80) : Bool :=
  decide (v.toInt < -(2 ^ 35)) || decide (2 ^ 35 - 1 < v.toInt)

/-- R31: IOVF is evaluated on every element at every read and every readout. -/
def Acc.evalIovf (c : Acc) : Acc :=
  if c.imode && c.elems.any (fun e => outside36 e.2) then c.stick { iovf := true } else c

/-- ACCSTAT's layout (R49). -/
def Acc.stat (c : Acc) : Word := BitVec.ofNat 64 (c.status.toNat + 256 * c.imode.toNat)

/-! ### One step of an element (R30) -/

/-- The truncated sum above the cut, whether bits were discarded. -/
def cutSum (e0 : Int) : List FV → Int × Bool
  | [] => (0, false)
  | .fin n m e :: t =>
    let r := cutSum e0 t
    let lost := decide (e < e0) && m % 2 ^ (e0 - e).toNat != 0
    let v : Int := if e0 ≤ e then ((m * 2 ^ (e - e0).toNat : Nat) : Int)
      else ((m / 2 ^ (e0 - e).toNat : Nat) : Int)
    ((if n then -v else v) + r.1, lost || r.2)
  | _ :: t => cutSum e0 t

/-- R30, float mode: the terms are the element and the step's products; an invalid product comes as
NaN. The new A36 code and the bits set. UNF looks at the rounding of T alone, whatever the cut has discarded
(DESIGN CHOICE, log entry 106). -/
def floatStep (ps : List FV) : Nat × Sticky :=
  if ps.any (·.isNan) || (ps.any (· == .inf true) && ps.any (· == .inf false)) then
    (fmtA36.nan, { inv := true })
  else if ps.any (· == .inf true) then (fmtA36.inf true, {})
  else if ps.any (· == .inf false) then (fmtA36.inf false, {})
  else if ps.all (·.isZero) then (fmtA36.zero (ps.all (·.signNeg)), {})
  else
    match (ps.foldl (fun (w : Weight) (p : FV) => Weight.max w p.weight) Weight.negInf) with
    | .at emax =>
      let cut := emax - 64
      let r := cutSum cut ps
      if r.1 = 0 then (0, { inx := r.2 })
      else
        let q := fmtA36.round .rne (decide (r.1 < 0)) r.1.natAbs 1 cut
        (q.code, { fovf := q.past, unf := q.under, inx := r.2 || q.inexact })
    | _ => (0, {})

end Sys2Proof.Machine
end

