-- ==== Sys2Proof/Machine/Matrix.lean ====
section
/-! DEFINITION. The matrix array and the accumulator tiles (R24, R26, R28-R33, R153-R162). -/

namespace Sys2Proof.Machine

/-! ### Operands -/

/-- R153: integer mode and K of a pairing of formats, where it is one. -/
def mmaPair (fa fb : Nat) : Option (Bool × Nat) :=
  if fa < 2 && fb < 2 then some (false, 64)
  else if fa ≠ fb then none
  else match fa with
    | 2 => some (false, 32)
    | 3 => some (false, 128)
    | 4 => some (true, 128)
    | 5 => some (true, 256)
    | _ => none

/-- An operand element as it enters the array: its whole value, its parts (R23), the bits that
decoding it sets, and, in integer mode, its integer. -/
structure MElem where
  v : FV := .fin false 0 0
  parts : List FV := []
  int : Int := 0
  flags : Sticky := {}
  deriving DecidableEq, Repr

/-- R26: a value times 2^s. -/
def FV.scale (s : Int) : FV → FV
  | .fin n m e => .fin n m (e + s)
  | v => v

/-- R24, R28: element k of a row of 128 bytes, with the row's scale. An infinity of the decode table is a value
like another: INV comes of its products and sums alone (DESIGN CHOICE, log entry 87). -/
def mElem (fmt : Nat) (table : DTable) (scale : Int) (row : List Byte) (k : Nat) : MElem :=
  let code (n : Nat) : Nat := ofBytes ((row.drop (n * k)).take n)
  match fmt with
  | 0 => let v := fmtBf16.value (code 2); { v := v, parts := [v] }
  | 1 => let v := fmtF16.value (code 2); { v := v, parts := [v] }
  | 2 => let p := splitF32 (code 4); { v := fmtF32.value (code 4), parts := p.1, flags := { inx := p.2 } }
  | 3 => let v := (fmtE8m10.value (table.entry (code 1))).scale scale; { v := v, parts := [v] }
  | 4 => { int := toS 8 (code 1) }
  | _ =>
    let c := ((row.getD (k / 2) 0).toNat / 2 ^ (4 * (k % 2))) % 16
    if c = 8 then { flags := { inv := true } } else { int := toS 4 c }

/-- R23, R30: the products of one k. A pairing of more than one part keeps combined rank at most
two; an infinity or a NaN enters whole. -/
def mProds (a b : MElem) : List FV :=
  if !a.v.isFinite || !b.v.isFinite then [a.v.mul b.v]
  else
    (((List.range 3).zip a.parts).map fun x =>
      (((List.range 3).zip b.parts).filter fun y => decide (x.1 + y.1 ≤ 2)).map fun y => x.2.mul y.2).flatten

/-- R154: the sampled set-up of an MMA. -/
structure MmaSetup where
  imode : Bool
  k : Nat
  fa : Nat
  fb : Nat
  table : DTable
  sa : List Int
  sb : List Int
  rows : Nat
  cols : Nat
  deriving DecidableEq, Repr

/-- A row of an operand. -/
def mRow (fmt k : Nat) (table : DTable) (scales : List Int) (m : Memory) (r : Nat) : List MElem :=
  let row := tileRow m r
  (List.range k).map fun i => mElem fmt table (scales.getD r 0) row i

/-- One element of the accumulator after a step (R30). -/
def mStep (imode : Bool) (old : BitVec 80) (a b : List MElem) : BitVec 80 × Sticky :=
  if imode then
    (old + BitVec.ofInt 80 ((a.zip b).map fun p => p.1.int * p.2.int).sum, {})
  else
    let r := floatStep (fmtA36.value old.toNat :: ((a.zip b).map fun p => mProds p.1 p.2).flatten)
    (BitVec.ofNat 80 r.1, r.2)

/-- Write an element, keeping the list's form. -/
def setElem : List (Nat × BitVec 80) → Nat → BitVec 80 → List (Nat × BitVec 80)
  | [], i, v => if v = 0 then [] else [(i, v)]
  | c :: t, i, v =>
    if i < c.1 then (if v = 0 then c :: t else (i, v) :: c :: t)
    else if i = c.1 then (if v = 0 then t else (i, v) :: t)
    else c :: setElem t i v

/-- R154: the step over the rows and columns of the set-up. -/
def Acc.mma (c : Acc) (u : MmaSetup) (ma mb : Memory) : Acc :=
  let as := (List.range u.rows).map fun i => mRow u.fa u.k u.table u.sa ma i
  let bs := (List.range u.cols).map fun j => mRow u.fb u.k u.table u.sb mb j
  let decoded := (as ++ bs).flatten.foldl (fun f e => f.or e.flags) ({} : Sticky)
  let cells := (((List.range u.rows).zip as).map fun a => ((List.range u.cols).zip bs).map fun b =>
    (64 * a.1 + b.1, mStep u.imode (c.elem (64 * a.1 + b.1)) a.2 b.2)).flatten
  let flags := cells.foldl (fun f e => f.or e.2.2) decoded
  { c with elems := cells.foldl (fun m e => setElem m e.1 e.2.1) c.elems
           status := c.status ||| flags.word }

/-! ### The predictor and its log (R33, R48) -/

/-- H: the largest leading-bit weight of the computed rows of A. -/
def predictor (u : MmaSetup) (ma : Memory) : Weight :=
  let es := ((List.range u.rows).map fun i => mRow u.fa u.k u.table u.sa ma i).flatten
  es.foldl (fun (w : Weight) e => w.max (if u.imode then FV.weight (FV.ofInt e.int 0 false) else e.v.weight))
    Weight.negInf

/-- A byte of the current core's local memory, as an address. -/
def localAddr (off : Nat) : Word := BitVec.ofNat 64 (0x2000_0000_0000_0000 + off)

/-- What the log says of the next MMA.SKIP: the decision and the state with the log moved on. -/
def State.skipLog (s : State) (u : MmaSetup) (ma : Memory) : Except Check (Bool × State) :=
  let k := s.core.csrs
  let off := k.skbase.toNat + k.skpos.toNat / 8
  let bit := k.skpos.toNat % 8
  let moved : State := { s with core := { s.core with csrs := { k with skpos := k.skpos + 1 } } }
  if k.skpos = k.sklen then .error (.trap .fmt 1)
  else if k.skctl.getLsbD 1 then
    match s.check {} (localAddr off) 1 with
    | .ok g => .ok ((BitVec.ofNat 8 (ofBytes (s.loadSegs g))).getLsbD bit, moved)
    | c => .error c
  else
    match s.check { kind := .store } (localAddr off) 1 with
    | .ok g =>
      let d : Int := if k.skctl.getLsbD 0 then 0 else (s.derate (layerOf s.core.num) : Int)
      let skip := (predictor u ma).below (k.skth.toInt + d)
      let old := BitVec.ofNat 8 (ofBytes (s.loadSegs g))
      let m : Byte := BitVec.ofNat 8 (2 ^ bit)
      .ok (skip, moved.push (localAddr off) g [if skip then old ||| m else old &&& ~~~m])
    | c => .error c

/-! ### MMA, MMAW, MMAM (R153-R156) -/

/-- R26, R153: the scale bytes of an operand. -/
def State.scales (s : State) (fmt : BitVec 4) (off : BitVec 8) : Except Check (List Int) :=
  if fmt.toNat = 11 then
    match s.check {} (localAddr (64 * off.toNat)) 64 with
    | .ok g => .ok ((s.loadSegs g).map (·.toInt))
    | c => .error c
  else .ok []

/-- R153, R154, R24: the formats and the mode. -/
def State.mmaMode (s : State) (c : CReg) (y : Ty) : Except Check (Bool × Nat) :=
  let fa := s.core.csrs.fmta.toNat % 8
  match mmaPair fa (s.core.csrs.fmtb.toNat % 8) with
  | none => .error (.trap .fmt 0)
  | some p =>
    if y.code ≠ 7 && y.code ≠ fa then .error (.trap .fmt 0)
    else if p.1 != s.core.c[c].imode then .error (.trap .fmt 0)
    else .ok p

def State.setC (s : State) (c : CReg) (a : Acc) : State :=
  { s with core := { s.core with c := s.core.c.set c.val a } }

/-- R154, for operands at hand. The FMT checks come before the scales are read (DESIGN CHOICE, log entry
86). -/
def State.mmaRun (s : State) (c : CReg) (ma mb : Memory) (skip edge : Bool) (y : Ty) :
    Except Check State :=
  match s.mmaMode c y with
  | .error e => .error e
  | .ok (imode, k) =>
    match s.scales s.core.csrs.fmta s.core.csrs.scla, s.scales s.core.csrs.fmtb s.core.csrs.sclb with
    | .error e, _ => .error e
    | _, .error e => .error e
    | .ok sa, .ok sb =>
      let u : MmaSetup :=
        { imode := imode, k := k, fa := s.core.csrs.fmta.toNat % 8, fb := s.core.csrs.fmtb.toNat % 8
          table := s.core.table, sa := sa, sb := sb
          rows := if edge then s.core.erow.toNat else 64
          cols := if edge then s.core.ecol.toNat else 64 }
      if skip then
        match s.skipLog u ma with
        | .error e => .error e
        | .ok (true, t) => .ok (t.setC c (t.core.c[c].stick { skip := true }))
        | .ok (false, t) => .ok (t.setC c (t.core.c[c].mma u ma mb))
      else .ok (s.setC c (s.core.c[c].mma u ma mb))

def oMma (c : CReg) (a b : TReg) (skip edge : Bool) (y : Ty) : VOp :=
  { cells := [cellT a.val, cellT b.val, cellTab], commit := true, array := true
    run := fun s => s.mmaRun c s.core.t[a] s.core.t[b] skip edge y }

/-- R155: the image at a slot of the share, decompressed. -/
def State.shareTile (s : State) (slot : Fin 32) : Except Check Memory :=
  let off := 512 * slot.val
  if 16384 < off + 128 then .error (.trap .fmt 0)
  else if 16384 < off + imageLen (s.core.share.readBytes off 128) then .error (.trap .fmt 0)
  else .ok (Memory.writeBytes [] 0 (imageBytes s.core.share off))

def oMmaw (c : CReg) (a : TReg) (b : Fin 32) (skip edge : Bool) (y : Ty) : VOp :=
  { cells := cellT a.val :: cellTab :: partsFrom b 8, commit := true, array := true
    run := fun s => match s.shareTile b with
      | .error e => .error e
      | .ok m =>
        match s.poisonedCell (partsFrom b ((imageLen (s.core.share.readBytes (512 * b.val) 128) + 15) / 16)) with
        | some p => .error (.trap .poison (cellAddr s.core.num p))
        | none => s.mmaRun c s.core.t[a] m skip edge y }

def execMma (c : CReg) (a b : TReg) (s e : Bool) (y : Ty) (st : State) : Out := st.issue (oMma c a b s e y)
def execMmaw (c : CReg) (a : TReg) (b : Fin 32) (s e : Bool) (y : Ty) (st : State) : Out :=
  st.issue (oMmaw c a b s e y)

/-- R156, R137: the memory operand is read and checked whole, and then the step of R154 begins. -/
def execMmam (c : CReg) (x : XSrc) (t : TReg) (d k e : Bool) (y : Ty) (st : State) : Out :=
  st.guard x.regs (x.cells ++ [cellT t.val, cellTab])
    (st.vmu
      (st.access { allow := .mem0123, align := 128 } (st.src x) 8192 fun g =>
         if st.mustWait g then .next (st.waitFor g)
         else
           st.vmuUse true fun st =>
             let m := Memory.writeBytes [] 0 (st.loadSegs g)
             let ma := if d then st.core.t[t] else m
             let mb := if d then m else st.core.t[t]
             match st.mmaRun c ma mb k e y with
             | .ok u => .next u.retireMark
             | .error r => st.refuse .load r))

/-! ### Reading accumulators out (R32, R157) -/

/-- The element format of a float TP; its bytes (R157, R160). -/
def tpFmt : Tp → Fmt
  | .bf16 => fmtBf16
  | .f16 => fmtF16
  | _ => fmtF32
def tpSize : Tp → Nat
  | .bf16 => 2
  | .f16 => 2
  | _ => 4
/-- Is the tile in the mode the TP requires? -/
def tpOk (p : Tp) (imode : Bool) : Bool :=
  match p with
  | .s32 => imode
  | .img => true
  | _ => !imode

/-- R157: an element converted; the flag is SAT. -/
def convElem (imode : Bool) (v : BitVec 80) (sat : Bool) (r : Rm) (p : Tp) : Nat × Bool :=
  if imode then
    if sat then
      let w := clampI (-(2 ^ 31)) (2 ^ 31 - 1) (clampI (-(2 ^ 35)) (2 ^ 35 - 1) v.toInt)
      (ofS 32 w, decide (w ≠ v.toInt))
    else (v.toNat % 2 ^ 32, false)
  else (fmtA36.convert (tpFmt p) r v.toNat, false)

/-- R31: a readout evaluates IOVF over the whole tile, and a clamp sets SAT. -/
def Acc.readout (c : Acc) (clamped : Bool) : Acc :=
  if clamped then c.evalIovf.stick { sat := true } else c.evalIovf

/-- R159. -/
def oAccrd (d : VReg) (c : CReg) (row : BitVec 6) (sat : Bool) (r : Rm) (p : Tp) : VOp :=
  { cells := [], dst := .lanes d none, run := fun s =>
      let a := s.core.c[c]
      if !tpOk p a.imode then .error (.trap .fmt 0)
      else
        let es := (List.range 64).map fun j => convElem a.imode (a.elem (64 * row.toNat + j)) sat r p
        .ok ((s.setV d (Vector.ofFn fun i => laneC ((es.getD i.val (0, false)).1))).setC c
          (a.readout (es.any (·.2)))) }
def execAccrd (d : VReg) (c : CReg) (row : BitVec 6) (s : Bool) (r : Rm) (p : Tp) (st : State) : Out :=
  st.issue (oAccrd d c row s r p)

/-! ### Images and transfers (R158, R160, R161) -/

/-- R160: the rows and columns stored, with addresses. -/
def State.accCells (s : State) (a b : X5Reg) (e : Bool) (size : Nat) : List (Nat × Word) :=
  let rows := if e then s.core.erow.toNat else 64
  let cols := if e then s.core.ecol.toNat else 64
  ((List.range rows).map fun i => (List.range cols).map fun j =>
    (64 * i + j, s.rx (x5 a) + BitVec.ofNat 64 i * s.strideOf b (64 * size)
      + BitVec.ofNat 64 (j * size))).flatten

/-- R160. -/
def execAccst (c : CReg) (a b : X5Reg) (e s : Bool) (r : Rm) (p : Tp) (st : State) : Out :=
  st.guard [a.val, b.val] [cellX a.val, cellX b.val]
    (st.vmu
      (let acc := st.core.c[c]
       let base := st.rx (x5 a)
       if p == .img then
         let parts := (List.range 4100).map fun i => (base + BitVec.ofNat 64 (16 * i), 16)
         st.access { kind := .store, allow := .mem01, align := 64 } base 65600 fun _ =>
           st.accesses { kind := .store, allow := .mem01 } parts fun gs =>
             let t := acc.evalIovf
             let data := (List.range 4100).map fun i => t.image.readBytes (16 * i) 16
             .next (((st.setC c t).pushAll (((parts.map (·.1)).zip gs).zip data)).retireStore gs.flatten)
       else if !tpOk p acc.imode then st.trap .fmt 0
       else
         let size := tpSize p
         let stride := st.strideOf b (64 * size)
         if base.toNat % size ≠ 0 then st.trap .align base
         else if stride.toNat % size ≠ 0 then st.trap .align (base + stride)
         else
           let cells := st.accCells a b e size
           st.accesses { kind := .store, allow := .mem012 } (cells.map fun x => (x.2, size)) fun gs =>
             let es := cells.map fun x => convElem acc.imode (acc.elem x.1) s r p
             let data := es.map fun x => bytesOf size x.1
             let u := st.setC c (acc.readout (es.any (·.2)))
             .next ((u.pushAll (((cells.map (·.2)).zip gs).zip data)).retireStore gs.flatten)))

/-- R161. -/
def execAccld (c : CReg) (a b : X5Reg) (_ _ : Bool) (_ : Rm) (p : Tp) (st : State) : Out :=
  st.guard [a.val, b.val] [cellX a.val, cellX b.val]
    (st.vmu
      (let base := st.rx (x5 a)
       if p == .img then
         st.access { allow := .mem01, align := 64 } base 65600 fun g =>
           if st.mustWait g then .next (st.waitFor g)
           else
             let m := Memory.writeBytes [] 0 (st.loadSegs g)
             if !imageOk m then st.trap .fmt 0
             else st.pinPages base 65600 fun st => .next (st.setC c (accOfImage m)).retireMark
       else if st.core.c[c].imode then st.trap .fmt 0
       else
         st.access { allow := .mem012, align := 4 } base 16384 fun g =>
           if st.mustWait g then .next (st.waitFor g)
           else
             st.pinPages base 16384 fun st =>
             let bs := Memory.writeBytes [] 0 (st.loadSegs g)
             let elems := (List.range 4096).foldl (fun m i =>
               setElem m i (BitVec.ofNat 80 (fmtF32.convert fmtA36 .rne (bs.readN (4 * i) 4)))) []
             .next (st.setC c { st.core.c[c] with elems := elems }).retireMark))

/-- R162. -/
def execAccswap (st : State) : Out :=
  st.vmuUse false fun st => (.next (({ st with core := { st.core with
    c := (st.core.c.set 0 st.core.c[1]).set 1 st.core.c[0] } }).retireMark))

def oAccclr (c : CReg) (i : Bool) : VOp :=
  { cells := [], commit := true, run := fun s => .ok (s.setC c { imode := i }) }
def execAccclr (c : CReg) (i : Bool) (st : State) : Out := st.issue (oAccclr c i)

/-- R44, R162: the read evaluates IOVF. -/
def execAccstat (d : XReg) (c : CReg) (st : State) : Out :=
  st.guard [d.val] []
    (st.vmuUse false fun st =>
      let a := st.core.c[c].evalIovf
      .next ((st.setC c a).setX d a.stat).retire)

end Sys2Proof.Machine
end

