-- ==== Sys2Proof/Machine/Csr.lean ====
section
/-! DEFINITION. The control registers (R46-R50, R151, R350), the instructions that read and write them
(R185), and TRAP, BRK and ERET (R187, R189). -/

namespace Sys2Proof.Machine

/-- SLOTMAPj: sixteen slots of four bits. -/
def State.slotmapWord (s : State) (j : Nat) : Word :=
  BitVec.ofNat 64 ((List.range 16).map fun i =>
    ((s.slotmap.toList.getD (16 * j + i) 0).toNat) * 2 ^ (4 * i)).sum
def State.setSlotmap (s : State) (j : Nat) (v : Word) : State :=
  { s with slotmap := Vector.ofFn fun k =>
      if k.val / 16 = j && k.val != 0 then v.extractLsb' (4 * (k.val % 16)) 4 else s.slotmap[k] }

/-- LAYERST. -/
def State.layerst (s : State) : Word :=
  BitVec.ofNat 64 ((List.range 12).map fun l => (s.layer l).state.code * 4 ^ l).sum

/-! ### Reading and writing by number (R47) -/

/-- The value of an assigned control register. -/
def State.csr (s : State) (n : Nat) : Option Word :=
  let c := s.core
  match n with
  | 0x001 => some c.csrs.astr
  | 0x002 => some c.csrs.qdst
  | 0x003 => some (c.csrs.qwgt.zeroExtend 64)
  | 0x005 => some (c.csrs.fmta.zeroExtend 64)
  | 0x006 => some (c.csrs.fmtb.zeroExtend 64)
  | 0x007 => some (scl c.csrs.scla)
  | 0x008 => some (scl c.csrs.sclb)
  | 0x009 => some (BitVec.ofNat 64 (c.csrs.skth.toNat + 256 * s.derate (layerOf c.num)))
  | 0x00A => some c.csrs.sklog
  | 0x00B => some (c.csrs.skctl.zeroExtend 64)
  | 0x400 => some c.wid
  | 0x401 => some c.geom
  | 0x402 => some c.rlimWord
  | 0x403 => some (c.c[0].evalIovf.stat)
  | 0x404 => some (c.c[1].evalIovf.stat)
  | 0x405 => some c.rlktab
  | 0x406 => some c.frs
  | 0x407 => some c.table.tblst
  | 0x408 => some c.rslot
  | 0x800 => some c.status
  | 0x801 => some c.epc
  | 0x802 => some (c.cause.zeroExtend 64)
  | 0x803 => some c.tval
  | 0x804 => some ((s.layer (layerOf c.num)).lbal.zeroExtend 64)
  | 0xC00 => some s.layerst
  | _ =>
    if 0x808 ≤ n && n ≤ 0x80B then some (s.slotmapWord (n - 0x808))
    else if 0x810 ≤ n && n ≤ 0x81F then some (c.prot.toList.getD (n - 0x810) 0)
    else none

/-- Change the current core's unprivileged registers. -/
def State.modCsrs (s : State) (f : Csrs → Csrs) : State :=
  { s with core := { s.core with csrs := f s.core.csrs } }

/-- Write a read-write control register, field by field; reserved fields ignore the write (R10). -/
def State.setCsr (s : State) (n : Nat) (v : Word) : State :=
  match n with
  | 0x001 => s.modCsrs fun c => { c with astr := v }
  | 0x002 => s.modCsrs fun c => { c with qdst := v &&& qdstMask }
  | 0x003 => s.modCsrs fun c => { c with qwgt := qwgtOf v }
  | 0x005 => s.modCsrs fun c => { c with fmta := v.extractLsb' 0 4 }
  | 0x006 => s.modCsrs fun c => { c with fmtb := v.extractLsb' 0 4 }
  | 0x007 => s.modCsrs fun c => { c with scla := v.extractLsb' 6 8 }
  | 0x008 => s.modCsrs fun c => { c with sclb := v.extractLsb' 6 8 }
  | 0x009 => s.modCsrs fun c => { c with skth := v.extractLsb' 0 8 }
  | 0x00A => s.modCsrs fun c => c.setSklog v
  | 0x00B => s.modCsrs fun c => { c with skctl := v.extractLsb' 0 2 }
  | 0x800 => { s with core := s.core.setStatus v }
  | 0x801 => { s with core := { s.core with epc := word4 v } }
  | 0x802 => { s with core := { s.core with cause := v.extractLsb' 0 5 } }
  | 0x803 => { s with core := { s.core with tval := v } }
  | 0x804 => s.modLayer (layerOf s.core.num) fun l => { l with lbal := v.extractLsb' 0 8 }
  | _ =>
    if 0x808 ≤ n && n ≤ 0x80B then s.setSlotmap (n - 0x808) v
    else if 0x810 ≤ n && n ≤ 0x81F then
      { s with core := { s.core with prot := s.core.prot.setIfInBounds (n - 0x810) (v &&& protMask) } }
    else s

/-- R46: writes to these are placed in the VMU queue. -/
def vmuWritten (n : Nat) : Bool := [0x003, 0x005, 0x006, 0x007, 0x008, 0x009, 0x00A, 0x00B].contains n
/-- R44, R46, R151: reads of these wait for the VMU. -/
def vmuRead (n : Nat) : Bool := [0x00A, 0x403, 0x404, 0x407].contains n

/-- The checks of R46, then what the access does. -/
def State.csrAccess (s : State) (n : Nat) (write : Bool) (k : Word → Out) : Out :=
  if bits n 11 1 = 1 && !s.core.p then s.trap .priv 0
  else match s.csr n with
    | none => s.ill
    | some v => if write && bits n 10 1 = 1 then s.ill else k v

/-- R44: a read of ACCSTAT evaluates IOVF. -/
def State.csrRead (s : State) (n : Nat) : State :=
  if n = 0x403 then s.setC 0 (s.core.c[0]).evalIovf
  else if n = 0x404 then s.setC 1 (s.core.c[1]).evalIovf
  else s

/-- The poisoned cells that a read of the register consumes (R356). -/
def csrCells (n : Nat) : List Nat := if n = 0x407 then [cellTab] else []

/-- What is left of a remote load once a younger instruction has written a register of it. -/
def SlotUse.without (r : XReg) : SlotUse → SlotUse
  | .ld d .p q => if d = r then .ldHigh (nextReg d) q else if d.val + 1 = r.val then .ld d .b64 q else .ld d .p q
  | .ld d t q => if d = r then .ld 0 t q else .ld d t q
  | .ldHigh d q => if d = r then .ldHigh 0 q else .ldHigh d q
  | .amo d w u => if d = r then .amo 0 w u else .amo d w u
  | u => u

/-- The current core's remote loads that are on their way do not write register r any more. -/
def State.overwrite (s : State) (r : XReg) : State :=
  if r.val = 0 then s
  else s.core.rorder.foldl (fun s q => s.modCore q.1 fun c => { c with
    slots := c.slots.set q.2.val ((c.slots[q.2]).map fun (k : RSlot) => { k with use := k.use.without r }) }) s

/-- R350: a read of RSLOT waits for no remote load, one that writes its own destination not excepted. -/
def State.readRslot (st : State) (d : XReg) (v : Word) : Out :=
  match st.badReg [d.val] with
  | some i => st.trap .regidx (BitVec.ofNat 64 i)
  | none => .next ((st.overwrite d).setX d v).retire

/-- R185. -/
def execCsrr (d : XReg) (c : BitVec 12) (st : State) : Out :=
  st.csrAccess c.toNat false fun v =>
    if c.toNat = 0x408 then st.readRslot d v
    else st.guard [d.val] (csrCells c.toNat)
      (if vmuRead c.toNat && st.vmuBusy then .next st.stall
       else .next ((st.csrRead c.toNat).setX d v).retire)

/-- CSRW, CSRS and CSRC: `f` makes the new value of the register's and the source's. -/
def State.csrModify (st : State) (d : XSrc) (c : BitVec 12) (f : Word → Word → Word) : Out :=
  st.csrAccess c.toNat true fun v =>
    st.guard d.regs d.cells
      (if (vmuWritten c.toNat || vmuRead c.toNat) && st.vmuBusy then .next st.stall
       else .next (st.setCsr c.toNat (f v (st.src d))).retire)

def execCsrw (d : XSrc) (c : BitVec 12) (st : State) : Out := st.csrModify d c fun _ x => x
def execCsrs (d : XSrc) (c : BitVec 12) (st : State) : Out := st.csrModify d c fun v x => v ||| x
def execCsrc (d : XSrc) (c : BitVec 12) (st : State) : Out := st.csrModify d c fun v x => v &&& ~~~x

/-! ### Traps (R187, R189) -/

def execTrap (i : BitVec 13) (st : State) : Out := st.trap .trapi (i.zeroExtend 64)
def execBrk (i : BitVec 13) (st : State) : Out := st.trap .brk (i.zeroExtend 64)

/-- R64, R189. -/
def execEret (st : State) : Out := st.privileged (.next st.eret)

/-- R57, R65: a word that is no instruction raises ILL with the word as TVAL. -/
def execIllEncoding (w : BitVec 32) (st : State) : Out := st.trap .ill (w.zeroExtend 64)

end Sys2Proof.Machine
end

