-- ==== Sys2Proof/Machine/Fetch.lean ====
section
/-! DEFINITION. Fetching an instruction (R51, R52, R57, R383), what happens at an instruction
boundary before it (R62, R209), and the single-step trap after it (R50). -/

namespace Sys2Proof.Machine

/-- R383: fetch is allowed from spaces 0 to 3; from space 4 or a global address it raises ADDR. -/
def fetchAccess : Access := { kind := .fetch, allow := .mem, align := 4 }

/-- A store to a WAREA register (R220). -/
def SbEntry.sizesWells (e : SbEntry) : Bool :=
  match e.home with
  | .mmio off => decide (0x0053_0000 ≤ off) && decide (off < 0x0053_1800)
  | _ => false

/-- R220: a write of WAREA takes effect before any later access of the writing core, its fetches among
them. -/
def State.sizingWells (s : State) : Bool :=
  s.core.sb.any SbEntry.sizesWells
    || s.flying.any fun f => f.core == s.core.num && f.entry.sizesWells

/-- Check and read one word of the instruction stream. -/
def State.fetchWord (s : State) (a : Word) (k : Nat → Out) : Out :=
  if s.sizingWells then .next s.stall
  else match s.spaceOf a.toNat with
  | .global _ _ => s.trap .addr a
  | _ => s.access fetchAccess a 4 fun segs =>
      if s.fetchWaits segs then .next (s.waitFetch segs) else k (ofBytes (s.loadSegs segs))

/-- An instruction as fetched: its word, its literal words and its length in words. -/
structure Fetched where
  w : Nat
  l0 : Nat := 0
  l1 : Nat := 0
  len : Nat := 1
  deriving DecidableEq, Repr

/-- R57: every word of the instruction and its literal is fetched before anything else. -/
noncomputable def State.fetch (s : State) (k : Fetched → Out) : Out :=
  s.fetchWord s.core.pc fun w =>
    match wordsOf w with
    | 2 => s.fetchWord (s.core.pc + 4) fun l0 => k { w := w, l0 := l0, len := 2 }
    | 3 => s.fetchWord (s.core.pc + 4) fun l0 => s.fetchWord (s.core.pc + 8) fun l1 =>
        k { w := w, l0 := l0, l1 := l1, len := 3 }
    | _ => k { w := w }

/-- The fetched instruction stands at PC: NPC and the word it raises ILL with. -/
def State.begin (s : State) (f : Fetched) : State :=
  { s with core := { s.core with
      npc := s.core.pc + BitVec.ofNat 64 (4 * f.len), iw := BitVec.ofNat 32 f.w
      completed := false, brkDue := false, gaveUp := 0 } }

/-- The instruction at PC has begun and has not ended: no boundary stands before it. -/
def Core.begun (c : Core) : Bool := c.woken || c.progress != .none || c.rwait

/-- R316, R318: the restart that an instruction has held up. A page that has come meanwhile asks for none. -/
def State.dueRestart (s : State) (w : Wait) : State :=
  let u := { s with core := { s.core with restartDue := none } }
  match w with
  | .translation va _ => (match u.walk (u.ctxAsid u.core.ctx) (va / 2 ^ 21) with
    | .hit _ _ => u
    | _ => u.restartFor w)
  | _ => u.restartFor w

/-- What an instruction boundary brings before the next instruction: a restart that is due; the BRK of an
instruction that was done as its core was halted (R50); the fault of a replayed frame (R62); and once STATUS.P =
0, outside a capture, a fault found away from the core (R313, R316, log entry 70), or MSGDONE for a returned
flit (R209). -/
def State.boundary (s : State) : Option State :=
  if s.core.begun then none
  else match s.core.restartDue with
  | some w => some (s.dueRestart w)
  | none =>
  if s.core.brkDue then some (({ s with core := { s.core with brkDue := false } }).takeTrap .brk 0)
  else match s.core.frame.fault with
  | some p =>
    some (({ s with core := { s.core with frame := { s.core.frame with fault := none } } }).takeTrap
      p.cause p.tval)
  | none =>
    if s.core.p || s.core.frame.cap then none
    else match s.core.owed with
    | some p => some (({ s with core := { s.core with owed := none } }).takeTrap p.cause p.tval)
    | none =>
    if s.core.bounces ≠ 0 then
      some (({ s with core := { s.core with
        bounces := s.core.bounces - 1
        snap := { s.core.snap with bounced := s.core.snap.bounced + 1 } } }).takeTrap .msgdone 0)
    else none

/-- R50: with SS, an instruction that completes with P = 0 is followed by BRK, EPC at the next. A GLD
is over once its destination is written (R352). STATUS is looked at as the instruction leaves it, so a CSRW
that clears P under SS is followed by BRK (DESIGN CHOICE, log entry 83). -/
def State.afterInstr (s : State) : State :=
  if s.core.completed && s.core.ss && !s.core.p && s.core.rorder.isEmpty then
    ({ s with core := { s.core with completed := false } }).takeTrap .brk 0
  else s

/-- Does a core have a task that runs (R197)? Its layer is awake and holds its copy of the mirrored
region (R254, R255), and its context is not being stopped (R299). -/
def State.coreRuns (s : State) (c : Core) : Bool :=
  c.task.isSome && c.tstate == .running && !c.frozen && c.memberOf.isNone
    && (s.layer (layerOf c.num)).state == .awake && (s.layer (layerOf c.num)).waking.isNone
    && !s.held.contains c.ctx
def State.canRun (s : State) : Bool := s.coreRuns s.core

/-- An event happened: whoever waited may try again. -/
def State.wakeStalls (s : State) : State :=
  { s with core := { s.core with stalled := false }
           others := s.others.map fun c => { c with stalled := false } }

end Sys2Proof.Machine
end

