-- ==== Sys2Proof/Machine/Frame.lean ====
section
/-! DEFINITION. Repeat frames (R59-R62, R163) and the grants of the quad's shared VMU (R203). -/

namespace Sys2Proof.Machine

/-! ### Strided fields (R59, R163) -/

/-- A 32-register field, or a number, of a pass: (field + p * s) mod 32. -/
def stride32 (k : Nat) (f : Fin 32) : Fin 32 := ⟨(f.val + k) % 32, Nat.mod_lt _ (by decide)⟩
def strideBits (k : Nat) (f : BitVec 5) : BitVec 5 := BitVec.ofNat 5 (f.toNat + k)
/-- A field of a smaller class, where it stays inside it. -/
def strideReg {n : Nat} (k : Nat) (f : Fin n) : Option (Fin n) :=
  if h : (f.val + k) % 32 < n then some ⟨(f.val + k) % 32, h⟩ else none
/-- ACCRD's row: rlo is strided, rhi is not. -/
def strideRow (k : Nat) (r : BitVec 6) : BitVec 6 :=
  BitVec.ofNat 6 (r.toNat / 32 * 32 + (r.toNat % 32 + k) % 32)

/-- A body word on one pass: its operation; a field leaves its class; or it is not capturable. -/
inductive Captured where
  | op (o : VOp)
  | leaves
  | no

def withReg {α : Type} (r : Option α) (k : α → Captured) : Captured :=
  match r with
  | some a => k a
  | none => .leaves

/-- The operation of a capturable instruction with its fields d, a and b moved on (R60, R163). A stride of a
field that the instruction does not use changes nothing (DESIGN CHOICE, log entry 82). -/
def captured (kd ka kb : Nat) : Instr → Captured
  | .vadd a b c d => .op (oVadd (stride32 kd a) (stride32 ka b) (stride32 kb c) d)
  | .vsub a b c d => .op (oVsub (stride32 kd a) (stride32 ka b) (stride32 kb c) d)
  | .vadds a b c d => .op (oVadds (stride32 kd a) (stride32 ka b) (stride32 kb c) d)
  | .vsubs a b c d => .op (oVsubs (stride32 kd a) (stride32 ka b) (stride32 kb c) d)
  | .vaddus a b c d => .op (oVaddus (stride32 kd a) (stride32 ka b) (stride32 kb c) d)
  | .vsubus a b c d => .op (oVsubus (stride32 kd a) (stride32 ka b) (stride32 kb c) d)
  | .vmul a b c d => .op (oVmul (stride32 kd a) (stride32 ka b) (stride32 kb c) d)
  | .vmulh a b c d => .op (oVmulh (stride32 kd a) (stride32 ka b) (stride32 kb c) d)
  | .vmulhu a b c d => .op (oVmulhu (stride32 kd a) (stride32 ka b) (stride32 kb c) d)
  | .vmac a b c d => .op (oVmac (stride32 kd a) (stride32 ka b) (stride32 kb c) d)
  | .vdot4 a b c d => .op (oVdot4 (stride32 kd a) (stride32 ka b) (stride32 kb c) d)
  | .vand a b c d => .op (oVand (stride32 kd a) (stride32 ka b) (stride32 kb c) d)
  | .vor a b c d => .op (oVor (stride32 kd a) (stride32 ka b) (stride32 kb c) d)
  | .vxor a b c d => .op (oVxor (stride32 kd a) (stride32 ka b) (stride32 kb c) d)
  | .vandn a b c d => .op (oVandn (stride32 kd a) (stride32 ka b) (stride32 kb c) d)
  | .vnot a b c => .op (oVnot (stride32 kd a) (stride32 ka b) c)
  | .vsll a b c d => .op (oVsll (stride32 kd a) (stride32 ka b) (stride32 kb c) d)
  | .vsrl a b c d => .op (oVsrl (stride32 kd a) (stride32 ka b) (stride32 kb c) d)
  | .vsra a b c d => .op (oVsra (stride32 kd a) (stride32 ka b) (stride32 kb c) d)
  | .vror a b c d => .op (oVror (stride32 kd a) (stride32 ka b) (stride32 kb c) d)
  | .vslli a b c d => .op (oVslli (stride32 kd a) (stride32 ka b) (strideBits kb c) d)
  | .vsrli a b c d => .op (oVsrli (stride32 kd a) (stride32 ka b) (strideBits kb c) d)
  | .vsrai a b c d => .op (oVsrai (stride32 kd a) (stride32 ka b) (strideBits kb c) d)
  | .vrori a b c d => .op (oVrori (stride32 kd a) (stride32 ka b) (strideBits kb c) d)
  | .vmin a b c d => .op (oVmin (stride32 kd a) (stride32 ka b) (stride32 kb c) d)
  | .vmax a b c d => .op (oVmax (stride32 kd a) (stride32 ka b) (stride32 kb c) d)
  | .vminu a b c d => .op (oVminu (stride32 kd a) (stride32 ka b) (stride32 kb c) d)
  | .vmaxu a b c d => .op (oVmaxu (stride32 kd a) (stride32 ka b) (stride32 kb c) d)
  | .vabs a b c => .op (oVabs (stride32 kd a) (stride32 ka b) c)
  | .vfadd a b c d e => .op (oVfadd (stride32 kd a) (stride32 ka b) (stride32 kb c) d e)
  | .vfsub a b c d e => .op (oVfsub (stride32 kd a) (stride32 ka b) (stride32 kb c) d e)
  | .vfmul a b c d e => .op (oVfmul (stride32 kd a) (stride32 ka b) (stride32 kb c) d e)
  | .vfma a b c d e => .op (oVfma (stride32 kd a) (stride32 ka b) (stride32 kb c) d e)
  | .vfms a b c d e => .op (oVfms (stride32 kd a) (stride32 ka b) (stride32 kb c) d e)
  | .vfnma a b c d e => .op (oVfnma (stride32 kd a) (stride32 ka b) (stride32 kb c) d e)
  | .vfmin a b c d => .op (oVfmin (stride32 kd a) (stride32 ka b) (stride32 kb c) d)
  | .vfmax a b c d => .op (oVfmax (stride32 kd a) (stride32 ka b) (stride32 kb c) d)
  | .vfabs a b c => .op (oVfabs (stride32 kd a) (stride32 ka b) c)
  | .vfneg a b c => .op (oVfneg (stride32 kd a) (stride32 ka b) c)
  | .vfdiv a b c d e => .op (oVfdiv (stride32 kd a) (stride32 ka b) (stride32 kb c) d e)
  | .vfsqrt a b c d => .op (oVfsqrt (stride32 kd a) (stride32 ka b) c d)
  | .vfrecip a b c d => .op (oVfrecip (stride32 kd a) (stride32 ka b) c d)
  | .vfrsqrt a b c d => .op (oVfrsqrt (stride32 kd a) (stride32 ka b) c d)
  | .vcvtS32 a b c d => .op (oVcvtS32 (stride32 kd a) (stride32 ka b) c d)
  | .vcvtZ32 a b c d => .op (oVcvtZ32 (stride32 kd a) (stride32 ka b) c d)
  | .vcvtF32S32 a b c d => .op (oVcvtF32S32 (stride32 kd a) (stride32 ka b) c d)
  | .vcvtF32Z32 a b c d => .op (oVcvtF32Z32 (stride32 kd a) (stride32 ka b) c d)
  | .vcvtPbf16 a b c d => .op (oVcvtPbf16 (stride32 kd a) (stride32 ka b) (stride32 kb c) d)
  | .vcvtPf16 a b c d => .op (oVcvtPf16 (stride32 kd a) (stride32 ka b) (stride32 kb c) d)
  | .vcvtUbf16Lo a b c => .op (oVcvtUbf16Lo (stride32 kd a) (stride32 ka b) c)
  | .vcvtUbf16Hi a b c => .op (oVcvtUbf16Hi (stride32 kd a) (stride32 ka b) c)
  | .vcvtUf16Lo a b c => .op (oVcvtUf16Lo (stride32 kd a) (stride32 ka b) c)
  | .vcvtUf16Hi a b c => .op (oVcvtUf16Hi (stride32 kd a) (stride32 ka b) c)
  | .vcmp a b c d e => withReg (strideReg kd a) fun a' => .op (oVcmp a' (stride32 ka b) (stride32 kb c) d e)
  | .vmaskAnd a b c => withReg (strideReg kd a) fun a' => withReg (strideReg ka b) fun b' => withReg (strideReg kb c) fun c' => .op (oVmaskAnd a' b' c')
  | .vmaskOr a b c => withReg (strideReg kd a) fun a' => withReg (strideReg ka b) fun b' => withReg (strideReg kb c) fun c' => .op (oVmaskOr a' b' c')
  | .vmaskXor a b c => withReg (strideReg kd a) fun a' => withReg (strideReg ka b) fun b' => withReg (strideReg kb c) fun c' => .op (oVmaskXor a' b' c')
  | .vmaskAndn a b c => withReg (strideReg kd a) fun a' => withReg (strideReg ka b) fun b' => withReg (strideReg kb c) fun c' => .op (oVmaskAndn a' b' c')
  | .vmaskNot a b => withReg (strideReg kd a) fun a' => withReg (strideReg ka b) fun b' => .op (oVmaskNot a' b')
  | .vmaskSet a => withReg (strideReg kd a) fun a' => .op (oVmaskSet a')
  | .vmaskClr a => withReg (strideReg kd a) fun a' => .op (oVmaskClr a')
  | .vsel a b c d => .op (oVsel (stride32 kd a) (stride32 ka b) (stride32 kb c) d)
  | .vperm a b c d => .op (oVperm (stride32 kd a) (stride32 ka b) (stride32 kb c) d)
  | .vrev a b c => .op (oVrev (stride32 kd a) (stride32 ka b) c)
  | .vredSumS32 a b c => .op (oVredSumS32 (stride32 kd a) (stride32 ka b) c)
  | .vredSumF32 a b c d => .op (oVredSumF32 (stride32 kd a) (stride32 ka b) c d)
  | .vredMinS32 a b c => .op (oVredMinS32 (stride32 kd a) (stride32 ka b) c)
  | .vredMaxS32 a b c => .op (oVredMaxS32 (stride32 kd a) (stride32 ka b) c)
  | .vredMinF32 a b c => .op (oVredMinF32 (stride32 kd a) (stride32 ka b) c)
  | .vredMaxF32 a b c => .op (oVredMaxF32 (stride32 kd a) (stride32 ka b) c)
  | .vredArgminF32 a b c => .op (oVredArgminF32 (stride32 kd a) (stride32 ka b) c)
  | .vredArgmaxF32 a b c => .op (oVredArgmaxF32 (stride32 kd a) (stride32 ka b) c)
  | .vtopk a b c d => if 1 ≤ (strideBits kb c).toNat && (strideBits kb c).toNat ≤ 8 then .op (oVtopk (stride32 kd a) (stride32 ka b) (strideBits kb c) d) else .leaves
  | .vlaneIota a b => .op (oVlaneIota (stride32 kd a) b)
  | .vlaneCompress a b c => .op (oVlaneCompress (stride32 kd a) (stride32 ka b) c)
  | .vslide a b c d e => .op (oVslide (stride32 kd a) (stride32 ka b) (stride32 kb c) d e)
  | .mma a b c d e f => withReg (strideReg kd a) fun a' => withReg (strideReg ka b) fun b' => withReg (strideReg kb c) fun c' => .op (oMma a' b' c' d e f)
  | .mmaw a b c d e f => withReg (strideReg kd a) fun a' => withReg (strideReg ka b) fun b' => .op (oMmaw a' b' (stride32 kb c) d e f)
  | .accrd a b c d e f => withReg (strideReg ka b) fun b' => .op (oAccrd (stride32 kd a) b' (strideRow kb c) d e f)
  | .accclr a b => withReg (strideReg kd a) fun a' => .op (oAccclr a' b)
  | .tmov a b => withReg (strideReg kd a) fun a' => withReg (strideReg ka b) fun b' => .op (oTmov a' b')
  | .tmovT16 a b => withReg (strideReg kd a) fun a' => withReg (strideReg ka b) fun b' => .op (oTmovT16 a' b')
  | .tmovT8 a b => withReg (strideReg kd a) fun a' => withReg (strideReg ka b) fun b' => .op (oTmovT8 a' b')
  | .tmovVr a b c => withReg (strideReg kd a) fun a' => .op (oTmovVr a' (stride32 ka b) (stride32 kb c))
  | .tmovRv a b c => withReg (strideReg ka b) fun b' => .op (oTmovRv (stride32 kd a) b' (stride32 kb c))
  | .tmovZero a => withReg (strideReg kd a) fun a' => .op (oTmovZero a')
  | _ => .no

/-- The distance of pass p for each field: bit 2 of SEL is d, bit 1 is a, bit 0 is b. -/
def Frame.delta (f : Frame) (p i : Nat) : Nat := if f.sel.getLsbD i then p * f.stride.toNat else 0

def Frame.onPass (f : Frame) (p : Nat) (i : Instr) : Captured :=
  captured (f.delta p 2) (f.delta p 1) (f.delta p 0) i

/-- R48, R153: does a body instruction read scales or the skip log, or write that log? -/
def Frame.transfers (f : Frame) : Bool :=
  f.body.any fun w => match decodeV w.toNat with
    | .ok (.mma _ _ _ k _ _) => k || f.ctl.fmta == 11 || f.ctl.fmtb == 11
    | .ok (.mmaw _ _ _ k _ _) => k || f.ctl.fmta == 11 || f.ctl.fmtb == 11
    | _ => false

/-- R228: the transfers of a frame stand at its place in program order: while its passes are out, no later
access of the core goes ahead. -/
def State.frameFirst (s : State) : Bool := s.vmuBusy && s.core.frame.transfers

/-! ### Capture (R60) -/

/-- R59, R60: REPF. -/
def execRepf (k : BitVec 4) (n : BitVec 8) (s : BitVec 5) (e : BitVec 3) (st : State) : Out :=
  if st.core.frame.suspended then st.trap .frame (st.core.iw.zeroExtend 64)
  else if st.core.frame.act then .next st.stall
  else
    let f : Frame := { cap := true, sel := e, stride := s, nm1 := n, km1 := k, bodyPc := st.core.npc
                       here := true }
    .next { st with core := { st.core with frame := f, pc := st.core.npc, progress := .none } }

/-- A capture that ends early: the frame is discarded, EPC is body word 0. -/
def State.dropFrame (s : State) (c : Cause) (tval : Word) : State :=
  ({ s with core := { s.core with frame := {} } }).takeTrapAt c tval s.core.frame.bodyPc
def State.dropCapture (s : State) (c : Cause) (tval : Word) : Out := .next (s.dropFrame c tval)

/-- Is the instruction capturable, and do its fields stay in their classes on every pass? -/
def Frame.accepts (f : Frame) (i : Instr) : Bool :=
  (List.range (f.nm1.toNat + 1)).all fun p => match f.onPass p i with
    | .op _ => true
    | _ => false

/-- R137 step 5: does the body hold a committing instruction? -/
def Frame.commits (f : Frame) (body : List IWord) : Bool :=
  body.any fun w => match decodeV w.toNat with
    | .ok i => (match f.onPass 0 i with | .op o => o.commit | _ => false)
    | .error _ => false

/-- A body word has been fetched and found good. -/
def State.captureWord (s : State) (w : IWord) : State :=
  let f := s.core.frame
  let body := f.body ++ [w]
  if body.length ≤ f.km1.toNat then
    { s with core := { s.core with pc := s.core.pc + 4, frame := { f with body := body, idx := body.length } } }
  else
    let u := { s with core := { s.core with
      pc := s.core.pc + 4, completed := true
      frame := { f with body := body, cap := false, act := true, idx := 0
                        ctl := s.core.csrs, since := s.tick } } }
    if f.commits body then u.newRegion else u

/-- R60: one word of the body is fetched. `d` is what the decoder says of a word: none for a word
that is no instruction, else the instruction. -/
def State.capture (s : State) (d : Nat → Option Instr) : Out :=
  match s.spaceOf s.core.pc.toNat with
  | .global _ _ => s.dropCapture .addr s.core.pc
  | _ => match s.check fetchAccess s.core.pc 4 with
    | .trap c tv => s.dropCapture c tv
    | .lock e tv => ({ s with core := { s.core with rhit := some e } }).dropCapture .rlock tv
    | .miss vpn va => .next (s.askWalk .fetch vpn va)
    | .ok segs =>
      if s.fetchWaits segs then .next (s.waitFetch segs)
      else
        let w := ofBytes (s.loadSegs segs)
        match d w with
        | none => s.dropCapture .ill (BitVec.ofNat 64 w)
        | some i =>
          if s.core.frame.accepts i then .next (s.captureWord (BitVec.ofNat 32 w))
          else s.dropCapture .frame (BitVec.ofNat 64 w)

/-! ### Replay (R61, R62) -/

/-- The frame moves on to the next body instruction, the next pass, or its end; `now` is the step. -/
def Frame.advance (f : Frame) (now : Nat) : Frame :=
  if f.idx < f.km1.toNat then { f with idx := f.idx + 1, since := now }
  else if f.pass < f.nm1.toNat then { f with idx := 0, pass := f.pass + 1, since := now }
  else {}

/-- The control registers with those that a tile operation samples taken from another set (R46). R61's list
leaves SKLOG out, so it stays (DESIGN CHOICE, log entry 107). -/
def Csrs.sampling (k c : Csrs) : Csrs :=
  { k with fmta := c.fmta, fmtb := c.fmtb, scla := c.scla, sclb := c.sclb, skth := c.skth
           skctl := c.skctl }

/-- A body instruction, which samples the control registers as they stand at the body (R61). -/
def VOp.inFrame (o : VOp) (s : State) : Except Check State :=
  match o.run { s with core := { s.core with csrs := s.core.csrs.sampling s.core.frame.ctl } } with
  | .ok u => .ok { u with core := { u.core with csrs := u.core.csrs.sampling s.core.csrs } }
  | .error e => .error e

/-- The next operation of the current core's frame. -/
def Frame.next (f : Frame) : Option VOp :=
  match decodeV (f.body.getD f.idx 0).toNat with
  | .ok i => (match f.onPass f.pass i with | .op o => some o | _ => none)
  | .error _ => none

/-- A fault of a replayed instruction waits for the next instruction boundary (R62). -/
def State.frameFault (s : State) (c : Cause) (tval : Word) : State :=
  { s with core := { s.core with frame := { s.core.frame with fault := some ⟨c, tval⟩ } } }

/-- R137: the snapshot takes what a body instruction wrote, and nothing else: `m` is the mask register that it
read, `u` the core behind it. -/
def Snap.takes (k : Snap) (o : VOp) (m : Word) (moved : Bool) (u : Core) : Snap :=
  let k := match o.dst with
    | .none => k
    | .lanes d _ =>
      let lanes := Vector.ofFn fun i => if m.getLsbD i.val then u.v[d][i] else k.v[d][i]
      { k with v := k.v.set d.val lanes }
    | .mask d => { k with m := k.m.set d.val u.m[d] }
  if moved then { k with csrs := { k.csrs with skpos := u.csrs.skpos } } else k

/-- The lanes that an operation writes, as the state stands before it. -/
def State.dstMask (s : State) : VDst → Word
  | .lanes _ m => s.mask m
  | _ => 0

/-- R62, R137: one body instruction of a pass. A pass stands before the region that has begun behind
the frame, so that region's snapshot takes what it wrote. A store of its log stands in the buffer before the
stores of that region (R228). -/
def State.passStep (s : State) : State :=
  match s.core.frame.next with
  | none => { s with core := { s.core with frame := s.core.frame.advance s.tick } }
  | some o =>
    match s.poisonedCell o.cells with
    | some c => s.frameFault .poison (cellAddr s.core.num c)
    | none => match o.inFrame s with
      | .error (.trap c tv) => s.frameFault c tv
      | .error (.lock e tv) =>
        ({ s with core := { s.core with rhit := some e } }).frameFault .rlock tv
      | .error _ => s
      | .ok u =>
        let u := { u with core := { u.core with frame := s.core.frame.advance s.tick } }
        if s.core.frame.here then u
        else
          let k := s.core.sbOld
          let mine := u.core.sb.drop s.core.sb.length
          { u with core := { u.core with
            snap := u.core.snap.takes o (s.dstMask o.dst) (u.core.csrs.skpos != s.core.csrs.skpos) u.core
            sb := s.core.sb.take k ++ mine ++ s.core.sb.drop k
            sbOld := k + mine.length } }

/-! ### Grants (R203) -/

/-- The head of a core's queue is granted a resource of the kind, and holds it: a step of its frame is
carried out; an ordinary instruction goes on at its core's turn. -/
def State.grantHead (s : State) (v : Vmu) (array : Bool) (c : Nat) : State :=
  let n := 4 * v.quad + c
  let t := s.setVmu (v.give array c)
  if s.frameReady (s.getCore n) then t.onCore n State.passStep
  else t.modCore n fun k => { k with
    stalled := false, vmuWait := k.vmuWait.map fun w => { w with granted := true } }

/-- VMU_RESOURCE_GRANT: the array if a head needs it and it is free, else a free lane group. -/
def execVmuResourceGrant (quad : Nat) (s : State) : Out :=
  let v := s.vmuOf quad
  match s.arbiter v true (s.heads v true) with
  | some (c, w) => .next (s.grantHead w true c)
  | none => match s.arbiter v false (s.heads v false) with
    | some (c, w) => .next (s.grantHead w false c)
    | none => .next s

/-- A grant that its ordinary instruction has still to use. -/
def State.vmuOwed (s : State) (v : Vmu) (array : Bool) (c : Nat) : Bool :=
  !s.frameReady (s.getCore (4 * v.quad + c))
    && ((s.vmuHead (s.getCore (4 * v.quad + c))).map fun w => w.granted && w.array == array).getD false

/-- VMU_INSTRUCTION_COMPLETE: the array, else the oldest lane group whose instruction has been carried
out, is free again. A core whose queue is empty loses its credit (R203). -/
def execVmuInstructionComplete (quad : Nat) (s : State) : Out :=
  let v := s.vmuOf quad
  let done : Option (Bool × Nat) := match v.array with
    | some c => if s.vmuOwed v true c then (v.groups.find? fun c => !s.vmuOwed v false c).map (false, ·)
                else some (true, c)
    | none => (v.groups.find? fun c => !s.vmuOwed v false c).map (false, ·)
  match done with
  | none => .next s
  | some (array, c) =>
    let w := v.back array c
    let k := s.getCore (4 * quad + c)
    .next (s.setVmu (if k.frame.act || (s.vmuHead k).isSome then w else w.forget c))

/-- REPF_PASS_STEP: the body instruction at the head of core n's queue has the resource it needs, as the
arbiter's choice, and is carried out; the resource is free behind it. -/
def execRepfPassStep (n : Nat) (s : State) : Out :=
  let c := s.getCore n
  let v := s.vmuOf (n / 4)
  if !s.frameReady c then .next s
  else match s.arbiter v c.needsArray (s.heads v c.needsArray) with
    | some (k, w) =>
      if k = n % 4 then
        let t := s.onCore n State.passStep
        .next (t.setVmu (if (t.getCore n).frame.act then w else w.forget k))
      else .next s
    | none => .next s

end Sys2Proof.Machine
end

