-- ==== Sys2Proof/Machine/Record.lean ====
section
/-! DEFINITION. The records that saved tasks are kept in (R200, R302, R303). -/

namespace Sys2Proof.Machine

/-! ### Records in memory (R302) -/

/-- Where the head and the bulk of a record lie. -/
def State.headAt (s : State) (ctx dom num : Nat) : Nat :=
  dom * 2 ^ 21 + 2 ^ 20 + s.reg (ctxBase ctx + 0x10) 8 % 2 ^ 20 + 8192 * num
def State.bulkAt (s : State) (ctx dom num : Nat) : Nat :=
  s.reg (ctxBase ctx + 0x18) 8 + (s.reg (ctxBase ctx + 0x20) 8 % 128 * dom + num) * 2 ^ 18

/-- Write a field of a record. -/
def State.putFld (s : State) (hv hb : Nat) (c : Core) (f : Fld) : State :=
  if f.off < 0x1_0000 then { s with vault := s.vault.splice (hv + f.off) f.n (f.get c) }
  else { s with hbm := s.hbm.splice (hb + (f.off - 0x1_0000)) f.n (f.get c) }
/-- Read a field of a record into a core. -/
def State.getFld (s : State) (hv hb : Nat) (c : Core) (f : Fld) : Core :=
  f.set (if f.off < 0x1_0000 then s.vault.slice (hv + f.off) f.n
         else s.hbm.slice (hb + (f.off - 0x1_0000)) f.n) c

/-- Where the overflow count of a record lies (R302). -/
def State.putOverflow (s : State) (hv core task : Nat) : State :=
  let n := (s.overflow.filter (OverFlit.isOf core task)).length
  { s with vault := s.vault.writeN (hv + 0x1110) 8 n }

/-- R356: a store clears poison, and poison travels with the data: a saved record's parts hold that of the
core's registers and local memory, and no other. -/
def State.poisonOut (s : State) (hv hb n : Nat) : State :=
  let place (o : Nat) : Place :=
    if o < 0x1_0000 then .vault ((hv + o) / 16 * 16) else .hbm ((hb + (o - 0x1_0000)) / 16 * 16)
  let kept := s.poison.filter fun p => match p with
    | .vault a => !(decide (hv ≤ a) && decide (a < hv + 0x1240))
    | .hbm a => !(decide (hb ≤ a) && decide (a < hb + 0x3_3880))
    | _ => true
  { s with poison := ((kept.map fun p => match p with
      | .reg k o => [if k = n then place o else p]
      | .localMem k a => if k = n then [p, place (0x1_0000 + a)] else [p]
      | p => [p]).flatten).eraseDups }

/-- The register cells and local-memory parts that 16 bytes of the layout from `o` on hold. -/
def cellsAt (n o : Nat) : List Place :=
  if 0x1_0000 ≤ o && o < 0x1_4000 then [.localMem n (o - 0x1_0000)]
  else if isPart o then [.reg n o]
  else (layout.filter fun f => decide (f.off < o + 16) && decide (o < f.off + f.n)).map fun f => .reg n f.off

/-- R356: poison of a record's parts comes back with its data. -/
def State.poisonIn (s : State) (hv hb n : Nat) : State :=
  let mine := (s.poison.map fun p => match p with
    | .vault a => if hv ≤ a && a < hv + 0x1240 then cellsAt n (a - hv) else []
    | .hbm a => if hb ≤ a && a < hb + 0x3_3880 then cellsAt n (0x1_0000 + (a - hb)) else []
    | _ => []).flatten
  let rest := s.poison.filter fun p => match p with
    | .reg k _ => k != n
    | .localMem k _ => k != n
    | _ => true
  { s with poison := (rest ++ mine).eraseDups }

/-- The lowest free record of a context in a domain (R302). -/
def State.freeRecord (s : State) (ctx dom : Nat) : Option Nat :=
  (List.range (s.reg (ctxBase ctx + 0x20) 8 % 128)).find? fun r =>
    !(s.records.any fun k => k.ctx == ctx && k.dom == dom && k.num == r)

/-- A core that lost its task: its own hardware state, without the task's. -/
def Core.vacate (c : Core) : Core :=
  { num := c.num, inbox := c.inbox, sb := c.sb, loc := c.loc
    memberOf := c.memberOf, circuits := c.circuits, slots := c.slots, frozen := c.frozen, remoteStores := c.remoteStores
    draws := c.draws }

/-- R200, R302: write the state of core n's task to record r of its domain; the core is then empty. -/
def State.save (s : State) (n r : Nat) (st : TState) (stop : Bool) : State :=
  let c := s.getCore n
  let d := routerOf n
  let hv := s.headAt c.ctx d r
  let hb := s.bulkAt c.ctx d r
  let image := { c with
    tstate := st, inbox := c.inbox.filter fun f => some f.task == c.task.map (·.id)
    locks := c.locks.map (·.map fun k => { k with gone := [] }), late := none }
  let s := layout.foldl (fun s f => s.putFld hv hb image f) s
  let s := s.putOverflow hv n ((c.task.map (·.id)).getD 0)
  let s := s.poisonOut hv hb n
  let k : Record := { ctx := c.ctx, dom := d, num := r, image := image, st := st, stop := stop }
  let rest := c.inbox.filter fun f => some f.task != c.task.map (·.id)
  let s := s.putCore { c.vacate with inbox := rest }
  { s with records := s.records ++ [k] }

/-- The state that a record's head names; codes from 4 on are reserved (R303). -/
def State.recordState (s : State) (k : Record) : Option TState :=
  match (s.vault.read (s.headAt k.ctx k.dom k.num)).toNat % 8 with
  | 0 => some .queued
  | 1 => some .running
  | 2 => some .parked
  | 3 => some .frozen
  | _ => none

/-- R303: a record that holds a reserved state is not restored; an error record is posted, whose code the manual
does not give (DESIGN CHOICE, log entry 115). -/
def State.refuseRecord (s : State) (k : Record) : State :=
  let rs := s.records.map fun q => if q = k then { q with go := false } else q
  ({ s with records := rs, free := s.free + 1 }).postError
    { code := (Config.freeByte s.free).toNat, ctx := some k.ctx, layer := layerOf k.image.num
      master := coreMaster k.image.num }

/-- R200, R304: load a record back onto its home core and release it. What runs on the core is its
task, RUNNING. -/
def State.load (s : State) (k : Record) : State :=
  let n := k.image.num
  let hv := s.headAt k.ctx k.dom k.num
  let hb := s.bulkAt k.ctx k.dom k.num
  let c := (layout.foldl (fun c f => s.getFld hv hb c f) k.image).homePins (s.ctxAsid k.ctx)
  let here := s.getCore n
  let s := { s with records := s.records.filter (· != k) }
  let s := s.putCore { c with
    inbox := here.inbox ++ c.inbox, sb := here.sb, sbOld := here.sb.length, circuits := here.circuits
    slots := here.slots, remoteStores := here.remoteStores, draws := here.draws, memberOf := none, members := [], tstate := .running, stalled := false
    frozen := false, freezeDue := false, halted := false, rstall := 0 }
  s.poisonIn hv hb n

end Sys2Proof.Machine
end

