-- ==== Sys2Proof/Machine/Tasks.lean ====
section
/-! DEFINITION. Tile tasks: completion counters and grants, the dispatchers, flits and handlers,
barriers and joins, messages and ligatures (R165-R176, R194-R217). -/

namespace Sys2Proof.Machine

/-! ### Launches as tasks meet them (R168, R290, R293) -/

/-- The launch with a number, while its slot is in flight. -/
def State.launch? (s : State) (id : Nat) : Option Launch :=
  (s.slots.find? (·.id == id)).bind fun k => match k.kind with
    | .launch l => some l
    | _ => none

/-- Change a launch. -/
def State.modLaunch (s : State) (id : Nat) (f : Launch → Launch) : State :=
  { s with slots := s.slots.map fun k =>
      if k.id = id then match k.kind with
        | .launch l => { k with kind := .launch (f l) }
        | _ => k
      else k }

/-- R293: a completion counter goes up, or down. -/
def Launch.count (l : Launch) (comp : Nat) (up : Bool) : Launch :=
  let v := l.counters.toList.getD comp 0
  { l with counters := l.counters.setIfInBounds comp (if up then v + 1 else v - 1) }
def State.raise (s : State) (launch comp : Nat) : State := s.modLaunch launch (·.count comp true)
def State.lower (s : State) (launch comp : Nat) : State := s.modLaunch launch (·.count comp false)

/-- An entry of a launch's task table (R291). -/
def State.hdr? (s : State) (launch entry : Nat) : Option TaskHdr :=
  (s.launch? launch).bind fun l => l.hdrs[entry]?

/-- R165: a launch of the context, still in flight, grants the number. -/
def State.holds (s : State) (ctx : Nat) (mask : Grants → Nat) (num : Nat) : Bool :=
  s.slots.any fun k => k.ctx == ctx && (match k.kind with
    | .launch l => bits (mask l.grants) num 1 == 1
    | _ => false)

/-- R168: the phase a launch runs now. -/
def State.phaseOf (s : State) (launch : Nat) : Nat := ((s.launch? launch).map (·.phases)).getD 0

/-! ### Dispatchers (R198-R201) -/

/-- Tasks that a dispatcher holds. -/
def State.queuedAt (s : State) (dom : Nat) : Nat := (s.queue.filter (·.dom == dom)).length

/-- R198: a dispatcher holds up to 1,024 tasks. -/
def State.dispatcherFull (s : State) (dom : Nat) : Bool := decide (1024 ≤ s.queuedAt dom)

/-- A task enters its dispatcher, at the tail of its own priority. -/
def State.enqueue (s : State) (t : Task) : State :=
  { s with queue := s.queue ++ [{ t with level := t.pri }] }

/-- R170: a dispatcher with room takes the oldest task of its spawn queue. -/
def State.refill (s : State) (dom : Nat) : State :=
  if s.dispatcherFull dom then s
  else match s.spawns.find? (·.dom == dom) with
    | some t =>
      let u := { s with spawns := dropFirst (·.dom == dom) s.spawns }
      u.enqueue t
    | none => s

/-- A task leaves its dispatcher. -/
def State.dequeue (s : State) (t : Task) : State :=
  ({ s with queue := s.queue.filter (·.id != t.id) }).refill t.dom

/-- Every dispatcher with room takes from its spawn queue (R170, R198). -/
def State.refillAll (s : State) : State := (s.spawns.map (·.dom)).foldl State.refill s

/-- R199: may the dispatcher give core n a task? -/
def State.eligible (s : State) (n : Nat) : Bool :=
  let c := s.getCore n
  decide (n < numCores) && !c.frozen && (s.layer (layerOf n)).state == .awake && c.memberOf.isNone
    && c.members.isEmpty && (c.task.isNone || c.tstate == .parked || c.tstate == .queued)

/-- R199, R299, R376: may this task start on core n? -/
def State.mayStart (s : State) (n : Nat) (t : Task) : Bool :=
  (match t.bound with
   | some c => c == n
   | none => t.dom == routerOf n)
    && !s.held.contains t.ctx && s.ctxState t.ctx == 1 && !s.ctxRevoked t.ctx

/-- R199: the oldest task at the highest level among those that may start on core n. -/
def State.nextTaskFor (s : State) (n : Nat) : Option Task :=
  (s.queue.filter (s.mayStart n)).foldl (fun b t => match b with
    | none => some t
    | some u => if u.level < t.level then some t else some u) none

/-- R196, R136, R222: core n as a new task finds it. Local memory keeps what it held. -/
def State.freshCore (s : State) (c : Core) (t : Task) : Core :=
  { c.vacate with
    task := some { t with bound := some c.num, started := s.tick }, tstate := .running
    latched := t.handler, wid := t.wid, erow := BitVec.ofNat 7 t.erow, ecol := BitVec.ofNat 7 t.ecol
    rlim := t.hdr.regs, pc := t.hdr.code, frozen := false
    prot := Vector.ofFn fun i => BitVec.ofNat 64 (s.reg (ctxBase t.ctx + 0x80 + 8 * i.val) 8) &&& protMask
    sbOld := c.sb.length }

/-- R357: a new task's registers are written, so none of them is poisoned. -/
def State.cleanRegs (s : State) (n : Nat) : State :=
  { s with poison := s.poison.filter fun p => match p with
      | .reg k _ => k != n
      | _ => true }

/-- A new task starts on core n; its first region begins (R235). -/
def State.startFresh (s : State) (n : Nat) (t : Task) : State :=
  let c := s.freshCore (s.getCore n) t
  (s.cleanRegs n).putCore { c with snap := c.takeSnap }

/-- R200: the resident task of core n goes to a record; none when no record is free, or while the core holds a
response slot (R350). -/
def State.parkSave (s : State) (n : Nat) : Option State :=
  let c := s.getCore n
  match c.task with
  | none => some s
  | some t =>
    if !(c.slots.toList.all (·.isNone)) then none
    else (s.freeRecord t.ctx (routerOf n)).map fun r =>
      let u := s.save n r c.tstate false
      { u with queue := u.queue.map fun q =>
          if q.id = t.id then { q with saved := true, resident := false } else q }

/-- Could the dispatcher give core n a task now? -/
def State.canStart (s : State) (n : Nat) : Bool :=
  s.eligible n && (match s.nextTaskFor n with
    | some t => t.resident || (s.parkSave n).isSome
    | none => false)

/-- R199: cores that are eligible together are served in ascending number: no core of the domain below n
waits for its task. -/
def State.firstServed (s : State) (n : Nat) : Bool :=
  !((List.range (n % 16)).any fun i => s.canStart (16 * routerOf n + i))

/-- Does the record of a task wait for its restore after a gang-stop (R304)? -/
def State.toRestore (s : State) (t : Task) : Bool :=
  t.saved && ((s.recordOf t.id).map (·.stop)).getD false

/-- TASK_START at core n (R199, R200). A task that a gang-stop saved is started by its restore (R280). -/
def execTaskStart (n : Nat) (s : State) : Out :=
  if !s.eligible n || !s.firstServed n then .next s
  else match s.nextTaskFor n with
    | none => .next s
    | some t =>
      if t.resident then
        .next ((s.dequeue t).modCore n fun c => { c with tstate := .running, stalled := false })
      else if s.toRestore t then .next s
      else match s.parkSave n with
        | none => .next s
        | some u =>
          let u := u.dequeue t
          if t.saved then match u.recordOf t.id with
            | some k => .next (if (u.recordState k).isSome then u.load k else u.refuseRecord k)
            | none => .next u
          else .next (u.startFresh n t)

/-- R201: a task that has waited for 4,096 cycles moves to the tail of the next level. -/
def execTaskAgingPromotion (r t : Nat) (s : State) : Out :=
  match s.queue.find? fun q => q.id == t && q.dom == r && decide (q.level < 7) with
  | some q => .next { s with queue := s.queue.filter (·.id != t) ++ [{ q with level := q.level + 1 }] }
  | none => .next s

/-! ### Waking (R197) -/

/-- Does the instruction at PC end at once when it is issued again after this wait? -/
def Wait.ends : Wait → Bool
  | .barw _ _ _ => true
  | .barSync _ _ _ => true
  | .spinw _ => true
  | .yield _ => true
  | _ => false

/-- The core's part of a wake. -/
def Core.awake (c : Core) : Core :=
  { c with woken := c.wait.ends, wait := .none, watch := none
           tstate := if c.members.isEmpty then .queued else .running }

/-- A record that changed is written where it lies: its state and its flits (R200, R301). -/
def State.putRecord (s : State) (k : Record) (fs : List Fld) : State :=
  let hv := s.headAt k.ctx k.dom k.num
  let s := fs.foldl (fun s f => s.putFld hv 0 k.image f) s
  let s := s.putOverflow hv k.image.num ((k.image.task.map (·.id)).getD 0)
  { s with records := s.records.map fun r =>
      if r.ctx = k.ctx && r.dom = k.dom && r.num = k.num then k else r }

/-- R197, R215, R366: a parked task is ready again. A ligature goes on at once; a frozen core keeps the wake, of
its resident task and of one that it has park-saved; a task that a gang-stop has halted or saved stays so, and
its wait is issued again when it is restored (R299, R300). A dispatcher that is full takes the task all the same
(log entry 89). -/
def State.wake (s : State) (t : Nat) : State :=
  match s.allCores.find? fun c => (c.task.map (·.id)) == some t with
  | some c =>
    if c.tstate = .parked then
      if s.held.contains c.ctx then s else
      let s := s.putCore c.awake
      if c.members.isEmpty then
        match c.task with
        | some k => s.enqueue { k with bound := some c.num, resident := true, saved := false }
        | none => s
      else s
    else if c.tstate = .frozen && c.wait != .none then
      s.putCore { c.awake with tstate := .frozen, wakeKept := true }
    else s
  | none =>
    match s.recordOf t with
    | some k =>
      if k.st = .parked && !k.stop then
        if (s.getCore k.image.num).frozen then s.putRecord { k with image := { k.image with wakeKept := true } } []
        else
        let s := s.putRecord { k with st := .queued, image := { k.image.awake with tstate := .queued } } headFlds
        match k.image.task with
        | some j => s.enqueue { j with bound := some k.image.num, saved := true, resident := false }
        | none => s
      else s
    | none => s

/-- What a task waits for, when it is parked. -/
def State.waitOf (s : State) (t : Nat) : Wait :=
  match s.allCores.find? fun c => (c.task.map (·.id)) == some t with
  | some c => c.wait
  | none => ((s.recordOf t).map (·.image.wait)).getD .none

/-- What a parked task watches. -/
def State.watchOf (s : State) (t : Nat) : Option (Home × Bool) :=
  match s.allCores.find? fun c => (c.task.map (·.id)) == some t with
  | some c => c.watch
  | none => (s.recordOf t).bind (·.image.watch)

/-- The line a parked task watches has been written (R119). A line of another package is written there:
the event itself is the word of it (log entry 5). -/
def State.watchWritten (s : State) (t : Nat) : Bool :=
  match s.watchOf t with
  | some (.global _ _, _) => true
  | some (_, b) => b
  | none => false

def execSpinwWake (t : Nat) (s : State) : Out :=
  match s.waitOf t with
  | .spinw _ => .next (if s.watchWritten t then s.wake t else s)
  | _ => .next s
/-- R119: 2^e cycles, and none for e = 0. -/
def execSpinwTimeout (t : Nat) (s : State) : Out :=
  match s.waitOf t with
  | .spinw e => .next (if e = 0 then s else s.wake t)
  | _ => .next s
def execYieldExpiry (t : Nat) (s : State) : Out :=
  match s.waitOf t with
  | .yield _ => .next (s.wake t)
  | _ => .next s

/-! ### Flits (R174, R207-R210) -/

/-- R174: the route header of a flit as it arrives. -/
def Flit.route (f : Flit) : Word :=
  BitVec.ofNat 64 (((f.src.map (·.1)).getD 0x1FFF) + (qdK f.qdst).toNat * 2 ^ 16 + qdTag f.qdst * 2 ^ 24
    + qdPri f.qdst * 2 ^ 40 + (qdG f.qdst).toNat * 2 ^ 52
    + (if qdG f.qdst then f.srcPkg * 2 ^ 53 else 0) + 2 ^ 63)
/-- R209: the route header of a bounce: the destination's core and package, the rest as sent. -/
def Flit.bounceRoute (f : Flit) : Word :=
  BitVec.ofNat 64 (qdCore f.qdst + (qdK f.qdst).toNat * 2 ^ 16 + qdTag f.qdst * 2 ^ 24
    + qdPri f.qdst * 2 ^ 40 + (qdG f.qdst).toNat * 2 ^ 52
    + (if qdG f.qdst then qdPkg f.qdst * 2 ^ 53 else 0) + 2 ^ 63)

/-- R173, R209: a flit that nobody can take leaves a record with its header and its first words. -/
def State.undeliverable (s : State) (f : Flit) : State :=
  s.postError { code := 0x0A, ctx := some f.ctx, addr := 0
                detail := f.route.toNat + 2 ^ 64 * ((f.words.getD 0 0).toNat
                  + 2 ^ 64 * ((f.words.getD 1 0).toNat + 2 ^ 64 * (f.words.getD 2 0).toNat)) }

/-- R209: send a flit back to its sender, or record it where there is none. -/
def State.bounceFlit (s : State) (f : Flit) : State :=
  if f.bounce then s.undeliverable f
  else match f.src with
    | none => s.undeliverable f
    | some (n, t) =>
      if f.srcPkg ≠ s.pkg then { s with out := s.out ++ [.flit f.srcPkg { f with bounce := true }] }
      else if (s.task? t).isSome then
        { s with flits := s.flits ++ [{ f with bounce := true, via := s.backVia (routerOf (qdCore f.qdst)) n }] }
      else s.undeliverable f

/-- R207, R208: a flit enters the inbox of a task at a core, or its overflow, at the tail. -/
def State.deliverTo (s : State) (core task : Nat) (f : Flit) : State :=
  let s : State := if s.inboxRoom core task then
      match s.recordOf task with
      | some k => s.putRecord { k with image := { k.image with
          inbox := k.image.inbox ++ [{ task := task, flit := f }] } } messageFlds
      | none => s.modCore core fun c => { c with inbox := c.inbox ++ [{ task := task, flit := f }] }
    else
      let u := s.overPut core task f
      match u.recordOf task with
      | some k => u.putOverflow (u.headAt k.ctx k.dom k.num) core task
      | none => u
  match s.waitOf task with
  | .receive => s.wake task
  | _ => s

/-- R241: the route of a flit, back to its sender where it is a bounce. One that another package or a unit
sent, or that comes back from another package, enters from the base die. -/
def State.flitRoute (s : State) (f : Flit) : List Nat :=
  let q := routerOf (qdCore f.qdst)
  let up (r : Nat) : List Nat := baseNode r :: routePath (r % 32) r
  match f.src with
  | none => up q
  | some (n, _) =>
    if f.bounce then (if s.farDest f.qdst then up (routerOf n) else viaRoute q (routerOf n) f.via)
    else if f.srcPkg ≠ s.pkg then up q else routePath (routerOf n) q

/-- The routers of a bounce's second phase (R241). -/
def Flit.second (pkg : Nat) (f : Flit) : List Nat :=
  match f.src with
  | some (n, _) => if f.srcPkg = pkg then ((legs (routerOf (qdCore f.qdst)) (routerOf n) f.via).2).drop 1 else []
  | none => []

/-- The flit in a place of the network, when nothing from the same sender to the same core is older
(R208), no teardown holds it back (R245), and, on MSG, no older flit for its core waits there for room
(R207). -/
def State.arriving (s : State) (k : Nat) : Option Flit :=
  (s.flits[k]?).filter fun f =>
    !((s.flits.take k).any fun g => g.src == f.src && g.bounce == f.bounce
      && qdCore g.qdst == qdCore f.qdst)
    && (f.circuit != 0 || f.bounce
      || !((s.teardowns.any fun t => some t.core == f.src.map (·.1) && t.dst == qdCore f.qdst)
        || (s.flits.take k).any fun g => qdCore g.qdst == qdCore f.qdst && g.circuit == 0 && s.flitBlocked g))

/-- R209: the network takes a flit out. -/
def State.removeFlit (s : State) (k : Nat) : State := { s with flits := s.flits.eraseIdx k }

/-- FLIT_DELIVERY: a K = 0 flit, or a gate result, at its core (R208). -/
def execFlitDelivery (k : Nat) (s : State) : Out :=
  match s.arriving k with
  | none => .next s
  | some f =>
    if f.bounce || (qdK f.qdst && f.gateTo.isNone) then .next s
    else s.onRoute (s.flitRoute f)
     (let n := qdCore f.qdst
      match s.destOf f with
      | none => .next ((s.removeFlit k).bounceFlit f)
      | some t =>
        if s.roomFor n t then
          .next ((s.removeFlit k).deliverTo n t { f with header := f.route })
        else if (s.saving (s.taskCtx t) || s.ctxState (s.taskCtx t) == 3) && (s.recordOf t).isNone then
          -- R301: a flit that finds both full during the drain is bounced
          .next ((s.removeFlit k).bounceFlit f)
        else .next s)

/-- R210: lower the counter again that a join unit of this package raised for a start that is bounced. -/
def State.unraise (s : State) (f : Flit) : State :=
  if f.raised && f.srcPkg == s.pkg then match s.hdr? f.launch (qdTag f.qdst % 256) with
    | some h => s.lower f.launch h.comp
    | none => s
  else s

/-- HANDLER_START: a K = 1 flit at its core (R210). The task belongs to the phase in which its counter was
raised (R168). A flit of another package names its entry in the launch of this package that has its
sender's launch number (log entry 91). -/
def execHandlerStart (k : Nat) (s : State) : Out :=
  match s.arriving k with
  | none => .next s
  | some f =>
    if f.bounce || !qdK f.qdst || f.gateTo.isSome then .next s
    else s.onRoute (s.flitRoute f)
     (let n := qdCore f.qdst
      let l := s.layer (layerOf n)
      match s.hdr? f.launch (qdTag f.qdst % 256) with
      | none => .next ((s.removeFlit k).bounceFlit f)
      | some h =>
        if 256 ≤ qdTag f.qdst then .next (((s.removeFlit k).unraise f).bounceFlit f)
        else if l.state != .awake || l.closed then
          .next (((s.removeFlit k).unraise f).bounceFlit { f with raised := false })
        else if s.dispatcherFull (routerOf n) then .next s
        else
          let u := s.removeFlit k
          let u := if f.raised then u else u.raise f.launch h.comp
          let t : Task := {
            id := u.nextTask, ctx := f.ctx, launch := f.launch
            phase := if f.raised then f.phase else u.phaseOf f.launch
            entry := qdTag f.qdst % 256, hdr := h
            wid := (match f.src with
              | some _ => f.wid
              | none => 0)
            pri := qdPri f.qdst, dom := routerOf n, bound := some n
            handler := some { f with header := f.route } }
          let u := { u with nextTask := u.nextTask + 1 }
          .next (u.enqueue t))

/-- FLIT_BOUNCE_RETURN: at the head of the sending task's inbox; MSGDONE follows (R209). -/
def execFlitBounceReturn (k : Nat) (s : State) : Out :=
  match s.arriving k with
  | none => .next s
  | some f =>
    if !f.bounce then .next s
    else s.onRoute (s.flitRoute f)
     (let u := s.removeFlit k
      match f.src with
      | none => .next (u.undeliverable f)
      | some (n, t) =>
        if (u.task? t).isNone then .next (u.undeliverable f)
        else
          let e : InFlit := { task := t, flit := { f with header := f.bounceRoute } }
          let v : State := match u.recordOf t with
            | some k => u.putRecord { k with image := { k.image with
                inbox := e :: k.image.inbox, bounces := k.image.bounces + 1 } } messageFlds
            | none =>
              let v := u.modCore n fun c => { c with inbox := e :: c.inbox }
              if ((v.getCore n).task.map (·.id)) == some t then
                v.modCore n fun c => { c with bounces := c.bounces + 1 }
              else v
          .next (match v.waitOf t with
            | .receive => v.wake t
            | _ => v))

/-! ### DONE, PHASE, YIELD (R167-R169) -/

/-- R176, R217: the members of the current core's ligature are handed back. -/
def State.handBack (s : State) : State :=
  let ms := s.core.members
  ms.foldl (fun s m => s.modCore m fun c => { c with memberOf := none })
    { s with core := { s.core with members := [] } }

/-- Every response slot of core n is free. -/
def State.slotsFree (s : State) (n : Nat) : Bool := (s.getCore n).slots.toList.all (·.isNone)

/-- Every access of the core has its value or has left its store buffer (R176), and every slot of its
ligature is free (R217). -/
def State.quiet (s : State) : Bool :=
  s.core.sb.isEmpty && s.core.rorder.isEmpty && (s.ligature s.core.num).all s.slotsFree

/-- R298: the partition of a router, and the last DONE on one. -/
def Launch.noteDone (l : Launch) (router tick : Nat) : Launch :=
  match l.parts.findIdx? fun p => bits p router 1 == 1 with
  | some p => { l with phase := { l.phase with lastDone := l.phase.lastDone.set p (some tick) } }
  | none => l

/-- R167 step 5 and the steps after it: streams, pins, circuits and frame go; the counter goes down;
flits still in the inbox go back (R209), and one that is latched and not popped is still there (log entry
90); the core is the dispatcher's. -/
def State.endTask (s : State) : State :=
  match s.core.task with
  | none => s
  | some t =>
    let n := s.core.num
    let left := s.core.latched.toList ++ s.core.mine
      ++ (s.overflow.filter (OverFlit.isOf n t.id)).map s.overFlit
    let s := s.releasePins.dropCircuits n
    let s := s.lower t.launch t.hdr.comp
    let s := s.modLaunch t.launch fun l => l.noteDone (routerOf n) s.tick
    let s := { s with
      core := { s.core.vacate with inbox := s.core.inbox.filter (·.task != t.id) }
      overflow := s.overflow.filter fun o => !(o.isOf n t.id) }
    left.foldl State.bounceFlit s

/-- R167: the DONE at PC is past its step 1, and waits. -/
def State.ending (s : State) : State := { s.stall with core := { s.stall.core with progress := .ending } }

/-- R167. -/
def execDone (st : State) : Out :=
  if st.frameWait then .next st.stall
  else if !st.core.members.isEmpty then
    (if st.quiet then .next st.handBack.ending else .next st.ending)
  else if st.core.locks.toList.any (·.isSome) || !st.core.rorder.isEmpty || !st.settled .system then
    .next st.ending
  else .next st.endTask

/-- R168: a PHASE reaches the word of its own phase, while that phase runs. -/
def State.phase (s : State) (f : Word → Word → Word) (v : Word) : State :=
  match s.core.task with
  | none => s
  | some t => s.modLaunch t.launch fun l =>
      if l.phases = t.phase && l.state = .running then { l with word := f l.word v } else l

def execPhaseOr (s : XSrc) (st : State) : Out :=
  st.guard s.regs s.cells (.next (st.phase (fun w v => w ||| v) (st.src s)).retire)
def execPhaseMax (s : XSrc) (st : State) : Out :=
  st.guard s.regs s.cells
    (.next (st.phase (fun w v => if w.ult v then v else w) (st.src s)).retire)

/-- The instruction at PC has been woken: it is done. -/
def State.wokenUp (s : State) : State := { s with core := { s.core with woken := false } }

/-- R169: YIELD parks for min(X[rs], 2^26) cycles; for 0 the task is ready at once. -/
def execYield (s : XSrc) (st : State) : Out :=
  st.guard s.regs s.cells
    (if st.core.woken then .next st.wokenUp.retire
     else if st.frameWait then .next st.stall
     else
       let n := Nat.min (st.src s).toNat (2 ^ 26)
       let u := st.park (.yield n)
       if n = 0 then .next (u.wake ((u.core.task.map (·.id)).getD 0)) else .next u)

/-! ### SPAWN (R170) -/

/-- 0 in an edge field means 64. -/
def edge (v : Nat) : Nat := if v = 0 then 64 else v

/-- R170. -/
def execSpawn (s t : XSrc) (st : State) : Out :=
  st.guard (s.regs ++ t.regs) (s.cells ++ t.cells)
    (let d := (st.src s).toNat
     let router := if bits d 0 9 = 0x1FF then routerOf st.core.num else bits d 0 9
     let layer := st.layer (layerOfRouter router)
     let launch := (st.core.task.map (·.launch)).getD 0
     if bits d 40 24 ≠ 0 || bits d 27 5 ≠ 0 || bits d 9 3 ≠ 0 || decide (numRouters ≤ router)
         || layer.state != .awake then
       st.trap .addr (st.src s)
     else match st.hdr? launch (bits d 32 8) with
       | none => st.trap .prot (BitVec.ofNat 64 (bits d 32 8))
       | some h =>
         if layer.closed then st.trap .addr (st.src s)
         else if 64 ≤ (st.spawns.filter (·.dom == router)).length then .next st.stall
         else if !st.settled .package then .next st.stall
         else
           let u := st.raise launch h.comp
           let k : Task := {
             id := u.nextTask, ctx := u.core.ctx, launch := launch, phase := u.phaseOf launch
             entry := bits d 32 8, hdr := h, wid := st.src t, pri := bits d 24 3
             erow := edge (bits d 12 6), ecol := edge (bits d 18 6), dom := router }
           let u := { u with nextTask := u.nextTask + 1, spawns := u.spawns ++ [k] }
           .next (u.refill router).retireMark)

/-! ### Barriers (R171, R172, R205) -/

/-- The unit that a barrier or join number names, and its scope. -/
def State.unitOf (s : State) (x : Word) : Nat := if x.getLsbD 6 then 12 else layerOf s.core.num
def unitScope (x : Word) : Scope := if x.getLsbD 6 then .package else .layer

/-- R165: PROT for a number the context does not hold. -/
def State.numbered (s : State) (layerMask packageMask : Grants → Nat) (x : Word) (k : Out) : Out :=
  if bits x.toNat 7 57 ≠ 0
      || !s.holds s.core.ctx (if x.getLsbD 6 then packageMask else layerMask) (bits x.toNat 0 6) then
    s.trap .prot x
  else k

def State.barrier (s : State) (unit ctx num : Nat) : Barrier :=
  (s.barriers.find? fun b => b.unit == unit && b.ctx == ctx && b.num == num).getD
    { unit := unit, ctx := ctx, num := num }
def State.setBarrier (s : State) (b : Barrier) : State :=
  { s with barriers := b :: s.barriers.filter fun c =>
      !(c.unit == b.unit && c.ctx == b.ctx && c.num == b.num) }

/-- The barrier that a number names for the current task. -/
def State.myBarrier (s : State) (x : Word) : Barrier :=
  s.barrier (s.unitOf x) s.core.ctx (bits x.toNat 0 6)

/-- R171: is a task waiting for this barrier's next phase? -/
def Wait.onBarrier (w : Wait) (unit num : Nat) : Bool :=
  match w with
  | .barw u n _ => u == unit && n == num
  | .barSync u n _ => u == unit && n == num
  | _ => false

/-- Every task, wherever its state is. -/
def State.parkedTasks (s : State) : List (Task × Wait) :=
  s.allCores.filterMap (fun c => c.task.map fun t => (t, c.wait))
    ++ s.records.filterMap fun r => r.image.task.map fun t => (t, r.image.wait)

/-- R171: an arrival; the last one changes the phase and wakes every waiter. -/
def State.arrive (s : State) (b : Barrier) : State :=
  if b.a + 1 = b.n then
    let s := s.setBarrier { b with a := 0, p := (b.p + 1) % 65536 }
    (s.parkedTasks.filter fun w => w.1.ctx == b.ctx && w.2.onBarrier b.unit b.num).foldl
      (fun (s : State) (w : Task × Wait) => s.wake w.1.id) s
  else s.setBarrier { b with a := b.a + 1 }

def execBarInit (d : XReg) (s t : XSrc) (st : State) : Out :=
  st.guard (d.val :: (s.regs ++ t.regs)) (s.cells ++ t.cells)
    (let x := st.src s
     let n := (st.src t).toNat
     st.numbered (·.barl) (·.barp) x
       (let b := st.myBarrier x
        st.atUnit (st.unitOf x)
          (if b.a = 0 && 1 ≤ n && n ≤ 65535 then
            .next ((st.setBarrier { b with n := n }).setX d 1).retireMark
          else .next (st.setX d 0).retireMark)))

/-- R172: the arrival releases first. -/
def execBarArr (d : XReg) (s : XSrc) (st : State) : Out :=
  st.guard (d.val :: s.regs) s.cells
    (let x := st.src s
     st.numbered (·.barl) (·.barp) x
       (let b := st.myBarrier x
        if b.n = 0 then st.trap .prot x
        else if !st.settled (unitScope x) then .next st.stall
        else st.atUnit (st.unitOf x) (.next ((st.arrive b).setX d (BitVec.ofNat 64 b.p)).retireMark)))

/-- R171: wait until the phase is no longer `p`, and first for the frame (R61). -/
def State.barWait (st : State) (x : Word) (p : Nat) (w : Wait) (done : State → State) : Out :=
  if st.core.woken then .next (done st.wokenUp)
  else if st.frameWait then .next st.stall
  else if (st.myBarrier x).p ≠ p then .next (done st)
  else .next (st.park w)

def execBarw (s t : XSrc) (st : State) : Out :=
  st.guard (s.regs ++ t.regs) (s.cells ++ t.cells)
    (let x := st.src s
     let p := (st.src t).toNat % 65536
     st.numbered (·.barl) (·.barp) x
       (st.atUnit (st.unitOf x) (st.barWait x p (.barw (st.unitOf x) (bits x.toNat 0 6) p) State.retire)))

/-- R171, R172: the arrival is counted once; issued again, the instruction waits as BARW. -/
def execBarSync (s : XSrc) (st : State) : Out :=
  st.guard s.regs s.cells
    (let x := st.src s
     let wait (st : State) (p : Nat) : Out :=
       st.barWait x p (.barSync (st.unitOf x) (bits x.toNat 0 6) p) State.retireMark
     st.numbered (·.barl) (·.barp) x
       (match st.core.progress with
        | .arrived w => wait st (w % 2 ^ 16)
        | _ =>
          let b := st.myBarrier x
          if b.n = 0 then st.trap .prot x
          else if st.frameWait || !st.settled (unitScope x) then .next st.stall
          else
            let u := st.arrive b
            st.atUnit (st.unitOf x)
              (wait { u with core := { u.core with progress := .arrived (b.p + x.toNat % 128 * 2 ^ 16) } } b.p)))

def execBarRead (d : XReg) (s : XSrc) (st : State) : Out :=
  st.guard (d.val :: s.regs) s.cells
    (let x := st.src s
     st.numbered (·.barl) (·.barp) x
       (let b := st.myBarrier x
        st.atUnit (st.unitOf x) (.next (st.setX d (BitVec.ofNat 64 (b.p + b.a * 2 ^ 16 + b.n * 2 ^ 32))).retire)))

/-! ### Joins (R173, R206) -/

def State.join (s : State) (unit ctx num : Nat) : Join :=
  (s.joins.find? fun b => b.unit == unit && b.ctx == ctx && b.num == num).getD
    { unit := unit, ctx := ctx, num := num }
def State.setJoin (s : State) (b : Join) : State :=
  { s with joins := b :: s.joins.filter fun c =>
      !(c.unit == b.unit && c.ctx == b.ctx && c.num == b.num) }
def State.myJoin (s : State) (x : Word) : Join := s.join (s.unitOf x) s.core.ctx (bits x.toNat 0 6)

/-- The continuation as it stands: a unit's flit, with the launch whose table names its handler. -/
def State.continuation (s : State) : Flit := { s.ownFlit with src := none, wid := 0 }

def execJoinArm (d : XReg) (s t : XSrc) (st : State) : Out :=
  st.guard (d.val :: (s.regs ++ t.regs)) (s.cells ++ t.cells ++ (List.range 8).map cellQs)
    (let x := st.src s
     let n := (st.src t).toNat
     st.numbered (·.jnl) (·.jnp) x
       (let j := st.myJoin x
        st.atUnit (st.unitOf x)
          (if j.c = 0 && 1 ≤ n && n < 2 ^ 32 then
            .next ((st.setJoin { j with c := n, flit := st.continuation }).setX d 1).retireMark
          else .next (st.setX d 0).retireMark)))

/-- R173: the last arrival raises the handler's counter before it sends the flit, and the handler belongs
to the phase that runs then (R168). The counter of a handler of another package is there, and is raised
there (log entry 91). A destination core that does not exist can take nothing, and the flit leaves a
record. -/
def State.fireJoin (s : State) (f : Flit) : State :=
  let r := if qdK f.qdst && !s.farDest f.qdst then s.hdr? f.launch (qdTag f.qdst % 256) else none
  let s := match r with
    | some h => s.raise f.launch h.comp
    | none => s
  let f := { f with raised := r.isSome, phase := s.phaseOf f.launch }
  if numCores ≤ qdCore f.qdst then (s.unraise f).undeliverable f else s.sendFlit f

def execJoinArr (d : XReg) (s : XSrc) (st : State) : Out :=
  st.guard (d.val :: s.regs) s.cells
    (let x := st.src s
     st.numbered (·.jnl) (·.jnp) x
       (if !st.settled (unitScope x) then .next st.stall
        else
          let j := st.myJoin x
          st.atUnit (st.unitOf x)
            (if j.c = 0 then .next (st.setX d (BitVec.allOnes 64)).retireMark
            else
              let u := (st.setJoin { j with c := j.c - 1 }).setX d (BitVec.ofNat 64 (j.c - 1))
              .next (if j.c = 1 then u.fireJoin j.flit else u).retireMark)))

def execJoinRead (d : XReg) (s : XSrc) (st : State) : Out :=
  st.guard (d.val :: s.regs) s.cells
    (let x := st.src s
     st.numbered (·.jnl) (·.jnp) x
       (st.atUnit (st.unitOf x) (.next (st.setX d (BitVec.ofNat 64 (st.myJoin x).c)).retire)))

/-! ### Message control (R174) -/

/-- The flits that wait for the running task, the latched one not counted. -/
def State.waitingFlits (s : State) : Nat :=
  s.core.mine.length + (s.overflow.filter (OverFlit.isOf s.core.num ((s.core.task.map (·.id)).getD 0))).length

def execMsgPoll (d : XReg) (st : State) : Out :=
  st.guard [d.val] [] (.next (st.setX d (BitVec.ofNat 64 (Nat.min 65535 st.waitingFlits))).retire)
def execMsgHdr (d : XReg) (st : State) : Out :=
  st.guard [d.val] []
    (if st.badFlit then st.trap .poison (cellAddr st.core.num 0x1118)
     else .next (st.setX d ((st.core.latched.map (·.header)).getD 0)).retire)
def execMsgDrop (st : State) : Out :=
  .next (if st.core.latched.isSome then st.popFlit else st).retire

/-! ### Ligatures (R175, R176, R211-R217) -/

/-- A saved task whose resume has been commanded is queued for its home core (R280). -/
def State.recordFor (s : State) (n : Nat) : Bool :=
  s.records.any fun r => r.stop && r.go && r.image.num == n

/-- R175: is core n idle for COMPOSE? -/
def State.idleCore (s : State) (n : Nat) : Bool :=
  let c := s.getCore n
  c.task.isNone && !c.frozen && c.memberOf.isNone && c.members.isEmpty
    && !(s.queue.any fun q => q.bound == some n) && !s.recordFor n

/-- R175: the idle cores of a router domain other than `n`, in rising order. -/
def State.idleCores (s : State) (n : Nat) : List Nat :=
  ((List.range 16).map (16 * routerOf n + ·)).filter fun k => k != n && s.idleCore k

/-- The largest of 16, 8, 4 and 2 that is not above a number; 1 if none. -/
def largestSize (k : Nat) : Nat := if 16 ≤ k then 16 else if 8 ≤ k then 8 else if 4 ≤ k then 4
  else if 2 ≤ k then 2 else 1

/-- R175: the current core takes the idle cores with the lowest numbers. -/
def State.compose (s : State) (g : Nat) : State :=
  let ms := (s.idleCores s.core.num).take (g - 1)
  ms.foldl (fun s m => s.modCore m fun c => { c with memberOf := some s.core.num })
    { s with core := { s.core with members := ms } }

def execCompose (d : XReg) (s : XSrc) (st : State) : Out :=
  st.guard (d.val :: s.regs) s.cells
    (let req := (st.src s).toNat
     if req ≠ 2 && req ≠ 4 && req ≠ 8 && req ≠ 16 then st.trap .compose (st.src s)
     else if !st.core.members.isEmpty then st.trap .compose (st.src s)
     else if st.core.p then .next (st.setX d 1).retireMark
     else if st.frameWait then .next st.stall
     else
       let g := largestSize (Nat.min req ((st.idleCores st.core.num).length + 1))
       if g = 1 then .next (st.setX d 1).retireMark
       else .next ((st.compose g).setX d (BitVec.ofNat 64 g)).retireMark)

def execDecompose (st : State) : Out :=
  if st.frameWait then .next st.stall
  else if st.core.members.isEmpty then .next st.retireMark
  else if st.quiet then .next st.handBack.retireMark
  else .next st.stall

end Sys2Proof.Machine
end

