-- ==== Sys2Proof/Machine/Translate.lean ====
section
/-! DEFINITION. Translation at the walkers, fault records, shootdown and migration (R306-R323). -/

namespace Sys2Proof.Machine

/-! ### Fault records (R317, R318) -/

/-- R317: the bit of a kind in a fault record; 4 is an engine. -/
def Kind.bit : Kind → Nat
  | .load => 0 | .store => 1 | .atomic => 2 | .fetch => 3

/-- Where fault record `i` lies. -/
def State.faultAt (s : State) (i : Nat) : Nat := s.reg 0x0008_0048 8 + 32 * i
def State.fqt (s : State) : Nat := s.reg 0x0008_0050 8 % 2048

/-- R317: a fault joins the unresolved record of its page. -/
def State.joinFault (s : State) (i kind : Nat) : State :=
  let a := s.faultAt i
  let kinds := Nat.lor (s.hbm.readN (a + 11) 1) (2 ^ kind)
  let n := Nat.min (2 ^ 32 - 1) (s.hbm.readN (a + 12) 4 + 1)
  s.storeHome (.hbm (a + 11)) (bytesOf 1 kinds ++ bytesOf 4 n)

/-- R317, R318: the record of a fault; `from` is the issuing package and context of a remote access. A
full ring takes none. -/
def State.fault (s : State) (asid vpn ctx kind : Nat) (source : Option (Nat × Nat)) : State :=
  match s.faults.find? fun f => f.2.1 == asid && f.2.2 == vpn with
  | some f => s.joinFault f.1 kind
  | none =>
    let i := s.fqt
    if 2048 ≤ s.faults.length || s.faults.any (·.1 == i) then s
    else
      let src : List Byte := match source with
        | some (p, c) => bytesOf 2 p ++ bytesOf 1 c ++ bytesOf 5 0
        | none => bytesOf 8 0
      let bytes := bytesOf 8 (vpn * 2 ^ 21) ++ bytesOf 2 asid ++ bytesOf 1 ctx ++ bytesOf 1 (2 ^ kind)
        ++ bytesOf 4 1 ++ bytesOf 8 (Config.cycle s.tick).toNat ++ src
      let u := s.storeHome (.hbm (s.faultAt i)) bytes
      { u with mmio := s.mmio.writeN 0x0008_0050 8 ((i + 1) % 2048)
               faults := s.faults ++ [(i, asid, vpn)] }

/-! ### Walks (R310, R314, R315) -/

/-- R310: a malformed walk posts a record with code 0x08. -/
def State.malformed (s : State) (asid vpn : Nat) : State :=
  s.postError { code := 0x08, addr := vpn * 2 ^ 21, detail := asid + 2 ^ 32 * vpn }

/-- R362, R363: a master other than a core is frozen by violation `v`. -/
def State.stopUnit (s : State) (m : Nat × Nat) (ctx : Option Nat) (v : Nat) : State :=
  if s.frozen.contains m then s
  else ({ s with frozen := s.frozen ++ [m] }).postError
    { code := 0x10, frozen := true, ctx := ctx, layer := if m.1 = 1 then layerOfRouter m.2 else 12
      master := m.1 * 2 ^ 16 + m.2, cause := 19, detail := v }

/-- R310, R375: a malformed walk of a unit's access; one that reached a frame of an enclave which the
unit is not admitted to freezes it (violation 5). -/
def State.malformedBy (s : State) (m : Nat × Nat) (ctx : Option Nat) (asid vpn : Nat) : State :=
  let u := s.malformed asid vpn
  match u.walkTables asid vpn with
  | .hit _ _ => u.stopUnit m ctx 5
  | _ => u

/-- R322: the page's migration is draining or copying. -/
def State.migHolds (s : State) (asid vpn : Nat) : Bool :=
  (s.mig.map fun m => m.asid == asid && m.vpn == vpn && decide (2 ≤ m.st)).getD false

/-- R309: A and D are set. -/
def setBits (e : Nat) (d : Bool) : Nat := Nat.lor e (2 ^ 120 + (if d then 2 ^ 119 else 0))

/-- R314: a router's cache holds 128 entries, a port's 256. -/
def tlbSize (unit : Nat) : Nat := if unit < numRouters then 128 else 256

/-- The first `n` entries of a unit, and the entries of every other one: the entry filled first goes, a
choice that affects timing only (R314). -/
def keepNewest (unit : Nat) : Nat → List Tlb → List Tlb
  | _, [] => []
  | n, e :: t =>
    if e.unit = unit then match n with
      | 0 => keepNewest unit 0 t
      | m + 1 => e :: keepNewest unit m t
    else e :: keepNewest unit n t

/-- R314: the walker fills a unit's cache; a store or atomic sets D. -/
def State.fill (s : State) (unit asid vpn t f : Nat) (d : Bool) : State :=
  let e := setBits (s.pte t f) d
  let s := s.setPte t f e
  let c : Tlb := { unit := unit, asid := asid, vpn := vpn, pa := frameBase t f, perms := ptePerms e
                   dirty := pteD e, mig := s.migHolds asid vpn }
  let rest := s.tlb.filter fun k => !(k.unit == unit && k.asid == asid && k.vpn == vpn)
  { s with tlb := keepNewest unit (tlbSize unit) (c :: rest) }

/-- Does a kind of access write? -/
def Kind.writes : Kind → Bool
  | .store => true
  | .atomic => true
  | _ => false

/-- R310: a malformed walk of core n's access raises PROT; a frame of an enclave freezes the core
(R375). -/
def State.walkFails (s : State) (w : Walk) : State :=
  let s := s.malformed w.asid w.vpn
  s.onCore w.core fun s =>
    match s.walkTables w.asid w.vpn with
    | .hit _ _ => s.violate 5 19 (BitVec.ofNat 64 w.va)
    | _ => if s.core.frame.cap then s.dropFrame .prot (BitVec.ofNat 64 w.va)
           else s.takeTrap .prot (BitVec.ofNat 64 w.va)

/-- A page that is not resident: the fault is recorded and the region restarts (R110, R317). -/
def State.walkMisses (s : State) (w : Walk) : State :=
  let c := s.getCore w.core
  (s.fault w.asid w.vpn c.ctx w.kind.bit none).onCore w.core fun s => s.restart w.va w.kind.bit

/-- The answer to one requester of a walk. A write to a page that migrates waits at the walker. -/
def State.answer (s : State) (w : Walk) : State :=
  match s.walk w.asid w.vpn with
  | .hit t f =>
    if w.kind.writes && s.migHolds w.asid w.vpn then { s with walks := s.walks ++ [{ w with old := false }] }
    else s.fill (routerOf w.core) w.asid w.vpn t f (w.kind.writes && permsGrant (ptePerms (s.pte t f)) w.kind)
  | .notResident => s.walkMisses w
  | .malformed => s.walkFails w

/-- TRANSLATION_WALK: one walk answers every requester of its page (R315). -/
def execTranslationWalk (k : Nat) (s : State) : Out :=
  match s.walks[k]? with
  | none => .next s
  | some w =>
    let mine (x : Walk) : Bool := x.asid == w.asid && x.vpn == w.vpn && !x.lost
    if w.lost then .next s
    else s.onRoute (downRoute w.core) (.next ((s.walks.filter mine).foldl State.answer
      { s with walks := s.walks.filter fun x => !mine x }))

/-! ### Translation away from a core's own accesses (R314, R319) -/

/-- What a translation gives: the page's frame and its permissions. -/
inductive Lookup where
  | found (pa : Nat) (perms : BitVec 5)
  | absent
  | malformed
  deriving DecidableEq, Repr

/-- Does the cache of a unit answer, and need no walk (R314, R322)? -/
def State.cached (s : State) (unit : Option Nat) (asid vpn : Nat) (writes : Bool) : Option Tlb :=
  (unit.bind fun u => s.tlbFind u asid vpn).filter fun e => !(writes && (!e.dirty || e.mig))

/-- R314: the translation of a page: from the unit's cache, or by a walk; the base die's own agents have
no cache. -/
def State.lookup (s : State) (unit : Option Nat) (asid vpn : Nat) (writes : Bool) : Lookup :=
  match s.cached unit asid vpn writes with
  | some e => .found e.pa e.perms
  | none => match s.walk asid vpn with
    | .hit t f => .found (frameBase t f) (ptePerms (s.pte t f))
    | .notResident => .absent
    | .malformed => .malformed

/-- R309, R314: the access goes through: a walk that it took fills the unit's cache and sets A, and D for a
write. An agent without a cache sets D alone. -/
def State.passed (s : State) (unit : Option Nat) (writes : Bool) (asid vpn : Nat) : State :=
  match s.cached unit asid vpn writes with
  | some _ => s
  | none => match s.walk asid vpn with
    | .hit t f => match unit with
      | some u => s.fill u asid vpn t f writes
      | none => if writes then s.setPte t f (Nat.lor (s.pte t f) (2 ^ 119)) else s
    | _ => s

/-- The page numbers of a range. -/
def pageNums (va n : Nat) : List Nat := (pagesOf (n / 2 ^ 21 + 2) va n).map (·.1)

/-! ### Resolving (R317, R318) -/

/-- The tasks that wait for a page. -/
def State.waitersOf (s : State) (asid vpn : Nat) : List Nat :=
  s.parkedTasks.filterMap fun w => match w.2 with
    | .translation va _ =>
      if s.ctxAsid w.1.ctx = asid && va / 2 ^ 21 = vpn then some w.1.id else none
    | _ => none

/-- RESOLVE: walk again and wake the record's waiters. -/
def execResolveWrite (idx : Nat) (s : State) : Out :=
  match s.faults.find? (·.1 == idx % 2048) with
  | none => .next s
  | some f =>
    match s.walk f.2.1 f.2.2 with
    | .hit _ _ =>
      .next ((s.waitersOf f.2.1 f.2.2).foldl State.wake
        { s with faults := s.faults.filter (·.1 != f.1) })
    | _ => .next s

/-- A fault without a record: the address space and the page, and the context and the kind of the access
that met it. -/
structure Unrecorded where
  asid : Nat
  vpn : Nat
  ctx : Nat
  kind : Nat
  deriving DecidableEq, Repr

/-- The faults that wait without a record, one for each task that waits. -/
def State.unrecorded (s : State) : List Unrecorded :=
  s.parkedTasks.filterMap fun w => match w.2 with
    | .translation va kind =>
      let asid := s.ctxAsid w.1.ctx
      if s.faults.any fun f => f.2.1 == asid && f.2.2 == va / 2 ^ 21 then none
      else some { asid := asid, vpn := va / 2 ^ 21, ctx := w.1.ctx, kind := kind }
    | _ => none

/-- R317: the walk of a fault that waits without a record is made again; it gets a record, or joins the
one that another of its page has got. -/
def State.retryFault (s : State) (p : Unrecorded) : State :=
  match s.walk p.asid p.vpn with
  | .hit _ _ => (s.waitersOf p.asid p.vpn).foldl State.wake s
  | _ => s.fault p.asid p.vpn p.ctx p.kind none

/-- FQH: faults without a record are retried when the manager advances it. -/
def execFqhWrite (v : Nat) (s : State) : Out :=
  let s := { s with mmio := s.mmio.writeN 0x0008_0058 8 (v % 2048) }
  .next (s.unrecorded.foldl State.retryFault s)

/-- The core that holds a task, resident or in its record. -/
def State.holderOf (s : State) (t : Nat) : Option Core :=
  match s.allCores.find? fun c => (c.task.map (·.id)) == some t with
  | some c => some c
  | none => (s.recordOf t).map (·.image)

/-- What is on its way again for a request: a store's package, address and length. -/
def Request.line (q : Request) : Nat × Nat × Nat :=
  (q.pkg, q.va, match q.op with
    | .write bs => bs.length
    | _ => 0)

/-- The stores of a task that met no page are sent again, from its core (R318). -/
def State.resend (s : State) (t : Nat) : State :=
  match s.holderOf t with
  | none => s
  | some k =>
    if k.unsent.isEmpty then s
    else
      let mine (c : Core) : Bool := (c.task.map (·.id)) == some t
      let clear (c : Core) : Core := if mine c then { c with unsent := [] } else c
      let u : State := { s with
        core := clear s.core, others := s.others.map clear
        records := s.records.map fun r => { r with image := clear r.image } }
      k.unsent.foldl State.sendRequest
        (u.modCore k.num fun c => { c with remoteStores := c.remoteStores ++ k.unsent.map Request.line })

/-- R318: the task runs its region again. -/
def execRemoteXlatRetry (t : Nat) (s : State) : Out :=
  match s.waitOf t with
  | .remotePage _ => .next ((s.resend t).wake t)
  | _ => .next s

/-! ### Shootdown (R190, R319) -/

/-- Was a buffered store translated by a translation that an XINV removes? -/
def SbEntry.hitBy (e : SbEntry) (f : Nat → Nat → Bool) : Bool :=
  match e.home with
  | .hbm _ => f e.asid (bits e.addr.toNat 21 32)
  | _ => false

def SbEntry.mark (f : Nat → Nat → Bool) (e : SbEntry) : SbEntry :=
  if e.hitBy f then { e with stale := true } else e

/-- Remove the translations of the pages that `f` names, and mark the stores made through them. -/
def State.xinv (s : State) (f : Nat → Nat → Bool) : State :=
  let core (c : Core) : Core := { c with sb := c.sb.map (SbEntry.mark f) }
  { s with tlb := s.tlb.filter fun t => !f t.asid t.vpn
           walks := s.walks.map fun w => { w with old := true }
           core := core s.core, others := s.others.map core
           flying := s.flying.map fun x => { x with entry := x.entry.mark f } }

/-- R319: no store through a removed translation is still on its way. -/
def State.drained (s : State) (f : Nat → Nat → Bool) : Bool :=
  let old (e : SbEntry) : Bool := e.stale && e.hitBy f
  !(s.allCores.any fun c => c.sb.any old) && !(s.flying.any fun x => old x.entry)

def onePage (asid vpn : Nat) : Nat → Nat → Bool := fun a v => a == asid && v == vpn

def execXinvPage (s t : XSrc) (st : State) : Out :=
  st.privileged (st.guard (s.regs ++ t.regs) (s.cells ++ t.cells)
    (.next (st.xinv (onePage (bits (st.src t).toNat 0 16) (bits (st.src s).toNat 21 32))).retireMark))
def execXinvAsid (t : XSrc) (st : State) : Out :=
  st.privileged (st.guard t.regs t.cells
    (.next (st.xinv fun a _ => a == bits (st.src t).toNat 0 16).retireMark))
def execXinvAll (st : State) : Out := st.privileged (.next (st.xinv fun _ _ => true).retireMark)
/-- R190, R319: every access through a removed translation has been performed, and every walk begun
before an XINV has ended. -/
def execXinvSync (st : State) : Out :=
  st.privileged (if (st.drained fun _ _ => true) && !st.walks.any (·.old) then .next st.retireMark
    else .next st.stall)

/-! ### Migration (R321-R323) -/

/-- Anchors of a table that hold anything: their indices. -/
def State.anchorsOf (s : State) (t : Nat) : List Nat :=
  let base := if t < 8 then 0x0140_0000 + 0x4_0000 * t else s.reg (0x0008_0020 + 8 * (t - 8)) 8
  let m := if t < 8 then s.mmio else s.hbm
  ((m.filter fun c => decide (base ≤ c.1) && decide (c.1 < base + 8 * framesOf t)).map fun c =>
    (c.1 - base) / 4).eraseDups

/-- The frames of a chain, at most 64. -/
def State.chainFrames (s : State) (t : Nat) : Nat → Nat → List Nat
  | 0, _ => []
  | fuel + 1, f => f :: (if pteNext (s.pte t f) = 0xFFFFF then []
      else s.chainFrames t fuel (pteNext (s.pte t f)))

/-- Is a frame linked in some chain of its table? -/
def State.linked (s : State) (t f : Nat) : Bool :=
  (s.anchorsOf t).any fun i =>
    bits (s.anchor t i) 31 1 == 1 && (s.chainFrames t 64 (bits (s.anchor t i) 0 20)).contains f

/-- A frame that exists, in a table that is present. -/
def State.frameOk (s : State) (t f : Nat) : Bool := s.tablePresent t && decide (f < framesOf t)

def State.setMigst (s : State) (n : Nat) : State := { s with migst := n }

/-- MIG of an entry. -/
def State.markMig (s : State) (t f : Nat) (on : Bool) : State :=
  let e := s.pte t f
  s.setPte t f (e - bits e 121 1 * 2 ^ 121 + (if on then 2 ^ 121 else 0))

/-- MIGCMD start. -/
def execMigrationStart (dst src : Nat) (s : State) : Out :=
  let st := bits src 20 4
  let sf := bits src 0 20
  let dt := bits dst 20 4
  let df := bits dst 0 20
  if s.mig.isSome || !s.frameOk st sf || !s.frameOk dt df || !pteV (s.pte st sf) || pteV (s.pte dt df)
      || s.linked dt df then .next (s.setMigst 6)
  else
    let e := s.pte st sf
    .next { (s.markMig st sf true).setMigst 1 with
      mig := some { srcT := st, srcF := sf, dstT := dt, dstF := df, asid := pteAsid e, vpn := pteVpn e
                    st := 1 } }

/-- MIGCMD abort, which acts in state 1 only. -/
def execMigrationAbort (s : State) : Out :=
  match s.mig with
  | some m => if m.st = 1 then .next { (s.markMig m.srcT m.srcF false).setMigst 5 with mig := none }
      else .next s
  | none => .next s

/-- The pins are gone: the shootdown of the page begins. -/
def execMigrationPinsClear (s : State) : Out :=
  match s.mig with
  | some m =>
    if m.st = 1 && ptePins (s.pte m.srcT m.srcF) = 0 then
      .next { (s.xinv (onePage m.asid m.vpn)).setMigst 2 with mig := some { m with st := 2 } }
    else .next s
  | none => .next s

def execMigrationDrainDone (s : State) : Out :=
  match s.mig with
  | some m =>
    if m.st = 2 && s.drained (onePage m.asid m.vpn) then
      .next { s.setMigst 3 with mig := some { m with st := 3 } }
    else .next s
  | none => .next s

/-- R322, R323: the frame's bytes with their poison. -/
def State.copyFrame (s : State) (src dst : Nat) : State :=
  let inside (a : Nat) : Bool := decide (dst ≤ a) && decide (a < dst + 2 ^ 21)
  let kept := s.poison.filter fun p => match p with
    | .hbm a => !inside a
    | _ => true
  let moved := s.poison.filterMap fun p => match p with
    | .hbm a => if src ≤ a && a < src + 2 ^ 21 then some (.hbm (a - src + dst)) else none
    | _ => none
  { s with hbm := ((s.hbm.slice src (2 ^ 21)).foldl (fun m c => m.write (dst + c.1) c.2)
             (s.hbm.clear dst (2 ^ 21)))
           poison := kept ++ moved }

/-- R322: the commit, in one step: DST's entry is SRC's, linked at the head of its chain; SRC is no
longer valid. -/
def State.commitMig (s : State) (m : Migration) : State :=
  let e := s.pte m.srcT m.srcF
  let i := walkHash m.asid m.vpn % (2 * framesOf m.dstT)
  let a := s.anchor m.dstT i
  let next := if bits a 31 1 = 1 then bits a 0 20 else 0xFFFFF
  -- V, RD to D, SWZ, ASID and VPN are SRC's; MIG and PINS are clear
  let d := bits e 64 64 * 2 ^ 64 - bits e 121 1 * 2 ^ 121 + next * 2 ^ 44
  let s := (s.setPte m.dstT m.dstF d).setAnchor m.dstT i (2 ^ 31 + m.dstF)
  let o := s.pte m.srcT m.srcF
  s.setPte m.srcT m.srcF (o - bits o 127 1 * 2 ^ 127 - bits o 121 1 * 2 ^ 121)

def execMigrationCommit (s : State) : Out :=
  match s.mig with
  | some m =>
    let held := s.portFrozen (frameBase m.srcT m.srcF) || s.portFrozen (frameBase m.dstT m.dstF)
    if m.st = 3 && !held then
      let s := (s.copyFrame (frameBase m.srcT m.srcF) (frameBase m.dstT m.dstF)).commitMig m
      .next { (s.xinv (onePage m.asid m.vpn)).setMigst 4 with mig := none }
    else .next s
  | none => .next s

/-- R323: the copy fails: SRC stays, and DST's contents are undefined. -/
def State.failMig (s : State) (m : Migration) : State :=
  let dst := frameBase m.dstT m.dstF
  let s := (s.markMig m.srcT m.srcF false).xinv (onePage m.asid m.vpn)
  { s with mig := none, migst := 7, free := s.free + 2 ^ 21
           hbm := (List.range (2 ^ 21)).foldl
             (fun h i => h.write (dst + i) (Config.freeByte (s.free + i))) s.hbm }

/-! ### The accesses of engines and devices -/

/-- What an engine finds for a part of a range: its homes, or what stands in its way. An engine
translates each page as it reaches it (R319). -/
inductive Reach where
  | ok (segs : List (Home × Nat))
  | global (pkg va : Nat)
  | absent (vpn : Nat)
  /-- the page is being moved (R322), or lies behind a CXL port that is frozen (R328) -/
  | moving
  | denied (off : Nat)
  | malformed (off vpn : Nat)
  deriving DecidableEq, Repr

/-- The pages of a range of space 0, translated through the cache of a unit where there is one (R314). -/
def State.reachPages (s : State) (unit : Option Nat) (asid : Nat) (k : Kind) (va n : Nat) : Reach :=
  (pagesOf (n / 2 ^ 21 + 2) va n).foldl (fun r p => match r with
    | .ok segs =>
      let off := p.1 * 2 ^ 21 + p.2.1 - va
      match s.lookup unit asid p.1 k.writes with
      | .found pa perms =>
        if !permsGrant perms k then .denied off
        else if (k.writes && s.migHolds asid p.1) || s.portFrozen (pa + p.2.1) then .moving
        else .ok (segs ++ [(.hbm (pa + p.2.1), p.2.2)])
      | .absent => .absent p.1
      | .malformed => .malformed off p.1
    | x => x) (.ok [])

/-- Bytes stored at homes that an access found, in order. -/
def State.storeSegs (s : State) : List (Home × Nat) → List Byte → State
  | [], _ => s
  | (h, n) :: t, bs => (s.storeHome h (bs.take n)).storeSegs t (bs.drop n)

/-- A range of space 0 as the device itself finds it, under a context's address space; no cache is its own. -/
def State.devReach (s : State) (ctx : Nat) (k : Kind) (va n : Nat) : Reach :=
  if 2 ^ 53 < va + n then .denied 0 else s.reachPages none (s.ctxAsid ctx) k va n

/-- R309: the device's walks of a range have set A, and D where it writes. -/
def State.devMark (s : State) (ctx va n : Nat) (d : Bool) : State :=
  (pageNums va n).foldl (fun s p => s.passed none d (s.ctxAsid ctx) p) s

/-- Read bytes of a context's space 0, or what stands in the way. -/
def State.devRead (s : State) (ctx va n : Nat) : Except Reach (List Byte) :=
  match s.devReach ctx .load va n with
  | .ok segs => .ok (s.loadSegs segs)
  | r => .error r

/-- Write bytes of a context's space 0, or what stands in the way. -/
def State.devWrite (s : State) (ctx va : Nat) (bs : List Byte) : Except Reach State :=
  match s.devReach ctx .store va bs.length with
  | .ok segs => .ok ((s.devMark ctx va bs.length true).storeSegs segs bs)
  | r => .error r

end Sys2Proof.Machine
end

