-- ==== Sys2Proof/Machine/Network.lean ====
section
/-! DEFINITION. The layer network: stores on their way and their acknowledgements, circuits, and link errors
(R177, R225, R238-R245, R248, R359). -/

namespace Sys2Proof.Machine

/-! ### Stores leave their buffers (R107, R225, R251) -/

/-- R251: the pieces of a store within chunks of 16 bytes. -/
def chunkPieces (core : Nat) : Nat → Nat → List Byte → List MirrorStore
  | 0, _, _ => []
  | fuel + 1, off, bs =>
    if bs.isEmpty then []
    else
      let n := 16 - off % 16
      { core := core, off := off, bytes := bs.take n } :: chunkPieces core fuel (off + n) (bs.drop n)

/-- R251: the pieces of one store whose entries these are; a piece in the chunk of the one before it takes
no place of its own. -/
def shareChunks : List MirrorStore → List MirrorStore
  | [] => []
  | [m] => [m]
  | m :: n :: t => m :: shareFrom (m.off / 16) (n :: t)
where shareFrom (c : Nat) : List MirrorStore → List MirrorStore
  | [] => []
  | m :: t => { m with cont := m.off / 16 == c } :: shareFrom (m.off / 16) t

def storePieces (core : Nat) (es : List SbEntry) : List MirrorStore :=
  shareChunks ((es.map fun e => match e.home with
    | .mirror off => chunkPieces core (e.bytes.length + 1) off e.bytes
    | _ => []).flatten)

/-- The places of a mirror queue that are taken (R251). -/
def placesOf (q : List MirrorStore) : Nat := (q.filter fun m => !m.cont).length

/-- The entries of the oldest store of a buffer. -/
def oldestStore : List SbEntry → List SbEntry
  | [] => []
  | e :: t => if e.more then e :: oldestStore t else [e]

/-- R241, R242: the intermediate router of a store that core n injects into its layer, when the layer
routes in two phases. -/
def State.intermediate (s : State) (n dst : Nat) : Option Nat :=
  s.detour n (s.getCore n).draws (routerOf n) dst

/-- The router that core n's packet to a home goes to. -/
def Home.dest (n : Nat) (h : Home) : Nat := (h.router n).getD (routerOf n)

/-- R241: the two parts of a store's route. -/
def Flying.parts (f : Flying) : List Nat × List Nat :=
  if f.entry.home.baseDie then (downRoute f.core, []) else legs (routerOf f.core) (f.entry.home.dest f.core) f.via
def Flying.route (f : Flying) : List Nat := f.parts.1 ++ f.parts.2.drop 1

/-- R279: the two parts of the route of an acknowledgement back to its core. -/
def Ack.parts (a : Ack) : List Nat × List Nat :=
  if a.home < numRouters then legs a.home (routerOf a.core) a.via else (upRoute a.core, [])
def Ack.route (a : Ack) : List Nat := a.parts.1 ++ a.parts.2.drop 1

/-- The first `k` entries leave core n's buffer. -/
def State.dropStores (s : State) (n k : Nat) : State :=
  s.modCore n fun c => { c with sb := c.sb.drop k, sbOld := c.sbOld - k }
/-- The oldest store leaves core n's buffer. -/
def State.dropOldest (s : State) (n : Nat) : State := s.dropStores n 1

/-- STORE_BUFFER_DRAIN: the oldest store of core n leaves. A space-3 store enters the layer's mirror
queue whole, or stays while too few of its 128 places are free; a store to another package stays while an
earlier one to its line is not acknowledged (R332). Stores to this package's memory by its own global name
and those by space 0 do not pass each other (R226). -/
def execStoreBufferDrain (n : Nat) (s : State) : Out :=
  let c := s.getCore n
  match c.sb.head? with
  | none => .next s
  | some e =>
    match e.home with
    | .loc _ _ => .next ((s.dropOldest n).storeHome e.home e.bytes)
    | .mirror _ =>
      let es := oldestStore c.sb
      let ps := storePieces n es
      if 128 < placesOf ((s.layer (layerOf n)).mq ++ ps) then .next s
      else .next ((s.dropStores n es.length).modLayer (layerOf n) fun l => { l with mq := l.mq ++ ps })
    | .global pkg va =>
      if c.lineOut pkg va e.bytes.length
          || (pkg == s.pkg && s.flying.any fun f => f.core == n && f.entry.home.paged) then .next s
      else
        let u := (s.dropOldest n).modCore n fun c => { c with
          remoteStores := c.remoteStores ++ [(pkg, va, e.bytes.length)] }
        .next (u.sendRequest { pkg := pkg, srcPkg := s.pkg, ctx := c.ctx, core := n, va := va
                               op := .write e.bytes })
    | h =>
      if h.paged && c.remoteStores.any (·.1 == s.pkg) then .next s
      else
      let two := (s.layer (layerOf n)).twoPhase && !h.baseDie
      let via := if two then s.intermediate n (h.dest n) else none
      let u : State := if two then
          (s.dropOldest n).modCore n fun c => { c with draws := c.draws + 1 }
        else s.dropOldest n
      let f : Flying := { core := n, entry := e, via := via }
      .next { u with flying := u.flying ++ [f] }

/-- R226: the stores of one core are performed in program order. -/
def State.oldestFlying (s : State) (k : Nat) : Option Flying :=
  (s.flying[k]?).filter fun f => !((s.flying.take k).any (·.core == f.core))

/-- An acknowledgement to core n from a router, or from the base die: 384 (R241, R279). -/
def State.ackFrom (s : State) (n : Nat) (cls : AckClass) (home : Nat) : Ack :=
  { core := n, cls := cls, home := home, via := if home < numRouters then s.backVia home n else none }

/-- A store to memory is performed and acknowledged (R225). -/
def State.performStore (s : State) (k : Nat) (f : Flying) : State :=
  let a : Ack := s.ackFrom f.core .home (if f.entry.home.baseDie then 384 else f.entry.home.dest f.core)
  let u := { s with flying := s.flying.eraseIdx k, acks := s.acks ++ [a] }
  u.storeHome f.entry.home f.entry.bytes

/-- ACKNOWLEDGEMENT_RECEIVE: counted at the issuing core. -/
def execAcknowledgementReceive (k : Nat) (s : State) : Out :=
  match s.acks[k]? with
  | none => .next s
  | some a => s.onRoute a.route (.next { s with acks := s.acks.eraseIdx k })

/-- LOAD_VALUE_RETURN: the value of a load or atomic that waits at core n is back. A load of this
model takes its value in its own step, so what is left is to let a load that waits go on. -/
def execLoadValueReturn (n : Nat) (s : State) : Out :=
  .next (s.modCore n fun c => { c with stalled := false })

/-! ### The load monitor (R243) -/

/-- LOAD_MONITOR_WINDOW of layer l: the largest count of its 320 links and their sum. -/
def execLoadMonitorWindow (l maxLink sum : Nat) (s : State) : Out :=
  .next (s.modLayer l fun y =>
    let thr := y.lbal.toNat
    if thr = 0 then { y with twoPhase := false, calm := 0 }
    else if 0 < sum && thr * sum < 16 * 320 * maxLink then { y with twoPhase := true, calm := 0 }
    else if 3 ≤ y.calm then { y with twoPhase := false, calm := 0 }
    else { y with calm := if y.twoPhase then y.calm + 1 else 0 })

/-! ### Circuits (R177, R245) -/

/-- R177: does a number name a core of a layer that is not retired? -/
def State.coreExists (s : State) (n : Nat) : Bool :=
  decide (n < numCores) && (s.layer (layerOf n)).state != .retired

/-- The first id, less one, that the current core does not hold. -/
def Core.freeCircuit (c : Core) : Option (Fin 2) :=
  (List.finRange 2).find? fun i => (c.circuits[i]).isNone

/-- R177: CSETUP. -/
def execCsetup (d : XReg) (s t : XSrc) (st : State) : Out :=
  st.guard (d.val :: (s.regs ++ t.regs)) (s.cells ++ t.cells)
    (match st.core.progress with
     | .asked _ (some r) => .next (st.setX d (BitVec.ofNat 64 (r.headD 0))).retireMark
     | .asked _ none => .next st.stall
     | _ =>
       let dst := (st.src s).toNat
       let n := (st.src t).toNat
       if !st.coreExists dst then st.trap .addr (st.src s)
       else match st.core.freeCircuit with
         | none => .next (st.setX d 0).retireMark
         | some i =>
           if n = 0 || 4096 < n then .next (st.setX d 0).retireMark
           else
             let p : SetUp := { core := st.core.num, id := i.val + 1, dst := dst, n := n
                                path := routePath (routerOf st.core.num) (routerOf dst) }
             let u := { st with core := { st.core with progress := .asked 0 none }
                                setups := st.setups ++ [p] }
             .next u.stall)

/-- R177: CREL; a value that is no held id has no effect. -/
def execCrel (s : XSrc) (st : State) : Out :=
  st.guard s.regs s.cells
    (let v := (st.src s).toNat
     .next (if h : v - 1 < 2 then (if v = 0 then st else st.dropCircuit st.core.num ⟨v - 1, h⟩)
            else st).retire)

/-- R245: an output port holds at most two reservations. -/
def State.portFull (s : State) (router next : Nat) : Bool :=
  decide (2 ≤ (s.reservations.filter fun r => r.router == router && r.next == next).length)

/-- The last element that satisfies `p` is removed. -/
def dropLast {α : Type} (p : α → Bool) (l : List α) : List α := (dropFirst p l.reverse).reverse

/-- Is it a reservation of this router for a circuit? -/
def Reservation.isOf (router core id : Nat) (x : Reservation) : Bool :=
  x.router == router && x.core == core && x.id == id

/-- R245: a refusal releases the reservations that its set-up packet has made, the latest of its circuit's
number at each router that it has passed. -/
def State.releaseBefore (s : State) (p : SetUp) : State :=
  let whole := routePath (routerOf p.core) (routerOf p.dst)
  let passed := whole.take (whole.length - p.path.length)
  { s with reservations := passed.foldl (fun rs r => dropLast (Reservation.isOf r p.core p.id) rs) s.reservations }

/-- CIRCUIT_SETUP_HOP: the packet reserves the output port of the router it is at, or is refused. At
its last router the output port is the quad's; the packet arrives behind the core's earlier flits. -/
def execCircuitSetupHop (k : Nat) (s : State) : Out :=
  match s.setups[k]? with
  | none => .next s
  | some p =>
    let rest := { s with setups := s.setups.eraseIdx k }
    match p.path with
    | [] => .next rest
    | r :: t => s.onHop (routePath (routerOf p.core) (routerOf p.dst)) (p.path.take 2)
      (let next := match t with
        | q :: _ => q
        | [] => numRouters + quadOf p.dst
       let reply (grant : Bool) : CircuitReply := { core := p.core, id := p.id, dst := p.dst, n := p.n, grant := grant
                                                    path := s.backRoute r p.core, second := (s.backLegs r p.core).2 }
       if s.portFull r next then
         let u := rest.releaseBefore p
         .next { u with replies := u.replies ++ [reply false] }
       else
         let res : Reservation := { router := r, next := next, core := p.core, id := p.id }
         if t.isEmpty then
           if s.flits.any fun f => f.src.map (·.1) == some p.core && qdCore f.qdst == p.dst && !f.bounce
               && !s.farDest f.qdst then .next s
           else .next { rest with
             reservations := rest.reservations ++ [res], replies := rest.replies ++ [reply true] }
         else .next { rest with reservations := rest.reservations ++ [res]
                                setups := rest.setups ++ [{ p with path := t }] })

/-- CIRCUIT_REPLY: the grant or refusal reaches the source. A grant whose CSETUP has been abandoned is
torn down at once (R300). -/
def execCircuitReply (k : Nat) (s : State) : Out :=
  match s.replies[k]? with
  | none => .next s
  | some r => s.onRoute r.path
    (let u := { s with replies := s.replies.eraseIdx k }
     let c := u.getCore r.core
     let i : Fin 2 := if r.id = 1 then 0 else 1
     if c.progress = .asked 0 none && bits c.iw.toNat 25 7 = 0x70 then
       .next (u.modCore r.core fun c => { c with
         progress := .asked 0 (some [if r.grant then r.id else 0])
         circuits := if r.grant then c.circuits.set i.val (some { dst := r.dst, left := r.n })
                     else c.circuits })
     else if r.grant then .next (u.tearDown r.core r.dst r.id)
     else .next u)

/-- CIRCUIT_IDLE_TIMEOUT: 256 cycles without a flit. -/
def execCircuitIdleTimeout (n id : Nat) (s : State) : Out :=
  .next (if h : id - 1 < 2 then (if id = 0 then s else s.dropCircuit n ⟨id - 1, h⟩) else s)

/-- Is the flit one of a torn-down circuit's? -/
def Teardown.behind (t : Teardown) (f : Flit) : Bool :=
  f.src.map (·.1) == some t.core && f.circuit == t.id && qdCore f.qdst == t.dst && !f.bounce

/-- CIRCUIT_TEARDOWN_ACK: the teardown passes the routers of its circuit, each of which releases its
reservation; once it has passed the last one and the circuit's last flit is in the inbox, the
acknowledgement returns and the source may send on MSG. -/
def execCircuitTeardownAck (k : Nat) (s : State) : Out :=
  match s.teardowns[k]? with
  | none => .next s
  | some t =>
    if t.lost then .next s
    else match t.path with
    | r :: rest => s.onHop (routePath (routerOf t.core) (routerOf t.dst)) (t.path.take 2) (.next { s with
        reservations := dropFirst (Reservation.isOf r t.core t.id) s.reservations
        teardowns := s.teardowns.set k { t with path := rest } })
    | [] =>
      if s.flits.any t.behind then .next s
      else s.onRoute (s.backRoute (routerOf t.dst) t.core)
        (.next { s with teardowns := s.teardowns.eraseIdx k })

/-! ### Link errors (R359) -/

/-- FLIT_CRC_REPLAY: more than 256 replays of a link in one window of 2^20 cycles post a record. A port
number with 64 added says that the link fails every replay: nothing crosses it any more. -/
def execFlitCrcReplay (r port : Nat) (s : State) : Out :=
  let w := (Config.cycle s.tick).toNat / 2 ^ 20
  let p := port % 64
  let n := match s.replays.find? fun x => x.1 == r && x.2.1 == p && x.2.2.1 == w with
    | some x => x.2.2.2 + 1
    | none => 1
  let u := { s with
    replays := (r, p, w, n) :: s.replays.filter fun x => !(x.1 == r && x.2.1 == p)
    deadLinks := if port < 64 then s.deadLinks else (s.deadLinks ++ [(r, p)]).eraseDups }
  .next (if n = 257 then
    u.postError { code := 0x05, layer := layerOfRouter r, detail := r + 2 ^ 16 * p } else u)

/-! ### Packet age (R247, R248) -/

/-- A held slot. -/
def State.slot (s : State) (r : Nat × Fin 8) : Option RSlot := (s.getCore r.1).slots[r.2]
def State.freeRSlot (s : State) (r : Nat × Fin 8) : State :=
  s.modCore r.1 fun c => { c with slots := c.slots.set r.2.val none }

/-- The slots of core n's task whose responses have been discarded. -/
def State.agedSlots (s : State) (n : Nat) : List (Nat × Fin 8) :=
  (s.getCore n).rorder.filter fun r => ((s.slot r).map (·.aged)).getD false

/-- Is something that core n's instruction waits for lost? -/
def State.hasLost (s : State) (n : Nat) : Bool :=
  s.lost.any (·.core == n) || !(s.agedSlots n).isEmpty

/-- The registers as they stood at the remote load of a slot (R352: a fault of it is precise). -/
def Core.backTo (k : RSlot) (c : Core) : Core :=
  { c with x := k.x, a := k.a, pc := k.pc, npc := k.npc, rwait := false, stalled := false }

/-- R248, R352: the waiting instruction raises AGED. Where it is a remote load, its slot is free and the
later remote loads are aborted. A capture that waits for a body word is discarded as at any other fault of
that word's fetch, and EPC is body word 0 (R60; log entry 103). -/
def State.agedTrap (s : State) : State :=
  let gone := s.agedSlots s.core.num
  let c := match (gone.head?).bind s.slot with
    | some k => s.core.backTo k
    | none => s.core
  let s := s.leaveUnits s.core.num
  let u := { s with
    lost := s.lost.filter (·.core != s.core.num), core := { c with resumed := false, gaveUp := 0, slotWait := none }
    slotReqs := s.slotReqs.filter (·.core != s.core.num) }
  let u := (gone.foldl State.freeRSlot u).abortSlots
  if u.core.frame.cap then
    ({ u with core := { u.core with frame := {} } }).takeTrapAt .aged u.core.pc u.core.frame.bodyPc
  else u.takeTrap .aged u.core.pc

end Sys2Proof.Machine
end

