-- ==== Sys2Proof/Machine/Remote.lean ====
section
/-! DEFINITION. Accesses between packages: what the receiving package does with a request, and how a
response comes back to its core (R104, R313, R318, R329, R332, R350-R352). -/

namespace Sys2Proof.Machine

/-! ### At the receiving package (R313, R318) -/

/-- The import table's ASID for an issuing package and context: none where IMPB is 0 or V is 0. -/
def State.importAsid (s : State) (pkg ctx : Nat) : Option Nat :=
  let impb := s.reg 0x0008_0040 8
  let e := s.hbm.readN (impb + 4 * (256 * pkg + ctx)) 4
  if impb = 0 then none else if bits e 31 1 = 1 then some (bits e 0 16) else none

/-- What the translation of an incoming access finds: the parts of its range, by physical address and
length; or the first byte that fails, with its page. -/
inductive Incoming where
  | ok (segs : List (Nat × Nat))
  | denied (off : Nat)
  | malformed (off vpn : Nat)
  | absent (off vpn : Nat)
  deriving DecidableEq, Repr

/-- R314: the translation cache of the port that a package's requests come by: the first port of its
mask (log entry 20). -/
def State.portUnit (s : State) (pkg : Nat) : Nat :=
  numRouters + ((List.range 16).find? fun i => bits (s.route pkg) i 1 == 1).getD 0

/-- R313, R314: translate every page of the range at a port; each must carry G and grant the kind. -/
def State.incoming (s : State) (unit asid : Nat) (k : Kind) (va n : Nat) : Incoming :=
  (pagesOf (n / 2 ^ 21 + 2) va n).foldl (fun r p => match r with
    | .ok segs =>
      let off := p.1 * 2 ^ 21 + p.2.1 - va
      match s.lookup (some unit) asid p.1 k.writes with
      | .found pa perms =>
        if perms.getLsbD 0 && permsGrant perms k then .ok (segs ++ [(pa + p.2.1, p.2.2)])
        else .denied off
      | .absent => .absent off p.1
      | .malformed => .malformed off p.1
    | x => x) (.ok [])

/-- The kind and the length of a request. -/
def ReqOp.kind : ReqOp → Kind
  | .read _ => .load
  | .fetch _ => .load
  | .write _ => .store
  | .amo _ _ _ _ => .atomic
  | .check _ k _ => k
  | .unpin => .load
def ReqOp.size : ReqOp → Nat
  | .read n => n
  | .fetch n => n
  | .write bs => bs.length
  | .amo _ n _ _ => n
  | .check n _ _ => n
  | .unpin => 1
/-- Which kind of response answers it. -/
def ReqOp.resp : ReqOp → RespKind
  | .read _ => .slot
  | .amo _ _ _ _ => .slot
  | .write _ => .store
  | .fetch _ => .check
  | .check _ _ _ => .check
  | .unpin => .check
/-- Does it write? -/
def ReqOp.writes : ReqOp → Bool
  | .write _ => true
  | .amo _ _ _ _ => true
  | _ => false

/-- Send a response: to a core of this package, or out. -/
def State.respond (s : State) (r : Request) (x : Remote) : State :=
  let k : RespKind := match r.part with
    | none => r.op.resp
    | some _ => if r.op.writes then .wrote else .part
  let p : Response := { core := r.core, slot := r.slot, pkg := s.pkg, op := k, res := x, part := r.part
                        bad := r.bad, key := r.key, encl := r.encl, store := if r.op.writes then some r else none }
  match r.op with
  | .unpin => s
  | _ => if r.srcPkg = s.pkg then { s with responses := s.responses ++ [p] }
      else { s with out := s.out ++ [.response r.srcPkg p] }

/-- R332: an earlier request of the same core to the same 64-byte line has not been performed. -/
def Request.clashes (r q : Request) : Bool :=
  q.srcPkg == r.srcPkg && q.core == r.core
    && (firstCommon (q.va / 64 * 64) (q.va % 64 + q.op.size) (r.va / 64 * 64)
          ((r.va % 64 + r.op.size + 63) / 64 * 64)).isSome

/-- Does the entry of a page carry MIG? -/
def State.pageMig (s : State) (asid vpn : Nat) : Bool :=
  match s.walk asid vpn with
  | .hit t f => pteMig (s.pte t f)
  | _ => false

/-- R322, R328: the access waits: a store or atomic of a page that migrates from state 2 on, a TOUCH from
state 1 on, and any access behind a CXL port that is frozen. -/
def State.incomingWaits (s : State) (op : ReqOp) (asid : Nat) (pages : List Nat) (segs : List (Nat × Nat)) :
    Bool :=
  (op.writes && pages.any (s.migHolds asid))
    || (match op with
        | .check _ _ true => pages.any (s.pageMig asid)
        | _ => false)
    || segs.any fun g => s.portFrozen g.1

/-- The bytes of a range, or the first one that lies in a poisoned part. -/
def State.readSegs (s : State) (segs : List (Nat × Nat)) : List Byte × Option Nat :=
  segs.foldl (fun r g =>
    (r.1 ++ s.hbm.readBytes g.1 g.2,
      match r.2 with
      | some x => some x
      | none => (s.poisonHit [] (.hbm g.1) g.2).map (· + r.1.length))) ([], none)

/-- The poisoned bytes of a range. -/
def State.badSegs (s : State) (segs : List (Nat × Nat)) : List Nat :=
  ((segs.foldl (fun (r : Nat × List (Nat × Nat)) g =>
    (r.1 + g.2, r.2 ++ (List.range g.2).map fun i => (r.1 + i, g.1 + i))) (0, [])).2.filter fun x =>
      (s.poisonHit [] (.hbm x.2) 1).isSome).map (·.1)

/-- Answer a read. A copy takes poison along with its data (R356). -/
def State.serveRead (s : State) (r : Request) (segs : List (Nat × Nat)) : State :=
  if r.part.isSome then
    s.respond { r with bad := s.badSegs segs } (.data (ofBytes (s.readSegs segs).1))
  else match s.readSegs segs with
  | (_, some i) => s.respond r (.trap .poison i)
  | (bs, none) => s.respond r (.data (ofBytes bs))

/-- R356: the parts that hold the bytes of a run whose places are listed are poisoned. -/
def State.taint (s : State) (segs : List (Home × Nat)) (bad : List Nat) : State :=
  if bad.isEmpty then s
  else
    let homes := (segs.map fun g => (List.range g.2).map g.1.plus).flatten
    { s with poison := (s.poison ++ bad.filterMap fun i => (homes[i]?).bind Home.part).eraseDups }

/-- R119: the watch of a SPINW whose read arrives from this package is armed with the read. -/
def State.armWatch (s : State) (r : Request) (pas : List (Nat × Nat)) : State :=
  let c := s.getCore r.core
  let use : Option SlotUse := (c.slots.toList.getD r.slot none).map RSlot.use
  match use, pas with
  | some (.spinw _ _), (pa, _) :: _ =>
    if r.srcPkg = s.pkg && r.part.isNone then
      s.modCore (c.memberOf.getD r.core) fun c => { c with watch := some (.hbm (pa / 64 * 64), false) }
    else s
  | _, _ => s

/-- Perform a request whose checks are passed, at a port. -/
def State.serve (s : State) (r : Request) (unit asid : Nat) (pas : List (Nat × Nat)) : State :=
  let s := (pageNums r.va r.op.size).foldl (fun s p => s.passed (some unit) r.op.writes asid p) s
  match r.op with
  | .read _ => (s.armWatch r pas).serveRead r pas
  | .fetch _ => s.serveRead r pas
  | .write bs => (((s.storeSegs (pas.map fun g => (.hbm g.1, g.2)) bs)).taint (pas.map fun g => (.hbm g.1, g.2)) r.bad).respond r (.data 0)
  | .amo op n b e =>
    let pa := (pas.head?.map (·.1)).getD 0
    match s.poisonHit [] (.hbm pa) n with
    | some i => s.respond r (.trap .poison i)
    | none =>
      let x := s.amoHome (.hbm pa) op n b e
      x.2.respond r (.data x.1)
  | .check _ _ pin =>
    (if pin then s.addPin asid (r.va / 2 ^ 21) true else s).respond r (.data 0)
  | .unpin => s

/-- R313: PROT is returned; a store that is refused has written nothing. -/
def State.refuseRequest (s : State) (r : Request) (off : Nat) : State := s.respond r (.trap .prot off)

/-- REMOTE_REQUEST_RECEIVE: the k-th request at this package's interface. -/
def execRemoteRequestReceive (k : Nat) (s : State) : Out :=
  match s.requests[k]? with
  | none => .next s
  | some r =>
    if (s.requests.take k).any r.clashes then .next s
    else s.onRoute (if r.srcPkg = s.pkg then downRoute r.core else [])
     (let u := { s with requests := s.requests.eraseIdx k }
      match s.importAsid r.srcPkg r.ctx with
      | none => .next (match r.op with
          | .unpin => u
          | _ => u.refuseRequest r 0)
      | some asid =>
        match r.op with
        | .unpin => .next (u.addPin asid (r.va / 2 ^ 21) false)
        | _ => match s.incoming (s.portUnit r.srcPkg) asid r.op.kind r.va r.op.size with
          | .ok segs =>
            if s.incomingWaits r.op asid (pageNums r.va r.op.size) segs then .next s
            else .next (u.serve r (s.portUnit r.srcPkg) asid segs)
          | .denied off => .next (u.refuseRequest r off)
          | .malformed off vpn =>
            .next ((u.malformedBy (3, s.portUnit r.srcPkg - numRouters) none asid vpn).refuseRequest r off)
          | .absent _ vpn =>
            .next ((u.fault asid vpn r.ctx r.op.kind.bit (some (r.srcPkg, r.ctx))).respond r .xlat))

/-! ### Back at the issuing core (R352) -/

/-- What the waiting instruction makes of the outcome of a check. -/
def Remote.reply : Remote → List Nat
  | .data v => [0, v, 0, 0]
  | .trap c off => [c.code, off]
  | .xlat => []

/-- A remote load ends in a trap: the later ones are aborted. A frozen core issues it again when it is
released (R363). -/
def State.remoteTrap (s : State) (k : RSlot) (c : Cause) (off : Nat) : State :=
  let u := s.abortSlots
  let u := { u with core := u.core.backTo k }
  if u.core.frozen then u else u.takeTrap c (k.addr + BitVec.ofNat 64 off)

/-- A remote load met a page that is not resident: its region runs again later (R318). -/
def State.remoteMiss (s : State) (k : RSlot) : State :=
  let u := s.restartFor (.remotePage (bits k.addr.toNat 0 53 / 2 ^ 21 * 2 ^ 21))
  if s.core.frozen then { u with core := { u.core with tstate := .frozen, wait := .none } } else u

/-- R119: SPINW has its value. It is done, or it parks; its watch was armed with the read, and a line of
another package is watched by its global address. -/
def State.spinwData (s : State) (k : RSlot) (d : XReg) (e : Nat) (v : Word) : State :=
  if s.core.woken || v != s.rx d then
    let u := { s with core := { s.core with watch := none } }
    ((u.setX d v).wokenUp).retire.afterInstr
  else if s.core.frozen then s
  else
    let u := s.park (.spinw e)
    let far : Home := .global (bits k.addr.toNat 53 10) (bits k.addr.toNat 0 53)
    { u with core := { u.core with watch := match s.core.watch with
        | some w => some w
        | none => some (far.line, false) } }

/-- A register as a remote load has written it, in what a fault of a later one puts back (R352). -/
def State.keepX (s : State) (r : XReg) : State :=
  s.core.rorder.foldl (fun s q => s.modCore q.1 fun c => { c with
    slots := c.slots.set q.2.val ((c.slots[q.2]).map fun (k : RSlot) => { k with x := k.x.set r.val s.core.x[r.val] }) }) s

/-- The data of the oldest remote load is written, and the load is over (R352). After an atomic a new
region begins (R109). -/
def State.remoteData (s : State) (k : RSlot) (v : Nat) : State :=
  let s := { s with core := { s.core with rwait := false, stalled := false } }
  match k.use with
  | .ld d t _ =>
    let u := (s.setLoad d t v).keepX d
    (if t == .p then u.keepX (nextReg d) else u).afterInstr
  | .ldHigh d _ => ((s.setX d (BitVec.ofNat 64 (v / 2 ^ 64))).keepX d).afterInstr
  | .amo d wide uns =>
    let n := if wide then 8 else 4
    let u := s.setX d (if uns then BitVec.ofNat 64 v else BitVec.ofInt 64 (toS (8 * n) v))
    (u.keepX d).newRegion.afterInstr
  | .gld dst n => (s.storeHome (.loc s.core.num (dst % 2 ^ 14)) (bytesOf n v)).afterInstr
  | .spinw d e => s.spinwData k d e (BitVec.ofNat 64 v)

/-- R226: an older store of the core to the bytes that a GLD writes is still in its buffer. -/
def State.olderStore (s : State) (k : RSlot) : Bool :=
  match k.use.locals with
  | some (b, m) => s.core.sb.any fun e => match e.home with
    | .loc c a => c == s.core.num && (firstCommon a e.bytes.length b m).isSome
    | _ => false
  | none => false

/-- Write the oldest remote load of the current core, once its response is there. -/
def State.remoteWrite (s : State) : State :=
  match s.core.rorder with
  | [] => s
  | r :: t =>
    match s.slot r with
    | none => s
    | some k =>
      match k.resp with
      | none => s
      | some x =>
        if s.olderStore k then s
        else
        let u := s.freeRSlot r
        let u := { u with core := { u.core with rorder := t } }
        match x with
        | .data v => u.remoteData k v
        | .trap c off => u.remoteTrap k c off
        | .xlat => u.remoteMiss k

/-- REMOTE_LOAD_WRITE at core n: destinations are written in program order, and the slot is freed. -/
def execRemoteLoadWrite (n : Nat) (s : State) : Out := .next (s.onCore n State.remoteWrite)

end Sys2Proof.Machine
end

