-- ==== Sys2Proof/Machine/Mirror.lean ====
section
/-! DEFINITION. The mirror: slots, frames and commands of slot 0, the states of a layer, and LCTL
(R193, R231, R249-R256). -/

namespace Sys2Proof.Machine

/-! ### Slots (R249-R251) -/

/-- R251: the pieces that the 12 records of one slot take from the head of a queue: pieces of one
chunk share a record, and the first that finds no record stops the slot. `seen` are the chunks that
have a record. -/
def slotTake : List Nat → List MirrorStore → List MirrorStore
  | _, [] => []
  | seen, m :: t =>
    if seen.contains (m.off / 16) then m :: slotTake seen t
    else if seen.length < 12 then m :: slotTake ((m.off / 16) :: seen) t
    else []

/-- The mirror queue of a sender: a layer, or 12 for the base die. -/
def State.mirrorQueue (s : State) (src : Nat) : List MirrorStore :=
  if src = 12 then s.baseq else (s.layer src).mq
def State.setMirrorQueue (s : State) (src : Nat) (q : List MirrorStore) : State :=
  if src = 12 then { s with baseq := q } else s.modLayer src fun l => { l with mq := q }

/-- R249, R255: may this owner send? A layer that takes its copy again (R254) is AWAKE. -/
def State.sends (s : State) (src : Nat) : Bool := src == 12 || (s.layer src).state == .awake

/-- MIRROR_SLOT_SEND: slot k of the current frame; slots pass in rising order. -/
def execMirrorSlotSend (k : Nat) (s : State) : Out :=
  if k ≤ s.slotNow || 64 ≤ k then .next s
  else
    let src := (s.frameMap.toList.getD k 15).toNat
    let u := { s with slotNow := k }
    if s.sends src then
      let taken := slotTake [] (s.mirrorQueue src)
      if taken.isEmpty then .next u
      else
        let v := u.setMirrorQueue src ((s.mirrorQueue src).drop taken.length)
        .next { v with sent := v.sent ++ [{ slot := k, src := src, stores := taken }] }
    else .next u

/-! ### Application (R231, R253, R256) -/

/-- Does a layer take what is applied? -/
def Layer.receives (l : Layer) : Bool := l.state == .awake || l.state == .drowsy || l.waking.isSome

/-- A piece applied to a layer's copy. While the layer takes the base die's copy the bytes written are
live (R256). -/
def Layer.apply (m : MirrorStore) (l : Layer) : Layer :=
  if l.receives then { l with
    mirror := l.mirror.writeBytes m.off m.bytes
    waking := l.waking.map fun w => { w with
      live := ((List.range m.bytes.length).map (m.off + ·) ++ w.live).eraseDups } }
  else l

/-- A piece applied to every copy; whoever watches its line is told (R119). -/
def State.applyPiece (s : State) (m : MirrorStore) : State :=
  let s := { s with
    poison := clearPoison s.poison (.mirror m.off) m.bytes.length
      ++ (if m.poisoned then [Place.mirror (m.off / 16 * 16)] else [])
    mirror := s.mirror.writeBytes m.off m.bytes
    layers := s.layers.map (Layer.apply m) }
  s.notice (.mirror m.off) m.bytes.length

/-- R253: the slots of a frame that are rejected: those found bad, and every later slot of the same
sender. -/
def rejected (bad : BitVec 64) : List Nat → List SentSlot → List SentSlot
  | _, [] => []
  | gone, x :: t =>
    if bad.getLsbD x.slot || gone.contains x.src then x :: rejected bad (x.src :: gone) t
    else rejected bad gone t

/-- R253: the rejected pieces of a sender go back to the head of its queue. -/
def State.giveBack (s : State) (xs : List SentSlot) (src : Nat) : State :=
  let ms := ((xs.filter (·.src == src)).map (·.stores)).flatten
  if ms.isEmpty then s else s.setMirrorQueue src (ms ++ s.mirrorQueue src)

/-- MIRROR_FRAME_APPLY: slot 0 of the next frame. Every receiver applies the slots that are not
rejected, in ascending slot and record order, and the next frame takes the map that now stands. -/
def execMirrorFrameApply (bad : BitVec 64) (s : State) : Out :=
  let back := rejected bad [] s.sent
  let good := s.sent.filter fun x => !back.contains x
  let u := ((good.map (·.stores)).flatten).foldl State.applyPiece s
  let u := (List.range 13).foldl (fun s src => s.giveBack back src) u
  let u := { u with failing :=
    (u.failing ++ (s.sent.filter fun (x : SentSlot) => bad.getLsbD x.slot).map fun (x : SentSlot) => Place.coil x.src x.slot).eraseDups }
  .next { u with sent := [], frame := u.frame + 1, slotNow := 0, frameMap := u.slotmap }

/-! ### Commands of slot 0 (R252, R255) -/

/-- The command at the head is this one: it is sent, and then what it does. -/
def State.command (s : State) (c : Command) (k : State → State) : Out :=
  match s.cmds with
  | d :: t => .next (if d = c then k { s with cmds := t } else s)
  | [] => .next s

/-- The command of a layer that must first empty its mirror queue waits for it (R255). -/
def State.emptied (s : State) (l : Nat) : Bool :=
  (s.layer l).mq.isEmpty && !(s.sent.any (·.src == l))

/-- R193: layer l has come to a state; whoever asked for it has what it asked for. -/
def Core.layerIs (l : Nat) (goal : LState) (c : Core) : Core :=
  if c.progress = .layerTo l goal false then { c with progress := .layerTo l goal true } else c
def State.layerIs (s : State) (l : Nat) (goal : LState) : State :=
  { s with core := s.core.layerIs l goal, others := s.others.map (Core.layerIs l goal) }

/-- LAYER_WAKE_COMMAND: from DROWSY the layer is awake at once, though it may be taking its copy again (DESIGN
CHOICE, log entry 113); from ASLEEP it takes the base die's copy first (R256). -/
def execLayerWakeCommand (l : Nat) (s : State) : Out :=
  s.command (.wake l) fun s =>
    match (s.layer l).state with
    | .drowsy => (s.modLayer l fun y => { y with state := .awake, closed := false }).layerIs l .awake
    | .asleep => s.modLayer l fun y => { y with waking := some (y.waking.getD {}) }
    | .awake => s.layerIs l .awake
    | .retired => s
def execLayerDrowsyCommand (l : Nat) (s : State) : Out :=
  if s.emptied l then
    s.command (.drowsy l) fun s =>
      match (s.layer l).state with
      | .awake => (s.modLayer l fun y => { y with state := .drowsy }).layerIs l .drowsy
      | .drowsy => s.layerIs l .drowsy
      | _ => s
  else .next s
/-- LAYER_SLEEP_COMMAND: the receiver is off and the copy is lost. -/
def execLayerSleepCommand (l : Nat) (s : State) : Out :=
  if s.emptied l then
    s.command (.sleep l) fun s =>
      match (s.layer l).state with
      | .retired => s
      | .asleep => s.layerIs l .asleep
      | _ =>
        let u := { s with poison := s.poison.filter fun p => match p with
          | .mirrorCopy k _ => k != l
          | _ => true }
        (u.modLayer l fun y => { y with state := .asleep, mirror := [], waking := none }).layerIs l .asleep
  else .next s

/-- R254: the receiver has found both copies bad: the layer's cores stall until it has the base die's copy,
which a layer that is taking it takes from the start again. -/
def execSlot0RecordLost (l : Nat) (s : State) : Out :=
  if l < 12 && (s.layer l).receives then
    let u := { s with failing := (s.failing ++ [Place.coil 12 0]).eraseDups }
    .next ((u.modLayer l fun y => { y with waking := some {} }).postError
      { code := 0x06, layer := l, detail := s.frame.toNat })
  else .next s

/-- R256: a chunk writes the bytes that are not live. -/
def Layer.merge (base : Memory) (chunk : Nat) (w : Waking) (y : Layer) : Layer :=
  { y with mirror := (List.range 16).foldl (fun m i =>
      if w.live.contains (16 * chunk + i) then m
      else m.write (16 * chunk + i) (base.read (16 * chunk + i))) y.mirror
           waking := some { w with next := chunk + 1 } }

/-- R356: a chunk of the base die's copy takes its poison along, where it writes a byte; a chunk written
whole has only that. -/
def State.mergePoison (s : State) (l chunk : Nat) (w : Waking) : State :=
  if s.poison.isEmpty then s
  else
    let live := (List.range 16).filter fun i => w.live.contains (16 * chunk + i)
    let ps := if live.isEmpty then s.poison.filter (· != Place.mirrorCopy l (16 * chunk)) else s.poison
    { s with poison :=
        if live.length < 16 && ps.contains (.mirrorCopy 12 (16 * chunk))
        then (ps ++ [Place.mirrorCopy l (16 * chunk)]).eraseDups else ps }

/-- R256: after the last chunk the layer is awake. -/
def Layer.endWake (y : Layer) : Layer :=
  { y with waking := none
           state := if y.state = .asleep then .awake else y.state
           closed := if y.state = .asleep then false else y.closed }

/-- R256, R359: a vertical path from the base die to a layer is there, along which no link fails every replay. The
copy comes by whichever of the 32 serves (log entry 100). -/
def State.columnOpen (s : State) (l : Nat) : Bool :=
  (List.range 32).any fun k => !((linksOf (baseNode k :: routePath k (32 * l + k))).any s.deadLinks.contains)

/-- WAKE_CHUNK_MERGE: the next of the 2^18 chunks of the base die's copy. -/
def execWakeChunkMerge (l chunk : Nat) (s : State) : Out :=
  match (s.layer l).waking with
  | some w =>
    if chunk = w.next && s.columnOpen l then
      let u := (s.modLayer l (Layer.merge s.mirror chunk w)).mergePoison l chunk w
      .next (if chunk + 1 < 2 ^ 18 then u
        else
          let v := u.modLayer l Layer.endWake
          if (v.layer l).state = .awake then v.layerIs l .awake else v)
    else .next s
  | none => .next s

/-! ### LCTL (R193) -/

/-- R193: the layer holds a task: running on, parked on, queued in or bound to it, or park-saved there. -/
def State.layerBusy (s : State) (l : Nat) : Bool :=
  let on (t : Task) : Bool := layerOfRouter t.dom == l || (t.bound.map layerOf) == some l
  (s.allCores.any fun c => layerOf c.num == l && (c.task.isSome || c.memberOf.isSome))
    || (s.queue ++ s.spawns).any on
    || (s.records.any fun r => layerOf r.image.num == l && !r.stop)

/-- R193: LCTL asks for a transition to a state from one that `from_` admits, and waits for it; `empties`:
the layer must hold no task. It waits on where an earlier command has made the transition impossible (DESIGN
CHOICE, log entry 113). -/
def State.lctl (st : State) (d : XReg) (s : XSrc) (goal : LState) (cmd : Nat → Command)
    (from_ : LState → Bool) (empties : Bool) : Out :=
  st.privileged (st.guard (d.val :: s.regs) s.cells
    (let l := (st.src s).toNat
     let no : Out := .next (st.setX d 0).retireMark
     let yes : Out := .next (st.setX d 1).retireMark
     if 11 < l then no
     else
       let y := st.layer l
       if y.state = goal || st.core.progress = .layerTo l goal true then yes
       else if st.core.progress = .layerTo l goal false then .next st.stall
       else if !from_ y.state then no
       else if empties && (st.layerBusy l || layerOf st.core.num == l) then no
       else
         let u := if empties then st.modLayer l fun y => { y with closed := true } else st
         let u := { u with cmds := u.cmds ++ [cmd l] }
         .next ({ u with core := { u.core with progress := .layerTo l goal false } }).stall))

def execLctlSleep (d : XReg) (s : XSrc) (st : State) : Out :=
  st.lctl d s .asleep .sleep (fun y => y == .awake || y == .drowsy) true
def execLctlDrowsy (d : XReg) (s : XSrc) (st : State) : Out :=
  st.lctl d s .drowsy .drowsy (· == .awake) true
def execLctlWake (d : XReg) (s : XSrc) (st : State) : Out :=
  st.lctl d s .awake .wake (fun y => y == .drowsy || y == .asleep) false
def execLctlRetire (d : XReg) (s : XSrc) (st : State) : Out :=
  st.lctl d s .retired .retire (· == .asleep) false

end Sys2Proof.Machine
end

