-- ==== Sys2Proof/Machine/Wells.lean ====
section
/-! DEFINITION. Residual accumulation objects: where a well lives, posting, the sequence its banks
carry out, and reading (chapter 11). -/

namespace Sys2Proof.Machine

/-! ### Wells and their slots (R127, R257, R258) -/

/-- The slot of a home vault with an index. -/
def State.wellSlot (s : State) (home idx : Nat) : WellSlot :=
  (s.wells.find? fun w => w.home == home && w.idx == idx).getD { home := home, idx := idx }
def State.putWellSlot (s : State) (w : WellSlot) : State :=
  { s with wells := w :: s.wells.filter fun x => !(x.home == w.home && x.idx == w.idx) }

/-- The well that an incarnation of a slot names, while it is not released. -/
def State.wellAt (s : State) (home idx inc : Nat) : Option Well :=
  let w := s.wellSlot home idx
  if w.inc = inc then w.well.filter (·.freed.isNone) else none

/-- Change a well. -/
def State.modWell (s : State) (home idx : Nat) (f : Well → Well) : State :=
  let w := s.wellSlot home idx
  match w.well with
  | some x => s.putWellSlot { w with well := some (f x) }
  | none => s

/-- The fields of a handle. -/
def hHome (h : Word) : Nat := bits h.toNat 0 9
def hIdx (h : Word) : Nat := bits h.toNat 16 8
def hInc (h : Word) : Nat := bits h.toNat 24 8

/-- R127, R258: the well that a handle names for a context. -/
def State.wellOf (s : State) (ctx : Nat) (h : Word) : Option Well :=
  if bits h.toNat 32 32 ≠ 0 || bits h.toNat 9 7 ≠ 0 || decide (numRouters ≤ hHome h)
      || (s.layer (layerOfRouter (hHome h))).state == .retired then none
  else (s.wellAt (hHome h) (hIdx h) (hInc h)).filter (·.ctx == ctx)

/-- R260: the classes of a generation number. -/
inductive GenClass where
  | open_ | ahead | retired
  deriving DecidableEq, Repr

/-- R129: the signed distance of a generation from the current one. -/
def Well.delta (w : Well) (g : Nat) : Int := toS 16 (g + 65536 - w.cur)
def Well.classOf (w : Well) (g : Nat) : GenClass :=
  let δ := w.delta g
  if 0 < δ then .ahead
  else if -(w.late : Int) ≤ δ && -δ ≤ (w.adv : Int) then .open_ else .retired

/-- R260: generation g uses slot g mod 4. -/
def Well.gen (w : Well) (g : Nat) : GenSlot := w.gens[g % 4]'(Nat.mod_lt _ (by decide))
def Well.setGen (w : Well) (g : Nat) (x : GenSlot) : Well :=
  { w with gens := w.gens.set (g % 4) x (Nat.mod_lt _ (by decide)) }

/-- Fields of a tag (R129). -/
def tagGen (t : Word) : Nat := bits t.toNat 0 16
def tagCon (t : Word) : Nat := bits t.toNat 16 5
def tagScale (t : Word) : Nat := bits t.toNat 32 32

/-- A mask with a bit set. -/
def setBit (m i : Nat) : Nat := Nat.lor m (2 ^ i)

/-! ### Storage (R257, RNEW) -/

/-- R257: the router of stripe vault v. -/
def stripeVault (home v : Nat) : Nat := home / 8 * 8 + (home % 8 + v) % 8
/-- Bytes of a segment block. -/
def blockBytes (p : Nat) : Nat := 64 * (96 + 8 * p)
/-- R257: the banks a well uses, each with its bytes: router, bank 0 to 31, bytes. -/
def wellBanks (home idx d span p : Nat) : List (Nat × Nat × Nat) :=
  (home, idx % 32, 2048) :: (List.range d).map fun s =>
    (stripeVault home (s % span), (idx + s / span) % 32, blockBytes p)

/-- The bytes that a list of uses takes of one bank. -/
def bytesIn (us : List (Nat × Nat × Nat)) (r b : Nat) : Nat :=
  ((us.filter fun u => u.1 == r && u.2.1 == b).map (·.2.2)).sum

/-- Every bank use of the allocated wells. -/
def State.bankUses (s : State) : List (Nat × Nat × Nat) :=
  (s.wells.filterMap fun w => w.well.map fun x => wellBanks w.home w.idx x.d x.span x.p).flatten

/-- R257: one sixteenth of the slice's well area. -/
def State.bankCap (s : State) (r b : Nat) : Nat :=
  (s.reg (0x0053_0000 + 8 * (2 * r + b / 16)) 8 % 32) * 4096

/-- Room for a well in a slot. -/
def State.wellFits (s : State) (home idx d span p : Nat) : Bool :=
  let us := wellBanks home idx d span p
  let all := s.bankUses ++ us
  let w := s.wellSlot home idx
  w.well.isNone && !w.resting && us.all fun u => decide (bytesIn all u.1 u.2.1 ≤ s.bankCap u.1 u.2.1)

/-- A creation descriptor's fields (R128). -/
structure WellDesc where
  span : Nat
  home : Nat
  p : Nat
  late : Nat
  e : Int
  n : Nat
  d : Nat
  deriving DecidableEq, Repr

def wellDesc (x own : Nat) : WellDesc :=
  { span := 2 ^ bits x 37 2, home := if bits x 28 9 = 0x1FF then own else bits x 28 9
    p := if bits x 25 3 = 0 then 4 else bits x 25 3 + 1
    late := bits x 23 2, e := toS 8 (bits x 15 8), n := bits x 10 5 + 1, d := bits x 0 10 }

/-- R128, R257: allocate the slot: everything clear, INC advanced; the handle. -/
def State.newWell (s : State) (ctx idx : Nat) (x : WellDesc) : Word × State :=
  let inc := (s.wellSlot x.home idx).inc % 255 + 1
  let w : Well := { ctx := ctx, d := x.d, n := x.n, e := x.e, late := x.late, p := x.p, span := x.span
                    banks := List.replicate x.d {} }
  let u := s.putWellSlot { home := x.home, idx := idx, inc := inc, well := some w }
  (BitVec.ofNat 64 (x.home + idx * 2 ^ 16 + inc * 2 ^ 24),
    { u with poison := u.poison.filter fun p => match p with
        | .wellCell h i _ _ => !(h == x.home && i == idx)
        | _ => true })

def execRnew (d : XReg) (s : XSrc) (st : State) : Out :=
  st.guard (d.val :: s.regs) s.cells
    (let v := (st.src s).toNat
     let x := wellDesc v (routerOf st.core.num)
     if bits v 39 25 ≠ 0 || x.d = 0 || decide (512 < x.d) || decide (numRouters ≤ x.home)
         || (st.layer (layerOfRouter x.home)).state == .retired then st.trap .rao (st.src s)
     else match (List.range 256).find? fun i => st.wellFits x.home i x.d x.span x.p with
       | none => .next (st.setX d 0).retireMark
       | some i =>
         let r := st.newWell st.core.ctx i x
         .next (r.2.setX d r.1).retireMark)

/-! ### Posting (R129, R261-R263) -/

/-- The registers of a collective group (R335). -/
def groupBase (g : Nat) : Nat := 0x0020_0000 + 0x100 * g
/-- STATE[1:0]: 0 FREE, 1 OPEN, 2 ABORTING, 3 FAILED. -/
def State.groupSt (s : State) (g : Nat) : Nat := s.reg (groupBase g) 8 % 4

/-- Acknowledge a term to its poster (R263, R339). An entry whose group is no longer OPEN hears nothing
(R335). -/
def State.ackTerm (s : State) (t : Term) (landed : Bool) : State :=
  match t.src with
  | .core n => { s with acks := s.acks ++ [s.ackFrom n .rpost t.home] }
  | .entry id => { s with fired := s.fired.map fun f =>
      if f.id = id && s.groupSt f.e.grp = 1 then { f with left := f.left - 1 } else f }
  | .remote p g q id => { s with out := s.out ++ [.packet p 0 0 (.partAck g q id landed)] }

/-- R261: the reply to a request. One of an engine needs no reply to travel: its term goes on, or its
acknowledgement goes back. -/
def State.replyTerm (s : State) (t : Term) (x : TermPhase) : State :=
  match t.src, x with
  | .core _, _ => { s with terms := s.terms ++ [{ t with phase := x }] }
  | _, .granted k => { s with terms := s.terms ++ [{ t with phase := .staging k }] }
  | _, _ => s.ackTerm t false

/-- A staging slot that is free. -/
def Well.freeStage (w : Well) : Option Nat := (List.range w.p).find? fun k => !w.held.contains k

/-- Is it a term of this well? -/
def Term.at_ (t : Term) (home idx : Nat) : Bool := t.home == home && t.idx == idx

/-- R261: the head of RESQ is granted the free staging slot. -/
def State.grantTerm (s : State) (home idx : Nat) : State :=
  match (s.wellSlot home idx).well with
  | none => s
  | some w =>
    match w.freeStage, s.terms.find? fun t => t.at_ home idx && t.phase == .queued with
    | some k, some t =>
      let u := { s with terms := s.terms.erase t }
      (u.modWell home idx fun w => { w with held := k :: w.held }).replyTerm t (.granted k)
    | _, _ => s

/-- RPOST: the checks, the post buffer, and the request on its way (R261 step 1). -/
def State.post (st : State) (h : Word) (a tag : Word) (l c f : Bool) : Out :=
  match st.wellOf st.core.ctx h with
  | none => st.trap .rao h
  | some w =>
    if bits tag.toNat 21 11 ≠ 0 || (!c && tagScale tag != 0) || decide (w.n ≤ tagCon tag) then
      st.trap .rao tag
    else
      let size := if f then 2 else 4
      let n := 64 * w.d * size
      st.takeBytes size a n true fun st bs =>
        let t : Term := {
          src := .core st.core.num, ctx := st.core.ctx, home := hHome h, idx := hIdx h, inc := hInc h
          tag := tag, scaled := c, lt := l, bf16 := f
          data := (List.range (64 * w.d)).map fun i => ofBytes ((bs.drop (size * i)).take size) }
        let u := { st.stall with terms := st.terms ++ [t] }
        .next { u with core := { u.core with progress := .asked 1 none } }

def execRpost (d s t : XSrc) (l c f : Bool) (st : State) : Out :=
  match st.core.progress with
  | .asked 1 _ => .next st.stall
  | _ => st.guard (d.regs ++ s.regs ++ t.regs) (d.cells ++ s.cells ++ t.cells)
      (st.post (st.src d) (st.src s) (st.src t) l c f)

/-- The route of a term to its home, from its core or from the base die, and of the reply to it. -/
def Term.route (t : Term) : List Nat :=
  match t.src with
  | .core n => routePath (routerOf n) t.home
  | _ => baseNode t.home :: routePath (t.home % 32) t.home
def Term.back (t : Term) : List Nat :=
  match t.src with
  | .core n => routePath t.home (routerOf n)
  | _ => routePath t.home (t.home % 32) ++ [baseNode t.home]

/-- WELL_RESERVATION_REQUEST: the home takes a request from its TERM input; LT is tested here and not again in
RESQ (DESIGN CHOICE, log entry 110). -/
def execWellReservationRequest (k : Nat) (s : State) : Out :=
  match s.terms[k]? with
  | none => .next s
  | some t =>
    if t.phase ≠ .request then .next s
    else s.onRoute t.route
     (let u := { s with terms := s.terms.eraseIdx k }
      match (s.wellAt t.home t.idx t.inc).filter (·.ctx == t.ctx) with
      | none => .next (u.replyTerm t .discarded)
      | some w =>
        if t.lt && w.classOf (tagGen t.tag) == .retired then .next (u.replyTerm t .late)
        else if 64 ≤ (s.terms.filter fun x => x.at_ t.home t.idx && x.phase == .queued).length then .next s
        else .next ({ u with terms := u.terms ++ [{ t with phase := .queued }] }.grantTerm t.home t.idx))

/-- WELL_RESERVATION_REPLY: the reply reaches core n. Granted, its segments are injected and the RPOST
is done. -/
def execWellReservationReply (n : Nat) (s : State) : Out :=
  match s.terms.findIdx? fun t => t.src == .core n && (match t.phase with
      | .granted _ => true
      | .late => true
      | .discarded => true
      | _ => false) with
  | none => .next s
  | some i =>
    match s.terms[i]? with
    | none => .next s
    | some t => s.onRoute t.back
     (let u := { s with terms := s.terms.eraseIdx i }
      let done (s : State) : State := s.onCore n fun s => s.retireMark.afterInstr
      match t.phase with
      | .granted k => .next (done { u with terms := u.terms ++ [{ t with phase := .staging k }] })
      | .late => .next (u.onCore n fun s => s.takeTrap .late t.tag)
      | _ => .next (done u))

/-- R262: the exact product v * SCALE / 2^E on the grid, with SAT and INV. -/
def gridValue (e : Int) (scale v : FV) : Int × Bool × Bool :=
  match FV.mul v scale with
  | .nan => (0, false, true)
  | .inf neg => (if neg then -(2 ^ 47) else 2 ^ 47 - 1, true, false)
  | .fin neg m x =>
    let i := roundInt .rne neg m (x - e)
    let j := clampI (-(2 ^ 47)) (2 ^ 47 - 1) i
    (j, i != j, false)

/-- The scale of a term. -/
def Term.scale (t : Term) : FV := if t.scaled then fmtF32.value (tagScale t.tag) else .fin false 1 0

/-- A segment of a term on the grid. -/
def Term.segment (t : Term) (e : Int) (seg : Nat) : List (Int × Bool × Bool) :=
  ((t.data.drop (64 * seg)).take 64).map fun c =>
    gridValue e t.scale (if t.bf16 then fmtBf16.value c else fmtF32.value c)

/-- A column of a segment block. -/
def Bank.col (b : Bank) (c : Nat) : List Int := ((b.cols.find? (·.1 == c)).map (·.2)).getD []
def Bank.setCol (b : Bank) (c : Nat) (v : List Int) : Bank :=
  { b with cols := (b.cols.filter (·.1 != c)) ++ (if v.all (· == 0) then [] else [(c, v)]) }

/-- The bank of a segment. -/
def Well.modBank (w : Well) (seg : Nat) (f : Bank → Bank) : Well :=
  { w with banks := match w.banks[seg]? with
      | some b => w.banks.set seg (f b)
      | none => w.banks }

/-- Poison of a column's cells (R275). Element i of column c is cell 64*c + i. -/
def State.cleanCol (s : State) (home idx seg c : Nat) : State :=
  if s.poison.isEmpty then s
  else { s with poison := s.poison.filter fun p => match p with
      | .wellCell h i g x => !(h == home && i == idx && g == seg && x / 64 == c)
      | _ => true }
/-- The poisoned elements of a column. -/
def State.badCells (s : State) (home idx seg c : Nat) : List Nat :=
  s.poison.filterMap fun p => match p with
    | .wellCell h i g x => if h = home && i = idx && g = seg && x / 64 = c then some (x % 64) else none
    | _ => none
/-- The poison of one column goes over to another. -/
def State.spreadCol (s : State) (home idx seg src dst : Nat) : State :=
  { s with poison := (s.poison ++ (s.badCells home idx seg src).map fun i =>
      Place.wellCell home idx seg (64 * dst + i)).eraseDups }

/-- WELL_SEGMENT_STAGE: the bank converts a segment into its staging column and tells the home. -/
def execWellSegmentStage (k seg : Nat) (s : State) : Out :=
  match s.terms[k]? with
  | none => .next s
  | some t =>
    match t.phase, (s.wellSlot t.home t.idx).well with
    | .staging c, some w =>
      if w.d ≤ seg || t.staged.contains seg || t.lost.contains seg then .next s
      else s.onRoute t.route
       (let vs := t.segment w.e seg
        let u := s.modWell t.home t.idx fun w => w.modBank seg fun b => b.setCol (12 + c) (vs.map (·.1))
        let u := u.cleanCol t.home t.idx seg (12 + c)
        .next { u with terms := u.terms.set k { t with
          staged := seg :: t.staged
          psat := t.psat || vs.any (·.2.1), pinv := t.pinv || vs.any (·.2.2) } })
    | _, _ => .next s

/-- An event takes the next position of the sequence (R264). -/
def Well.position (w : Well) (e : List WellEvent) : Well := { w with q := w.q + 1, seq := w.seq ++ e }

/-- R263: the home classifies a term whose notices are all in. -/
def Well.classify (w : Well) (t : Term) (k : Nat) : Well × Bool :=
  let g := tagGen t.tag
  let c := tagCon t.tag
  let x := w.gen g
  let drop (w : Well) : Well × Bool := (w.position [.drop k], false)
  match w.classOf g with
  | .open_ =>
    if x.tc < 256 then
      ((w.setGen g { x with tc := x.tc + 1, landed := setBit x.landed c
                            log := x.log ++ [(c, t.psat, t.pinv)] }).position [.land k (g % 4)], true)
    else drop { w with nFull := Nat.min 65535 (w.nFull + 1) }
  | .retired => drop { w with nLate := Nat.min 65535 (w.nLate + 1), ldm := setBit w.ldm c }
  | .ahead => drop { w with nEarly := Nat.min 65535 (w.nEarly + 1) }

/-! ### Reading (R130, R266-R269) -/

/-- R267: a post of the reading core to the well is not yet acknowledged. -/
def State.postsOut (s : State) (r : WellRead) : Bool :=
  s.terms.any fun t => t.src == .core r.core && t.at_ r.home r.idx

/-- Something is on its way back from the home. -/
def ReadPhase.answered : ReadPhase → Bool
  | .refused _ => true
  | .retired => true
  | .placed _ _ _ _ _ => true
  | _ => false

/-- It has its position. -/
def ReadPhase.isPlaced : ReadPhase → Bool
  | .placed _ _ _ _ _ => true
  | _ => false

/-- R266: the condition of a read. -/
def WellRead.met (r : WellRead) (x : GenSlot) : Bool :=
  r.delta || (List.range 32).all fun c =>
    bits r.req c 1 == 0 || bits x.absent c 1 == 1 || bits x.landed c 1 == 1

/-- The contributors, PSAT and PINV of log entries. -/
def logSum (es : List (Nat × Bool × Bool)) : Nat × Bool × Bool :=
  (es.foldl (fun m e => setBit m e.1) 0, es.any (·.2.1), es.any (·.2.2))

/-- A read takes its position (R130, R266, R269): which checkpoint it writes or subtracts; or RAO for a
BASE that is not held. -/
def Well.place (w : Well) (r : WellRead) : Well × ReadPhase :=
  let x := w.gen r.gen
  let slot := r.gen % 4
  if r.delta then
    let base : Option (Option Bool) :=
      if r.base = 0 then some none
      else if x.tc < r.base then none
      else if r.base = x.cp0 then some (some false)
      else if r.base = x.cp1 then some (some true)
      else none
    match base with
    | none => (w, .refused (BitVec.ofNat 64 r.base))
    | some b =>
      let l := logSum (x.log.drop r.base)
      (w.position [.read r.core slot b none], .placed x.tc l.1 l.2.1 l.2.2 false)
  else
    let l := logSum x.log
    let dl := !r.met x
    if x.tc = 0 || x.tc = x.cp0 || x.tc = x.cp1 then
      (w.position [.read r.core slot none none], .placed x.tc l.1 l.2.1 l.2.2 dl)
    else
      let y := if x.older then { x with cp1 := x.tc, older := false } else { x with cp0 := x.tc, older := true }
      ((w.setGen r.gen y).position [.read r.core slot none (some x.older)],
        .placed x.tc l.1 l.2.1 l.2.2 dl)

/-- Replace the read of a core. -/
def State.putRead (s : State) (r : WellRead) : State :=
  { s with reads := s.reads.map fun x => if x.core = r.core then r else x }

/-- R266: a read takes its position where it can. -/
def State.tryRead (s : State) (r : WellRead) : State :=
  match (s.wellSlot r.home r.idx).well with
  | none => s
  | some w =>
    if !s.postsOut r && (r.met (w.gen r.gen) || r.expired) then
      let p := w.place r
      (s.modWell r.home r.idx fun _ => p.1).putRead { r with phase := p.2, at_ := w.seqBase + w.seq.length }
    else s

/-- R266 step 7: a waiting read whose generation has retired returns RET; it takes the position of the
RADV that retired it, and none of its own. -/
def State.recheckRead (s : State) (r : WellRead) : State :=
  if ((s.wellSlot r.home r.idx).well.map fun w => w.classOf r.gen == .retired).getD false then
    s.putRead { r with phase := .retired }
  else s.tryRead r

/-- R266: the waiting reads are checked again after every event. -/
def State.recheck (s : State) (home idx : Nat) : State :=
  (s.reads.filter fun r => r.home == home && r.idx == idx && r.phase == .waiting).foldl State.recheckRead s

/-- WELL_TERM_CLASSIFY: ticket or discard, a position, and the acknowledgement. -/
def execWellTermClassify (k : Nat) (s : State) : Out :=
  match s.terms[k]? with
  | none => .next s
  | some t =>
    match t.phase, (s.wellSlot t.home t.idx).well with
    | .staging c, some w =>
      if t.staged.length < w.d then .next s
      else
        let r := w.classify t c
        let u := { s with terms := s.terms.eraseIdx k }
        let u := (u.modWell t.home t.idx fun _ => r.1).ackTerm t r.2
        .next (u.recheck t.home t.idx)
    | _, _ => .next s

/-- R266 steps 3 to 5 at the home. -/
def State.readArrives (s : State) (r : WellRead) : State :=
  match (s.wellAt r.home r.idx r.inc).filter (·.ctx == r.ctx) with
  | none => s.putRead { r with phase := .refused r.handle }
  | some w =>
    if !r.delta && r.req / 2 ^ w.n ≠ 0 then
      s.putRead { r with phase := .refused (BitVec.ofNat 64 r.req) }
    else if w.classOf r.gen = .ahead then s.putRead { r with phase := .refused (BitVec.ofNat 64 r.gen) }
    else if w.classOf r.gen = .retired then
      (s.modWell r.home r.idx (·.position [])).putRead { r with phase := .retired }
    else
      let q := { r with phase := .waiting }
      let u := (s.putRead q).tryRead q
      if (u.reads.find? (·.core == r.core)).map (·.phase) = some .waiting
          && decide (16 < (u.reads.filter fun x => x.home == r.home && x.idx == r.idx
              && x.phase == .waiting).length) then
        s.putRead { r with phase := .returned }
      else u

def State.readOf (s : State) (n : Nat) : Option WellRead := s.reads.find? (·.core == n)

/-- WELL_READ_REQUEST: core n's request reaches the home. -/
def execWellReadRequest (n : Nat) (s : State) : Out :=
  match s.readOf n with
  | some r => if r.phase = .sent then s.onRoute (s.askRoute r.core r.home) (.next (s.readArrives r)) else .next s
  | none => .next s
/-- WELL_READ_RETRY: a returned request is sent again. -/
def execWellReadRetry (n : Nat) (s : State) : Out :=
  match s.readOf n with
  | some r => if r.phase = .returned then s.onRoute (s.askRoute r.core r.home) (.next (s.readArrives r)) else .next s
  | none => .next s

/-- WELL_READ_DEADLINE: DL has expired; its notice gives the read a position. -/
def execWellReadDeadline (n : Nat) (s : State) : Out :=
  match s.readOf n with
  | some r =>
    if r.dl = 0xFFFF_FFFF || r.delta then .next s
    else
      let q := { r with expired := true }
      let u := s.putRead q
      .next (match q.phase with
        | .waiting => u.tryRead q
        | .returned => u.readArrives q
        | _ => u)
  | none => .next s

/-- RREAD and RDELTA: the checks at the core and the request on its way (R266 steps 1 and 2). -/
def State.askRead (st : State) (delta : Bool) (d : XReg) (h a : Word) (f : Bool) : Out :=
  match st.wellOf st.core.ctx h with
  | none => st.trap .rao h
  | some w =>
    match st.spaceOf a.toNat with
    | .loc _ =>
      if a.toNat % 32 ≠ 0 then st.trap .addr a
      else st.access {} a 32 fun segs =>
        let bs := st.loadSegs segs
        let fld (o n : Nat) : Nat := ofBytes ((bs.drop o).take n)
        let size := if f then 2 else 4
        if fld 14 2 ≠ 0 then st.trap .rao (BitVec.ofNat 64 (fld 14 2))
        else if delta && fld 8 4 != 0 then st.trap .rao (BitVec.ofNat 64 (fld 8 4))
        else
          st.access { kind := .store, allow := .mem012, align := size } (BitVec.ofNat 64 (fld 0 8))
            (64 * w.d * size) fun _ =>
            st.access { kind := .store, align := 8 } (a + 24) 8 fun _ =>
              let r : WellRead := {
                core := st.core.num, ctx := st.core.ctx, home := hHome h, idx := hIdx h, inc := hInc h
                delta := delta, bf16 := f, rd := d, handle := h, dst := BitVec.ofNat 64 (fld 0 8)
                desc := a, req := fld 8 4, gen := fld 12 2, dl := fld 16 4, base := fld 20 4
                expired := !delta && fld 16 4 == 0, d := w.d, e := w.e }
              let u := { st.stall with reads := st.reads ++ [r] }
              .next { u with core := { u.core with progress := .asked 0 none } }
    | _ => st.trap .addr a

def State.readWell (st : State) (delta : Bool) (d : XReg) (s t : XSrc) (f : Bool) : Out :=
  match st.core.progress with
  | .asked _ _ => .next st.stall
  | _ => st.guard (d.val :: (s.regs ++ t.regs)) (s.cells ++ t.cells)
      (st.askRead delta d (st.src s) (st.src t) f)

def execRread (d : XReg) (s t : XSrc) (f : Bool) (st : State) : Out := st.readWell false d s t f
def execRdelta (d : XReg) (s t : XSrc) (f : Bool) (st : State) : Out := st.readWell true d s t f

/-- R35: an element of a read: its code, with SAT and OVF, FOVF, INX as STATUS bits. -/
def readElement (bf16 : Bool) (e v : Int) : Nat × Nat :=
  let c := clampI (-(2 ^ 47)) (2 ^ 47 - 1) v
  let r := (if bf16 then fmtBf16 else fmtF32).ofFV .rne (FV.ofInt c e false)
  (r.code, (if v != c then 3 else 0) + (if r.past then 4 else 0) + (if r.inexact then 8 else 0))

/-- The elements of a read in order, once every segment is there. -/
def WellRead.elements (r : WellRead) (d : Nat) : Option (List (Option Int)) :=
  (List.range d).foldl (fun o seg => match o, r.got.find? (·.1 == seg) with
    | some l, some g => some (l ++ g.2)
    | _, _ => none) (some [])

/-- STATUS of a read (R130). -/
def readStatus (fl : Nat) (psat pinv dl : Bool) : Nat :=
  fl + 16 * psat.toNat + 32 * pinv.toNat + 64 * dl.toNat

/-- The instruction of a read is done: STATUS, and last of all X[rd] (R268). -/
def State.endRead (s : State) (r : WellRead) (status : Nat) (v : Word) : State :=
  match s.check { kind := .store, align := 8 } (r.desc + 24) 8 with
  | .ok segs => ((s.push (r.desc + 24) segs (bytesOf 8 status)).setX r.rd v).retire.afterInstr
  | .trap c tv => s.takeTrap c tv
  | _ => s

/-- A run of a store cut at the store's 16-byte parts; `off` is where the run begins in the store. -/
def cutRun : Nat → Nat → Home × Nat → List (Home × Nat)
  | 0, _, _ => []
  | fuel + 1, off, (h, n) =>
    if n = 0 then []
    else
      let k := Nat.min n (16 - off % 16)
      (h, k) :: cutRun fuel (off + k) (h.plus k, n - k)

/-- The 16-byte parts of a store, in ascending order (R268). -/
def cutRuns : Nat → List (Home × Nat) → List (Home × Nat)
  | _, [] => []
  | off, g :: t => cutRun (g.2 + 1) off g ++ cutRuns (off + g.2) t

/-- R268, R275: write the elements in 16-byte parts; a poisoned one raises POISON after the segments before
it. -/
def State.writeRead (s : State) (r : WellRead) (els : List (Option Int)) (e : Int) (t mask : Nat)
    (psat pinv dl : Bool) (segs : List (Home × Nat)) : State :=
  let size := if r.bf16 then 2 else 4
  let out := els.map fun x => readElement r.bf16 e (x.getD 0)
  let bytes (n : Nat) : List Byte := ((out.take n).map fun x => bytesOf size x.1).flatten
  match els.findIdx? (·.isNone) with
  | some i =>
    let n := i / 64 * 64
    match s.check { kind := .store } r.dst (n * size) with
    | .ok g => (s.push r.dst (cutRuns 0 g) (bytes n)).takeTrap .poison (r.dst + BitVec.ofNat 64 (i * size))
    | _ => s.takeTrap .poison (r.dst + BitVec.ofNat 64 (i * size))
  | none =>
    (s.push r.dst (cutRuns 0 segs) (bytes els.length)).endRead r
      (readStatus (out.foldl (fun f x => Nat.lor f x.2) 0) psat pinv dl)
      (BitVec.ofNat 64 (t * 2 ^ 32 + mask))

/-- The read of the current core comes to its end, where it can. -/
def State.finishRead (s : State) (r : WellRead) : State :=
  let u := { s with reads := s.reads.filter (·.core != r.core) }
  match r.phase with
  | .refused v => u.takeTrap .rao v
  | .retired => u.endRead r 128 0
  | .placed t mask psat pinv dl =>
    match r.elements r.d with
    | none => s
    | some els =>
      match s.check { kind := .store, allow := .mem012 } r.dst (els.length * (if r.bf16 then 2 else 4)) with
      | .ok segs => u.writeRead r els r.e t mask psat pinv dl segs
      | .trap c tv => u.takeTrap c tv
      | .lock e tv => ({ u with core := { u.core with rhit := some e } }).takeTrap .rlock tv
      | .miss vpn va => s.askWalk .store vpn va
  | _ => s

/-- WELL_READ_RESULT: the reader of core n writes what came back. -/
def execWellReadResult (n : Nat) (s : State) : Out :=
  match s.readOf n with
  | some r => s.onRoute (s.backRoute r.home n) (.next (s.onCore n fun s => s.finishRead r))
  | none => .next s

/-! ### What a bank does (R264, R265) -/

/-- Add two columns. -/
def addCols (a b : List Int) : List Int :=
  (List.range 64).map fun i => a.getD i 0 + b.getD i 0
def subCols (a b : List Int) : List Int :=
  (List.range 64).map fun i => a.getD i 0 - b.getD i 0

/-- The checkpoint column of a slot. -/
def cpCol (slot : Nat) (b : Bool) : Nat := 4 + 2 * slot + b.toNat

/-- A bank carries out one event on its segment. What a read finds goes to the read that took this place
in the sequence: one that has been dropped takes nothing (R265, R275). -/
def State.bankDoes (s : State) (home idx seg : Nat) (b : Bank) (e : WellEvent) : State :=
  let put (s : State) (f : Bank → Bank) : State := s.modWell home idx fun w => w.modBank seg f
  match e with
  | .land k slot =>
    (put s fun b => b.setCol slot (addCols (b.col slot) (b.col (12 + k)))).spreadCol home idx seg (12 + k) slot
  | .drop _ => s
  | .advance slot =>
    let u := put s fun b => ((b.setCol slot []).setCol (cpCol slot false) []).setCol (cpCol slot true) []
    ((u.cleanCol home idx seg slot).cleanCol home idx seg (cpCol slot false)).cleanCol home idx seg
      (cpCol slot true)
  | .free => put s fun b => { b with cols := [] }
  | .read core slot base cp =>
    let v := match base with
      | some c => subCols (b.col slot) (b.col (cpCol slot c))
      | none => addCols (b.col slot) []
    let bad := s.badCells home idx seg slot ++ (match base with
      | some c => s.badCells home idx seg (cpCol slot c)
      | none => [])
    let res : List (Option Int) := (List.range 64).map fun i =>
      if bad.contains i then none else some (v.getD i 0)
    let u := { s with reads := s.reads.map fun r =>
      if r.core = core && r.home = home && r.idx = idx && r.at_ = b.applied && r.phase.isPlaced then
        { r with got := (seg, res) :: r.got } else r }
    match cp with
    | some c =>
      ((put u fun b => b.setCol (cpCol slot c) (b.col slot)).cleanCol home idx seg (cpCol slot c)).spreadCol
        home idx seg slot (cpCol slot c)
    | none => u

/-- R131: an RFREE is done once its well is gone; the core that waits for it goes on. -/
def State.answerFree (s : State) (w : Well) : State :=
  match w.freed with
  | some n =>
    if numCores ≤ n then s
    else s.modCore n fun c => { c with progress := match c.progress with
      | .asked 0 none => .asked 0 (some [])
      | p => p }
  | none => s

/-- R264: an event that every bank has carried out leaves the sequence: a staging column is free again,
or the well's slot begins its rest (R258, R272). -/
def State.trimWell (s : State) (home idx : Nat) : State :=
  let slot := s.wellSlot home idx
  match slot.well with
  | none => s
  | some w =>
    match w.seq with
    | [] => s
    | e :: t =>
      if w.banks.all fun b => decide (w.seqBase < b.applied) then
        let u := s.modWell home idx fun w => { w with seq := t, seqBase := w.seqBase + 1 }
        match e with
        | .land k _ => (u.modWell home idx fun w => { w with held := w.held.erase k }).grantTerm home idx
        | .drop k => (u.modWell home idx fun w => { w with held := w.held.erase k }).grantTerm home idx
        | .free =>
          let v := u.putWellSlot { slot with well := none, resting := true }
          v.answerFree w
        | _ => u
      else s

/-- WELL_BANK_EVENT: the bank of a segment carries out the next event of its well. -/
def execWellBankEvent (home idx seg : Nat) (s : State) : Out :=
  match (s.wellSlot home idx).well with
  | none => .next s
  | some w =>
    match w.banks[seg]? with
    | none => .next s
    | some b =>
      match w.seq[b.applied - w.seqBase]? with
      | none => .next s
      | some e =>
        let u := s.bankDoes home idx seg b e
        let u := u.modWell home idx fun w => w.modBank seg fun b => { b with applied := b.applied + 1 }
        .next (u.trimWell home idx)

/-! ### Absence, advance, release and state (R131, R132, R270-R272) -/

/-- The checks of a well instruction, and then what it does with its well. -/
def State.onWell (st : State) (h : Word) (k : Well → Out) : Out :=
  match st.wellOf st.core.ctx h with
  | none => st.trap .rao h
  | some w => k w

/-- R131: a tag that RABSENT rejects. -/
def Well.badAbsent (w : Well) (tag : Word) : Bool :=
  bits tag.toNat 21 43 != 0 || decide (w.n ≤ tagCon tag) || w.classOf (tagGen tag) == .ahead

/-- R270: RABSENT takes a position; an open generation's bit is set, and waiting reads are checked. -/
def State.absent (s : State) (h tag : Word) : State :=
  let g := tagGen tag
  let u := s.modWell (hHome h) (hIdx h) fun w =>
    let w := w.position []
    if w.classOf g = .open_ then
      w.setGen g { w.gen g with absent := setBit (w.gen g).absent (tagCon tag) }
    else w
  u.recheck (hHome h) (hIdx h)

def execRabsent (s t : XSrc) (st : State) : Out :=
  st.guard (s.regs ++ t.regs) (s.cells ++ t.cells)
    (let h := st.src s
     let tag := st.src t
     st.onWell h fun w =>
       if w.badAbsent tag then st.trap .rao tag else .next (st.absent h tag).retire)

/-- R271: the advance; reads of a generation that it retires return RET. -/
def State.advanceWell (s : State) (h : Word) : State :=
  let u := s.modWell (hHome h) (hIdx h) fun w =>
    let c := (w.cur + 1) % 65536
    let w := w.position [.advance (c % 4)]
    ({ w with cur := c, adv := Nat.min (2 ^ 32 - 1) (w.adv + 1), lastAdv := some s.tick }).setGen c {}
  u.recheck (hHome h) (hIdx h)

def execRadv (d : XReg) (s : XSrc) (st : State) : Out :=
  st.guard (d.val :: s.regs) s.cells
    (let h := st.src s
     st.onWell h fun w =>
       if (w.lastAdv.map fun t => decide (st.tick < t + 2)).getD false then .next st.stall
       else .next ((st.advanceWell h).setX d (BitVec.ofNat 64 ((w.cur + 1) % 65536))).retireMark)

/-- R272: waiting reads return RET, and reservations held or waiting are discarded; a reply that is
already on its way stands. A request that was returned for a full WAIT is no waiting read: sent again, it
finds no well (R127). -/
def State.clearWell (s : State) (home idx : Nat) : State :=
  let gone := s.terms.filter (·.at_ home idx)
  let u := { s with
    terms := s.terms.filter fun t => !t.at_ home idx
    reads := s.reads.map fun r =>
      if r.home = home && r.idx = idx && r.phase = .waiting then { r with phase := .retired } else r }
  gone.foldl (fun s t => match t.phase with
    | .staging _ => s.ackTerm t false
    | .queued => s.replyTerm t .discarded
    | .granted _ => s.replyTerm t .discarded
    | _ => { s with terms := s.terms ++ [t] }) u

/-- R272: RFREE takes its position. -/
def State.freeWell (s : State) (home idx by_ : Nat) : State :=
  (s.modWell home idx fun w => { w.position [.free] with freed := some by_ }).clearWell home idx

def execRfree (s : XSrc) (st : State) : Out :=
  match st.core.progress with
  | .asked _ (some _) => .next st.retireMark
  | .asked _ none => .next st.stall
  | _ => st.guard s.regs s.cells
      (let h := st.src s
       st.onWell h fun _ =>
         let u := st.freeWell (hHome h) (hIdx h) st.core.num
         .next ({ u with core := { u.core with progress := .asked 0 none } }).stall)

/-- RSTAT: the checks, and its value (R132). -/
def State.rstat (st : State) (d : XReg) (s : XSrc) (t : List XSrc) (f : Well → Nat) : Out :=
  st.guard (d.val :: (s.regs ++ (t.map XSrc.regs).flatten)) (s.cells ++ (t.map XSrc.cells).flatten)
    (st.onWell (st.src s) fun w => .next (st.setX d (BitVec.ofNat 64 (f w))).retire)

/-- A field of an open generation; 0 of another. -/
def Well.ofOpen (w : Well) (g : Nat) (f : GenSlot → Nat) : Nat :=
  if w.classOf g = .open_ then f (w.gen g) else 0

def Well.counts (w : Well) : Nat := w.nLate + w.nEarly * 2 ^ 16 + w.nFull * 2 ^ 32

def execRstatGen (d : XReg) (s : XSrc) (st : State) : Out :=
  st.rstat d s [] fun w => w.cur + w.late * 2 ^ 16 + (w.n - 1) * 2 ^ 18 + w.p * 2 ^ 23
    + ofS 8 w.e * 2 ^ 27 + w.d * 2 ^ 35
def execRstatLanded (d : XReg) (s t : XSrc) (st : State) : Out :=
  st.rstat d s [t] fun w => w.ofOpen (tagGen (st.src t)) (·.landed)
def execRstatAbsent (d : XReg) (s t : XSrc) (st : State) : Out :=
  st.rstat d s [t] fun w => w.ofOpen (tagGen (st.src t)) (·.absent)
def execRstatLate (d : XReg) (s : XSrc) (st : State) : Out := st.rstat d s [] (·.ldm)
def execRstatCounts (d : XReg) (s : XSrc) (st : State) : Out := st.rstat d s [] Well.counts
def execRstatFlags (d : XReg) (s t : XSrc) (st : State) : Out :=
  st.rstat d s [t] fun w => w.ofOpen (tagGen (st.src t)) fun x =>
    (x.log.any (·.2.1)).toNat + 2 * (x.log.any (·.2.2)).toNat + x.tc * 2 ^ 16
def execRstatClear (d : XReg) (s : XSrc) (st : State) : Out :=
  st.guard (d.val :: s.regs) s.cells
    (let h := st.src s
     st.onWell h fun w =>
       let u := st.modWell (hHome h) (hIdx h) fun w => { w with nLate := 0, nEarly := 0, nFull := 0, ldm := 0 }
       .next (u.setX d (BitVec.ofNat 64 w.counts)).retire)

/-! ### When things go wrong (R258, R275) -/

/-- WELL_TERM_AGE_DISCARD: a term with a lost segment is dropped whole; its staging slot is free. -/
def execWellTermAgeDiscard (k : Nat) (s : State) : Out :=
  match s.terms[k]? with
  | none => .next s
  | some t =>
    match t.phase with
    | .staging c =>
      if t.lost.isEmpty then .next s
      else
        let u := ({ s with terms := s.terms.eraseIdx k }).ackTerm t false
        let u := u.modWell t.home t.idx fun w => { w with held := w.held.erase c }
        let u := u.postError { code := 0x0C, ctx := some t.ctx
                               detail := (t.home + t.idx * 2 ^ 16 + t.inc * 2 ^ 24) + 2 ^ 64 * t.tag.toNat }
        .next ((u.grantTerm t.home t.idx).recheck t.home t.idx)
    | _ => .next s

/-- WELL_SLOT_QUARANTINE_END: 80,000 cycles after its RFREE a slot can be allocated again. -/
def execWellSlotQuarantineEnd (home idx : Nat) (s : State) : Out :=
  .next (s.putWellSlot { s.wellSlot home idx with resting := false })

/-- A read whose well is destroyed before every bank has served it returns RET. -/
def WellRead.destroyed (r : WellRead) : WellRead :=
  if r.phase.isPlaced && (r.elements r.d).isNone then { r with phase := .retired } else r

/-- R275: the wells whose home layer retires are destroyed. An RFREE that has taken its position there is done. -/
def State.destroyWells (s : State) (l : Nat) : State :=
  (s.wells.filter fun w => layerOfRouter w.home == l && w.well.isSome).foldl (fun s w =>
    let u := (s.clearWell w.home w.idx).putWellSlot { w with well := none, resting := true }
    let u := (w.well.map u.answerFree).getD u
    { u with reads := u.reads.map fun r => if r.home = w.home && r.idx = w.idx then r.destroyed else r }) s

/-- Terms are dropped where they stand (R341): what they held of their wells is free. -/
def State.dropTerms (s : State) (p : Term → Bool) : State :=
  (s.terms.filter p).foldl (fun s t => match t.phase with
    | .staging c => (s.modWell t.home t.idx fun w => { w with held := w.held.erase c }).grantTerm t.home t.idx
    | .granted c => (s.modWell t.home t.idx fun w => { w with held := w.held.erase c }).grantTerm t.home t.idx
    | _ => s) { s with terms := s.terms.filter fun t => !p t }

end Sys2Proof.Machine
end

