-- ==== Sys2Proof/Machine/Launch.lean ====
section
/-! DEFINITION. Contexts, host queues, launches and their phases (R283-R298). -/

namespace Sys2Proof.Machine

/-! ### Starting a context (R283, R284) -/

/-- Set the STATE of a context. -/
def State.setCtxState (s : State) (c n : Nat) : State := { s with mmio := s.mmio.writeN (ctxBase c) 8 n }

/-- R283: where a context's save area begins in slice 1 of every router's vault, and its length. -/
def State.saveAt (s : State) (c : Nat) : Nat := s.reg (ctxBase c + 0x10) 8 % 2 ^ 20
def State.saveLen (s : State) (c : Nat) : Nat :=
  8192 * (s.reg (ctxBase c + 0x20) 8 % 128) + 1152 * (s.reg (ctxBase c + 0x28) 8 % 2048)

/-- R283, R284: the area lies below the well area of slice 1 of every router of a layer that is not
retired, and apart from the area of every context that is not FREE. -/
def State.areaOk (s : State) (c : Nat) : Bool :=
  let a := s.saveAt c
  let n := s.saveLen c
  ((List.range numRouters).all fun r => (s.layer (layerOfRouter r)).state == .retired
      || decide (a + n ≤ s.wellArea (2 * r + 1)))
    && (List.range 256).all fun k => k == c || s.ctxState k == 0
      || (firstCommon a n (s.saveAt k) (s.saveLen k)).isNone

/-- CONTEXT_START: a FREE context whose area passes is RUNNING. -/
def execContextStart (c : Nat) (s : State) : Out :=
  .next (if decide (c < 256) && s.ctxState c == 0 && s.areaOk c then s.setCtxState c 1 else s)

/-! ### Reading a launch image (R290-R292) -/

/-- A field of a block of bytes. -/
def fieldOf (bs : List Byte) (o n : Nat) : Nat := ofBytes ((bs.drop o).take n)
def zeroBytes (bs : List Byte) (o n : Nat) : Bool := ((bs.drop o).take n).all (· == 0)

/-- R291: a task header; none rejects the image. -/
def taskHdr (bs : List Byte) : Option TaskHdr :=
  let cfg := fieldOf bs 16 8
  let fl := fieldOf bs 24 8
  let ws := (List.range 6).map fun j => bits fl (7 * j) 7
  if fieldOf bs 0 8 % 4 ≠ 0 || fieldOf bs 8 8 % 4 ≠ 0 || decide (64 < ws.sum) || bits fl 42 22 ≠ 0
      || bits cfg 0 6 = 63 || decide (256 < bits cfg 8 9) || bits cfg 44 20 ≠ 0 || bits cfg 35 1 ≠ 0
      || bits cfg 30 2 ≠ 0 || bits cfg 17 7 ≠ 0 || bits cfg 6 2 ≠ 0 || !zeroBytes bs 32 32 then none
  else some {
    code := BitVec.ofNat 64 (fieldOf bs 0 8), handler := BitVec.ofNat 64 (fieldOf bs 8 8)
    comp := bits cfg 24 6, localSize := 64 * bits cfg 8 9, regs := bits cfg 0 6, pri := bits cfg 32 3
    uc0 := bits cfg 36 4, uc1 := bits cfg 40 4, widths := ws }

/-- The width of a header's whole WID (R292). -/
def TaskHdr.width (h : TaskHdr) : Nat := h.widths.sum

/-- R292: a node; none rejects the image. -/
def nodeOf (hdrs : List TaskHdr) (nnode : Nat) (bs : List Byte) : Option Node :=
  let place := fieldOf bs 2 1
  let nx := (List.range 4).map fun i => fieldOf bs (48 + 2 * i) 2
  let count := fieldOf bs 8 8
  match hdrs[fieldOf bs 0 2]? with
  | none => none
  | some h =>
    if nx.any (fun n => decide (nnode ≤ n) && n != 0xFFFF) || decide (2 ^ 32 < count)
        || decide (2 ^ h.width < count) || (count == 0 && decide (32 < h.width))
        || !zeroBytes bs 4 4 || bits place 3 4 ≠ 0 || bits place 0 3 = 7 || decide (3 < fieldOf bs 3 1)
        || (bits place 7 1 == 1) != (fieldOf bs 24 8 != 0) then none
    else some {
      task := fieldOf bs 0 2, expl := bits place 7 1 == 1, plv := bits place 0 3, sel := fieldOf bs 3 1
      count := if count = 0 then 2 ^ h.width else count
      rtab := fieldOf bs 16 8, xtab := fieldOf bs 24 8, thresh := fieldOf bs 32 8
      cmask := if fieldOf bs 40 8 = 0 then 2 ^ 64 - 1 else fieldOf bs 40 8
      next := nx, etab := fieldOf bs 56 8 }

/-- All of a list of options. -/
def allSome {α : Type} : List (Option α) → Option (List α)
  | [] => some []
  | none :: _ => none
  | some a :: t => (allSome t).map (a :: ·)

/-- Blocks of n bytes. -/
def blocksOf (n k : Nat) (bs : List Byte) : List (List Byte) :=
  (List.range k).map fun i => (bs.drop (n * i)).take n

/-- R290: the partitions are disjoint, not empty, and name no router of a retired layer. -/
def State.partsOk (s : State) (ps : List Nat) : Bool :=
  ps.all (fun p => p != 0 && (List.range numRouters).all fun r =>
      bits p r 1 == 0 || (s.layer (layerOfRouter r)).state != .retired)
    && (List.range numRouters).all fun r => decide ((ps.filter fun p => bits p r 1 == 1).length ≤ 1)

/-- R290: the header's own fields. -/
def headerOk (h : List Byte) : Bool :=
  decide (1 ≤ fieldOf h 0 2) && decide (fieldOf h 0 2 ≤ 256) && decide (1 ≤ fieldOf h 2 2)
    && decide (fieldOf h 2 2 ≤ 1024) && decide (fieldOf h 4 2 < fieldOf h 2 2)
    && decide (1 ≤ fieldOf h 8 1) && decide (fieldOf h 8 1 ≤ 8) && decide (1 ≤ fieldOf h 9 1)
    && decide (fieldOf h 9 1 ≤ 4) && zeroBytes h 10 6 && zeroBytes h 48 16 && zeroBytes h 200 56
    && fieldOf h 16 8 % 64 == 0 && fieldOf h 24 8 % 64 == 0

/-- The ranges of an image: the header, the task table, the graph, the partitions and the schedules. -/
def imageRanges (img : Nat) (h : List Byte) : List (Nat × Nat) :=
  [(img, 256), (fieldOf h 16 8, 64 * fieldOf h 0 2), (fieldOf h 24 8, 64 * fieldOf h 2 2),
   (fieldOf h 32 8, 48 * fieldOf h 8 1), (fieldOf h 40 8, 8 * fieldOf h 9 1)]

/-- The launch that an image describes, with its header; none rejects it. -/
def State.imageLaunch (s : State) (h tt gt pt st : List Byte) : Option Launch :=
      (allSome ((blocksOf 64 (fieldOf h 0 2) tt).map taskHdr)).bind fun hdrs =>
      (allSome ((blocksOf 64 (fieldOf h 2 2) gt).map (nodeOf hdrs (fieldOf h 2 2)))).bind fun nodes =>
        let parts := (blocksOf 48 (fieldOf h 8 1) pt).map ofBytes
        let scheds := (blocksOf 8 (fieldOf h 9 1) st).map fun b => b.map (·.toNat)
        let np := fieldOf h 8 1
        if s.partsOk parts && scheds.all (fun w => (w.take np).all (· != 0) && (w.drop np).all (· == 0)) then
          some {
            hdrs := hdrs, nodes := nodes, parts := parts, scheds := scheds.map (·.take np)
            maxph := fieldOf h 6 2, state := .due (fieldOf h 4 2)
            grants := {
              barl := fieldOf h 64 8, barp := fieldOf h 72 8, jnl := fieldOf h 80 8
              jnp := fieldOf h 88 8, trg := fieldOf h 96 8, qp := fieldOf h 104 32
              cg := fieldOf h 136 32, gg := fieldOf h 168 32 } }
        else none

/-- The bytes of several ranges of a context's space 0, or what stands in the way of the first that
cannot be read. -/
def State.devReadAll (s : State) (ctx : Nat) : List (Nat × Nat) → Except Reach (List (List Byte))
  | [] => .ok []
  | (a, n) :: t => match s.devRead ctx a n with
    | .error r => .error r
    | .ok bs => match s.devReadAll ctx t with
      | .error r => .error r
      | .ok l => .ok (bs :: l)

/-- The launch that the image at an address describes, with its ranges. A page that is not there, or may
not be read now, stands in the way; anything else that fails rejects the image. -/
def State.readImage (s : State) (ctx img : Nat) : Except Reach (Launch × List (Nat × Nat)) :=
  match s.devRead ctx img 256 with
  | .error r => .error r
  | .ok h =>
    if !headerOk h then .error (.denied 0)
    else match s.devReadAll ctx ((imageRanges img h).drop 1) with
      | .error r => .error r
      | .ok bs => match s.imageLaunch h (bs.getD 0 []) (bs.getD 1 []) (bs.getD 2 []) (bs.getD 3 []) with
        | some l => .ok (l, imageRanges img h)
        | none => .error (.denied 0)

/-! ### Host queues (R285-R287) -/

/-- The slot at a queue's head. -/
def State.slotBytes (s : State) (q : HostQueue) : List Byte :=
  s.host.readBytes (q.base + 64 * (q.head % 2 ^ q.size)) 64

/-- R286: what every slot must meet. -/
def slotOk (b : List Byte) : Bool :=
  bits (fieldOf b 1 1) 1 7 == 0 && zeroBytes b 2 6 && fieldOf b 24 8 % 16 == 0
    && fieldOf b 32 8 % 64 == 0 && fieldOf b 40 8 % 16 == 0 && fieldOf b 56 8 / 2 == 0
    && (if fieldOf b 0 1 = 2 then fieldOf b 16 8 == 32 else decide (fieldOf b 16 8 ≤ 4096))

/-- R285: two launches' grants overlap. -/
def Grants.overlap (a b : Grants) : Bool :=
  Nat.land a.barl b.barl != 0 || Nat.land a.barp b.barp != 0 || Nat.land a.jnl b.jnl != 0
    || Nat.land a.jnp b.jnp != 0 || Nat.land a.trg b.trg != 0 || Nat.land a.qp b.qp != 0
    || Nat.land a.cg b.cg != 0 || Nat.land a.gg b.gg != 0

/-- R285: the launch at the head waits for one of its context that holds some of its grants. -/
def State.grantsBusy (s : State) (q : HostQueue) (b : List Byte) : Bool :=
  fieldOf b 0 1 == 1 && slotOk b && (match s.readImage q.ctx (fieldOf b 32 8) with
    | .ok (l, _) => s.slots.any fun k => k.ctx == q.ctx && (match k.kind with
        | .launch m => m.grants.overlap l.grants
        | _ => false)
    | .error _ => false)

/-- A slot's completion signal has not been written yet. -/
def State.signalDue (s : State) (id : Nat) : Bool := s.slots.any (·.id == id) || s.signals.any (·.slot == id)

/-- A fault record of a page of a context's space 0 is not resolved yet. -/
def State.unresolved (s : State) (ctx vpn : Nat) : Bool :=
  s.faults.any fun f => f.2.1 == s.ctxAsid ctx && f.2.2 == vpn

/-- R317: the device met a page that is not resident. It has no region: the fault is recorded, or joins
the page's record, once, and the device tries again (log entry 39). -/
def State.devFault (s : State) (ctx vpn : Nat) (missed : Option Nat) : State :=
  if missed == some vpn && s.unresolved ctx vpn then s else s.fault (s.ctxAsid ctx) vpn ctx 4 none

/-- R285, R363: the sequencer may take this queue's head. -/
def State.startable (s : State) (q : HostQueue) : Bool :=
  let b := s.slotBytes q
  q.head != q.tail && s.ctxState q.ctx == 1 && !s.ctxRevoked q.ctx && !s.frozen.contains (4, q.func) && !s.frozen.contains (3, 20)
    && !((q.missed.map (s.unresolved q.ctx)).getD false)
    && !(bits (fieldOf b 1 1) 0 1 == 1 && (q.prev.map s.signalDue).getD false) && !s.grantsBusy q b

/-- R285: the highest priority, and round robin after the queue of that priority served last. -/
def State.nextQueue (s : State) : Option HostQueue :=
  let key (q : HostQueue) : Nat :=
    64 * (7 - q.pri) + (q.num + 63 - s.lastQueue.toList.getD q.pri 63) % 64
  (s.queues.filter s.startable).foldl (fun b q => match b with
    | none => some q
    | some p => if key q < key p then some q else some p) none

/-- The slot at a queue's head is taken. -/
def State.takeSlot (s : State) (q : HostQueue) (b : List Byte) (kind : SlotKind) (status : Option Nat) :
    State :=
  let k : Slot := { id := s.nextSlot, queue := q.num, ctx := q.ctx, sig := fieldOf b 40 8
                    sigHost := bits (fieldOf b 56 8) 0 1 == 1, sigval := fieldOf b 48 8
                    kind := kind, status := status }
  { s with
    slots := s.slots ++ [k], nextSlot := s.nextSlot + 1
    lastQueue := s.lastQueue.setIfInBounds q.pri q.num
    queues := s.queues.map fun h => if h.num = q.num then
      { h with head := (h.head + 1) % 2 ^ h.size, prev := some s.nextSlot, missed := none } else h }

/-- What stands in the way of the head of a queue: its page is waited for, and anything else rejects it. -/
def State.slotStopped (s : State) (h : HostQueue) (b : List Byte) : Reach → State
  | .absent vpn =>
    let u := s.devFault h.ctx vpn h.missed
    { u with queues := u.queues.map fun q => if q.num = h.num then { q with missed := some vpn } else q }
  | .moving => s
  | .malformed _ vpn =>
    (s.malformedBy (4, h.func) (some h.ctx) (s.ctxAsid h.ctx) vpn).takeSlot h b .rejected (some 1)
  | _ => s.takeSlot h b .rejected (some 1)

/-- R290: barriers and joins granted start at zero. -/
def State.grantUnits (s : State) (ctx : Nat) (g : Grants) : State :=
  let has (unit num l p : Nat) : Bool := bits (if unit = 12 then p else l) num 1 == 1
  { s with
    barriers := s.barriers.filter fun b => !(b.ctx == ctx && has b.unit b.num g.barl g.barp)
    joins := s.joins.filter fun b => !(b.ctx == ctx && has b.unit b.num g.jnl g.jnp) }

/-- LAUNCH_SLOT_START: the next slot is no COPY slot. Its image is checked and its argument buffer is
copied before any of its tasks starts (R289). -/
def execLaunchSlotStart (q : Nat) (s : State) : Out :=
  match s.nextQueue with
  | none => .next s
  | some h =>
    let b := s.slotBytes h
    if h.num ≠ q || fieldOf b 0 1 = 2 then .next s
    else
      let no : Out := .next (s.takeSlot h b .rejected (some 1))
      if fieldOf b 0 1 ≠ 1 || !slotOk b then no
      else match s.readImage h.ctx (fieldOf b 32 8) with
        | .error r => .next (s.slotStopped h b r)
        | .ok (l, rs) =>
          let arg := s.host.readBytes (fieldOf b 8 8) (fieldOf b 16 8)
          let u := rs.foldl (fun (s : State) r => s.devMark h.ctx r.1 r.2 false) s
          match u.devWrite h.ctx (fieldOf b 24 8) arg with
          | .error r => .next (s.slotStopped h b r)
          | .ok u => .next ((u.takeSlot h b (.launch l) none).grantUnits h.ctx l.grants)

/-- COPY_SLOT_START (R287). -/
def execCopySlotStart (q : Nat) (s : State) : Out :=
  match s.nextQueue with
  | none => .next s
  | some h =>
    let b := s.slotBytes h
    if h.num ≠ q || fieldOf b 0 1 ≠ 2 then .next s
    else
      let c := s.host.readBytes (fieldOf b 8 8) 32
      if !slotOk b || fieldOf c 24 8 / 4 ≠ 0 || fieldOf c 16 8 = 0 || decide (2 ^ 32 < fieldOf c 16 8) then
        .next (s.takeSlot h b .rejected (some 1))
      else
        let k : SlotCopy := { dst := fieldOf c 0 8, src := fieldOf c 8 8, len := fieldOf c 16 8
                              srcHost := bits (fieldOf c 24 8) 0 1 == 1
                              dstHost := bits (fieldOf c 24 8) 1 1 == 1 }
        .next (s.takeSlot h b (.copy k) none)

/-! ### Phases (R293-R298) -/

/-- The host function of a queue: the master of its slots' accesses (log entry 93). -/
def State.queueFunc (s : State) (q : Nat) : Nat := ((s.queues.find? (·.num == q)).map (·.func)).getD 0

/-- Change the k-th slot. -/
def State.modSlot (s : State) (k : Nat) (f : Slot → Slot) : State :=
  { s with slots := s.slots.modify k f }
/-- The launch of the k-th slot. -/
def State.launchAt (s : State) (k : Nat) : Option (Slot × Launch) :=
  (s.slots[k]?).bind fun x => match x.kind with
    | .launch l => if x.status.isNone then some (x, l) else none
    | _ => none
def State.putLaunch (s : State) (k : Nat) (l : Launch) : State :=
  s.modSlot k fun x => { x with kind := .launch l }

/-- R299: the sequencer goes on with a context's launches. -/
def State.sequences (s : State) (ctx : Nat) : Bool := s.ctxState ctx == 1 && !s.held.contains ctx

/-- A table of n-byte entries: all zero where the node has none. -/
def State.readTable (s : State) (ctx va n count : Nat) : Except Reach (List Nat) :=
  if va = 0 then .ok []
  else (s.devRead ctx va (n * count)).map fun bs => (blocksOf n count bs).map ofBytes

/-- R296: the raster table; one that is wrong is a failure. -/
def State.readRaster (s : State) (ctx : Nat) (v : Node) : Except Reach (List Nat) :=
  if v.rtab = 0 then .ok []
  else match s.devRead ctx v.rtab 4 with
    | .error r => .error r
    | .ok h =>
      let m := ofBytes h
      if v.count < m then .error (.denied 0)
      else match s.readTable ctx (v.rtab + 4) 4 m with
        | .error r => .error r
        | .ok l =>
          if l.all (fun i => decide (i < v.count)) && l.eraseDups.length == l.length then .ok l
          else .error (.denied 0)

/-- The tables of a node: its raster, placement and edge tables. -/
def State.readTables (s : State) (ctx : Nat) (v : Node) : Except Reach (List Nat × List Nat × List Nat) :=
  match s.readRaster ctx v, s.readTable ctx v.xtab 2 v.count, s.readTable ctx v.etab 2 v.count with
  | .ok r, .ok xt, .ok et => .ok (r, xt, et)
  | .error r, _, _ => .error r
  | _, .error r, _ => .error r
  | _, _, .error r => .error r

/-- The pages of a node's tables have been walked (R309). -/
def State.markTables (s : State) (ctx : Nat) (v : Node) (raster : Nat) : State :=
  let one (s : State) (va n : Nat) : State := if va = 0 then s else s.devMark ctx va n false
  one (one (one s v.rtab (4 + 4 * raster)) v.xtab (2 * v.count)) v.etab (2 * v.count)

/-- R297: a core that no task can be bound to: no such core, or its layer is not AWAKE. -/
def State.noCore (s : State) (c : Nat) : Bool := decide (numCores ≤ c) || (s.layer (layerOf c)).state != .awake

/-- PHASE_START: the phase of the node that is due begins, or its tables fail (R293); a malformed entry of the
translation tables is a violation of the launch's host function too (R375). -/
def execPhaseStart (k : Nat) (s : State) : Out :=
  match s.launchAt k with
  | none => .next s
  | some (x, l) =>
    match l.state with
    | .due n =>
      if !s.sequences x.ctx then .next s
      else match l.nodes[n]? with
        | none => .next (s.putLaunch k { l with state := .leaving 3 })
        | some v =>
          let l := { l with word := 0, phases := l.phases + 1 }
          match s.readTables x.ctx v with
          | .ok (r, xt, et) =>
            let s := s.markTables x.ctx v r.length
            if (et.any fun e => bits e 14 2 != 0 || bits e 6 2 != 0) || xt.any s.noCore then
              .next (s.putLaunch k { l with state := .leaving 3 })
            else
              let np := l.parts.length
              .next (s.putLaunch k { l with
                state := .running
                phase := { node := n, raster := r, xtab := xt, etab := et, count := v.count, start := s.tick
                           credits := List.replicate np 0, last := List.replicate np none
                           lastDone := List.replicate np none } })
          | .error (.absent vpn) =>
            .next ((s.devFault x.ctx vpn x.missed).modSlot k fun x => { x with missed := some vpn })
          | .error .moving => .next s
          | .error (.malformed _ vpn) => .next ((s.malformedBy (4, s.queueFunc x.queue) (some x.ctx) (s.ctxAsid x.ctx) vpn).putLaunch k
              { l with state := .leaving 3 })
          | .error _ => .next (s.putLaunch k { l with state := .leaving 3 })
    | _ => .next s

/-- R296: the index of the task that is placed next. -/
def Phase.nextIndex (p : Phase) : Nat :=
  match p.raster[p.placed]? with
  | some i => i
  | none =>
    if p.raster.isEmpty then p.placed
    else ((List.range p.count).filter fun i => !p.raster.contains i).getD (p.placed - p.raster.length) 0

/-- R297: the routers of a partition that are not skipped. -/
def State.partRouters (s : State) (mask : Nat) : List Nat :=
  (List.range numRouters).filter fun r => bits mask r 1 == 1 && (s.layer (layerOfRouter r)).state == .awake

/-- The next router of a list after one, wrapping. -/
def nextRouter (rs : List Nat) : Option Nat → Nat
  | none => rs.headD 0
  | some r => ((rs.find? (r < ·)).getD (rs.headD 0))

/-- R203, R297: smooth weighted round robin: the winner, and the credits after the grant. Partitions
with weight 0 here take no part. -/
def swrr (ws : List Nat) (cs : List Int) : Option (Nat × List Int) :=
  let added := (cs.zip ws).map fun x => if x.2 = 0 then x.1 else x.1 + (x.2 : Int)
  let best := (List.range ws.length).foldl (fun (b : Option Nat) i =>
    if ws.getD i 0 = 0 then b
    else match b with
      | none => some i
      | some j => if added.getD j 0 < added.getD i 0 then some i else some j) none
  best.map fun i => (i, added.set i (added.getD i 0 - (ws.sum : Nat)))

/-- R297: where the next task goes: its router, the core it is bound to, and the phase after the
choice; none when nothing can take it. -/
def State.placement (s : State) (l : Launch) (v : Node) (h : TaskHdr) (i : Nat) :
    Option (Nat × Option Nat × Phase) :=
  let p := l.phase
  if v.expl then
    let c := p.xtab.getD i numCores
    if s.noCore c then none else some (routerOf c, some c, p)
  else
    let key := i / 2 ^ (h.widths.take v.plv).sum
    match (if v.plv = 0 then none else p.groups.find? (·.1 == key)) with
    | some g => some (g.2, none, p)
    | none =>
      let rs := l.parts.map s.partRouters
      let ws := ((l.scheds.getD l.sched []).zip rs).map fun x => if x.2.isEmpty then 0 else x.1
      (swrr ws p.credits).map fun w =>
        let r := nextRouter (rs.getD w.1 []) (p.last.getD w.1 none)
        (r, none, { p with credits := w.2, last := p.last.set w.1 (some r)
                           groups := if v.plv = 0 then p.groups else (key, r) :: p.groups })

/-- LAUNCH_TASK_ENQUEUE: raise the counter and place one task of the phase (R293, R297). -/
def execLaunchTaskEnqueue (k : Nat) (s : State) : Out :=
  match s.launchAt k with
  | none => .next s
  | some (x, l) =>
    if l.state ≠ .running || decide (l.phase.count ≤ l.phase.placed) || !s.sequences x.ctx then .next s
    else match l.nodes[l.phase.node]? with
      | none => .next s
      | some v =>
        match l.hdrs[v.task]? with
        | none => .next s
        | some h =>
          let i := l.phase.nextIndex
          match s.placement l v h i with
          | none => .next (s.putLaunch k { l with state := .leaving 3 })
          | some (r, c, p) =>
            if s.dispatcherFull r then .next s
            else
              let e := l.phase.etab.getD i 0
              let t : Task := {
                id := s.nextTask, ctx := x.ctx, launch := x.id, phase := l.phases, entry := v.task, hdr := h
                wid := BitVec.ofNat 64 i, pri := h.pri, erow := edge (bits e 0 6), ecol := edge (bits e 8 6)
                dom := r, bound := c }
              let u := s.putLaunch k ({ l with phase := { p with placed := p.placed + 1 } }.count h.comp true)
              .next (({ u with nextTask := u.nextTask + 1 }).enqueue t)

/-- R294: the successor of a node for a phase word. -/
def Node.successor (v : Node) (w : Nat) : Nat :=
  let nx (i : Nat) : Nat := v.next.getD i 0xFFFF
  match v.sel with
  | 0 => nx 0
  | 1 => if w = 0 then nx 0 else nx 1
  | 2 => nx (Nat.min w 3)
  | _ => if w < v.thresh then nx 0 else nx 1

/-- R298: cycles from the phase's start to a partition's last DONE. -/
def Phase.cycles (p : Phase) (d : Option Nat) : Nat :=
  match d with
  | none => 0
  | some t => Nat.min (2 ^ 32 - 1) ((Config.cycle t).toNat - (Config.cycle p.start).toNat)

/-- R298: a schedule's predicted time as a fraction, up to one factor that all schedules share. -/
def predicted (cur ws ts : List Nat) : Nat × Nat :=
  let prod := cur.foldl (· * ·) 1
  (((ts.zip ws).zip cur).foldl (fun m x => Nat.max m (x.1.1 * x.1.2 * (prod / x.2))) 0, ws.sum)

/-- R298: the schedule for the next phase. -/
def Launch.nextSched (l : Launch) : Nat :=
  if l.scheds.length ≤ 1 then l.sched
  else
    let ts := l.phase.lastDone.map l.phase.cycles
    let cur := l.scheds.getD l.sched []
    let time (i : Nat) : Nat × Nat := predicted cur (l.scheds.getD i []) ts
    let less (i j : Nat) : Bool := decide ((time i).1 * (time j).2 < (time j).1 * (time i).2)
    if (List.range l.scheds.length).any fun i => less i l.sched then
      (List.range l.scheds.length).foldl (fun b i => if less i b then i else b) 0
    else l.sched

/-- R347: at a phase end the slot counters of the context's experts are 0. -/
def State.resetExperts (s : State) (ctx : Nat) : State :=
  { s with mmio := s.mmio.filter fun c =>
      !(decide (0x0030_0000 ≤ c.1) && decide (c.1 < 0x0032_0000) && decide (c.1 % 32 / 4 = 5)
        && s.reg (c.1 / 32 * 32 + 15) 1 == ctx) }

/-- R294: the counters that end the phase are all 0. -/
def Launch.ended (l : Launch) (v : Node) : Bool :=
  (List.range 64).all fun i => bits v.cmask i 1 == 0 || l.counters.toList.getD i 0 == 0

/-- PHASE_END: the successor, the schedule and the experts' counters. -/
def execPhaseEnd (k : Nat) (s : State) : Out :=
  match s.launchAt k with
  | none => .next s
  | some (x, l) =>
    match l.nodes[l.phase.node]? with
    | none => .next s
    | some v =>
      if l.state ≠ .running || l.phase.placed < l.phase.count || !s.sequences x.ctx || !l.ended v then .next s
      else
        let n := v.successor l.word.toNat
        let st : LaunchState := if n = 0xFFFF then .leaving 0
          else if l.maxph ≠ 0 && l.phases = l.maxph then .leaving 2 else .due n
        .next ((s.putLaunch k { l with state := st, sched := l.nextSched }).resetExperts x.ctx)

/-! ### Completion (R288) -/

/-- Some task of the launch has not ended, or a join's raised handler start is on its way. -/
def State.launchBusy (s : State) (id : Nat) : Bool :=
  (s.queue ++ s.spawns).any (·.launch == id)
    || s.allCores.any (fun c => (c.task.map (·.launch)) == some id)
    || s.records.any (fun r => (r.image.task.map (·.launch)) == some id)
    || s.flits.any (fun f => f.raised && f.launch == id)
    || s.orphans.contains id

/-- R287: the parts of a COPY slot. -/
def SlotCopy.total (c : SlotCopy) : Nat := (c.len + 15) / 16

/-- The status of a slot that has come to its end. While its context is being freed, a launch or a copy that
has not ended ends with status 4 (R284). -/
def State.slotStatus (s : State) (x : Slot) : Option Nat :=
  match x.status, x.kind with
  | some n, _ => some n
  | none, .launch l => match l.state with
    | .leaving n => if s.launchBusy x.id || s.ctxState x.ctx == 3 then none else some n
    | _ => none
  | none, .copy c => if c.parts.length = c.total && s.ctxState x.ctx != 3 then some 0 else none
  | none, .rejected => some 1

/-- Write a completion signal: the status, then SIGVAL, then the vector (R288, R324). -/
def State.signal (s : State) (g : Signal) : State :=
  let u : State := if g.toHost then
      { s with host := (s.host.writeN (g.addr + 8) 8 g.status).writeN g.addr 8 g.val }
    else match s.devWrite g.ctx (g.addr + 8) (bytesOf 8 g.status) with
      | .ok v => (match v.devWrite g.ctx g.addr (bytesOf 8 g.val) with
        | .ok w => w
        | .error _ => v)
      | .error (.malformed _ vpn) => s.malformedBy (4, g.func) (some g.ctx) (s.ctxAsid g.ctx) vpn
      | .error _ => s
  match g.vector with
  | some v => { u with out := u.out ++ [.msix g.func v] }
  | none => u

/-- What a signal waits for: its frozen function or the frozen link (R363), or its page (R322, R328); a
page that it may not write is no reason to wait. -/
def State.signalWaits (s : State) (g : Signal) : Option Reach :=
  if s.frozen.contains (4, g.func) || (g.toHost && s.frozen.contains (3, 20)) then some .moving
  else if g.toHost then none
  else match s.devReach g.ctx .store g.addr 16 with
    | .absent vpn => some (.absent vpn)
    | .moving => some .moving
    | _ => none

/-- The signals of function f that need not wait are written in order; the first that must holds the
later ones. -/
def State.sendSignals (s : State) (f : Nat) : List Signal → State
  | [] => s
  | g :: t =>
    if g.func ≠ f then ({ s with signals := s.signals ++ [g] }).sendSignals f t
    else match s.signalWaits g with
      | none => (s.signal g).sendSignals f t
      | some (.absent vpn) =>
        let u := s.devFault g.ctx vpn g.missed
        { u with signals := u.signals ++ { g with missed := some vpn } :: t }
      | some _ => { s with signals := s.signals ++ g :: t }
def State.flushSignals (s : State) (f : Nat) : State := ({ s with signals := [] }).sendSignals f s.signals

/-- SLOT_COMPLETION: the k-th slot ends, and its signal is written behind those of its function that
wait. Behind the slots, the number names a signal that waits. -/
def execSlotCompletion (k : Nat) (s : State) : Out :=
  match s.slots[k]? with
  | none => match s.signals[k - s.slots.length]? with
    | some g => .next (s.flushSignals g.func)
    | none => .next s
  | some x =>
    match s.slotStatus x with
    | none => .next s
    | some n =>
      let q := s.queues.find? (·.num == x.queue)
      let g : Signal := { slot := x.id, func := (q.map (·.func)).getD 0, ctx := x.ctx, addr := x.sig
                          toHost := x.sigHost, status := n, val := x.sigval, vector := q.bind (·.vector) }
      let u : State := { s with slots := s.slots.eraseIdx k, signals := s.signals ++ [g] }
      .next (u.flushSignals g.func)

end Sys2Proof.Machine
end

