-- ==== Sys2Proof/Machine/Engine.lean ====
section
/-! DEFINITION. The copy engines (R122, R232, R233, R287, R300, R316, R356, R363). -/

namespace Sys2Proof.Machine

/-! ### Where an engine's access goes -/

/-- An access of core n's engine. -/
def State.reach (s : State) (n asid : Nat) (k : Kind) (a : Word) (len : Nat) : Reach :=
  let sp := s.spaceOf a.toNat
  match s.spaceEnd sp len with
  | some i => .denied i
  | none => match sp with
    | .virt va => s.reachPages (some (routerOf n)) asid k va len
    | .vault off => .ok [(.vault off, len)]
    | .loc off => .ok [(.loc n off, len)]
    | .mirror off => .ok [(.mirror off, len)]
    | .mmio off => .ok [(.mmio off, len)]
    | .global p va => .global p va
    | .bad => .denied 0

/-- R309, R314: an access to a range of space 0 goes through: the walks that it took set A, and D where it
writes, and fill the unit's cache. -/
def State.markPages (s : State) (unit : Option Nat) (asid : Nat) (a : Word) (len : Nat) (d : Bool) : State :=
  match s.spaceOf a.toNat with
  | .virt va => (pageNums va len).foldl (fun s p => s.passed unit d asid p) s
  | _ => s

/-- The bytes at the homes of a part, as an engine of a router of layer l reads them, and which of them
are poisoned. -/
def State.engineRead (s : State) (l : Nat) (segs : List (Home × Nat)) : List Byte × List Nat :=
  let homes := (segs.map fun g => (List.range g.2).map g.1.plus).flatten
  (homes.map (s.homeByte l),
    (List.range homes.length).filter fun i =>
      ((homes[i]?).map (s.poisonedAt l)).getD false)

/-- R251: the chunks of 16 bytes that a store to space 3 touches. -/
def Home.chunks (h : Home) (n : Nat) : Nat :=
  match h with
  | .mirror off => (off % 16 + n + 15) / 16
  | _ => 0

/-- May the stores of a part to space 3 enter the layer's mirror queue (R251)? -/
def State.mirrorRoom (s : State) (l : Nat) (segs : List (Home × Nat)) : Bool :=
  decide (placesOf (s.layer l).mq + (segs.map fun g => g.1.chunks g.2).sum ≤ 128)

/-- An engine of core n writes one run: a store to space 3 enters the mirror queue, one to space 4 is
performed by its register, and memory is written. `bad` are the poisoned bytes. -/
def State.engineStore (s : State) (n : Nat) (h : Home) (bs : List Byte) (bad : List Nat) : State :=
  match h with
  | .mirror off =>
    let ps := (chunkPieces n (bs.length + 1) off bs).map fun m =>
      { m with poisoned := bad.any fun i => decide (m.off ≤ off + i) && decide (off + i < m.off + m.bytes.length) }
    s.modLayer (layerOf n) fun l => { l with mq := l.mq ++ ps }
  | .mmio off =>
    let e : SbEntry := { home := .mmio off, addr := 0, bytes := bs }
    { s with flying := s.flying ++ [{ core := n, entry := e }] }
  | h => (s.storeHome h bs).taint [(h, bs.length)] bad

/-- An engine writes the runs of a part. -/
def State.engineWrite (s : State) (n : Nat) : List (Home × Nat) → List Byte → List Nat → State
  | [], _, _ => s
  | (h, k) :: t, bs, bad =>
    (s.engineStore n h (bs.take k) (bad.filter (· < k))).engineWrite n t (bs.drop k)
      ((bad.filter (k ≤ ·)).map (· - k))

/-! ### A part of a COPY (R122) -/

/-- The address and the length of a part. -/
def partLen (len p : Nat) : Nat := Nat.min 16 (len - 16 * p)
def partAt (a : Word) (p : Nat) : Word := a + BitVec.ofNat 64 (16 * p)

/-- A range-lock entry of a core. -/
def State.lockAt (s : State) (n e : Nat) : Option LockEntry := (s.getCore n).locks.toList.getD e none
def State.modLock (s : State) (n e : Nat) (f : LockEntry → LockEntry) : State :=
  s.modCore n fun c => { c with
    locks := c.locks.setIfInBounds e ((c.locks.toList.getD e none).map f) }

/-- R363, R300: the engine works for core n: it is not frozen, and neither is the core, nor is its
context being stopped; and the task does not wait for a page, nor is it about to (R316). -/
def State.engineRuns (s : State) (n : Nat) : Bool :=
  let c := s.getCore n
  c.task.isSome && c.restartDue.isNone && !c.frozen && !s.held.contains c.ctx && !s.frozen.contains (1, routerOf n)
    && (match c.wait with
      | .translation _ _ => false
      | .remotePage _ => false
      | _ => true)

/-- R232: the core's earlier stores are acknowledged, and its earlier loads have their values. -/
def State.engineOrdered (s : State) (n : Nat) : Bool :=
  (s.focus n).settled .package && (s.getCore n).rorder.isEmpty

/-- The task of a core takes a fault at an instruction boundary (log entry 70). -/
def Core.owe (c : Cause) (tval : Word) (k : Core) : Core :=
  { k with owed := match k.owed with
      | some f => some f
      | none => some { cause := c, tval := tval } }

/-- R316: an access of an engine is denied: the copy ends, and the task takes PROT. -/
def State.engineTrap (s : State) (n e : Nat) (c : Cause) (a : Word) : State :=
  s.modCore n fun k => { k.owe c a with locks := k.locks.setIfInBounds e none }

/-- Has the instruction at PC begun what cannot be asked for again: a counted arrival (R172), a command,
a slot request (R300)? -/
def Core.committed (c : Core) : Bool :=
  match c.progress with
  | .arrived _ => true
  | .command => true
  | .layerTo _ _ _ => true
  | .asked v _ => goesOn (bits c.iw.toNat 25 7) v
  | _ => false

/-- R316, R318: an access of core n's engine, or of a store that has left the core, met a page that is
not resident: the task's region restarts. An instruction that cannot be asked for again ends first. A frozen
core runs the region again once it is released. -/
def State.restartAt (s : State) (n : Nat) (w : Wait) : State :=
  let c := s.getCore n
  let id := c.task.map Task.id
  if c.committed then s.modCore n fun k => { k with restartDue := some w }
  else
    let u := ({ s with queue := s.queue.filter fun q => !(q.resident && some q.id == id) }).onCore n
      fun s => s.restartFor w
    if c.frozen then u.modCore n fun k => { k with tstate := .frozen, wait := .none } else u

/-- R316, R317: a page that core n's engine needs is not resident: the fault is recorded, or joins the
page's record, and the region of the task restarts. -/
def State.engineFault (s : State) (n asid vpn : Nat) : State :=
  (s.fault asid vpn (s.getCore n).ctx 4 none).restartAt n (.translation (vpn * 2 ^ 21) 4)

/-- The request of core n's engine to another package's interface. -/
def State.askPart (s : State) (n e p pkg va : Nat) (op : ReqOp) (bad : List Nat) : State :=
  (s.modLock n e fun k => { k with asked := p :: k.asked.filter (· != p) }).sendRequest
    { pkg := pkg, srcPkg := s.pkg, ctx := (s.getCore n).ctx, core := n, va := va, op := op
      part := some (e, p), bad := bad }

def LockEntry.unask (p : Nat) (k : LockEntry) : LockEntry := { k with asked := k.asked.filter (· != p) }
/-- A packet of the part has been discarded: nothing moves the part any more, until the task is resumed (R248). -/
def LockEntry.lose (p : Nat) (k : LockEntry) : LockEntry := { k.unask p with gone := p :: k.gone.filter (· != p) }
def LockEntry.partDone (p : Nat) (k : LockEntry) : LockEntry := { k.unask p with parts := p :: k.parts }

/-- The bytes of a part of a COPY are there: they are written. -/
def State.landPart (s : State) (n e p : Nat) (k : LockEntry) (bs : List Byte) (bad : List Nat) : State :=
  let asid := s.ctxAsid (s.getCore n).ctx
  let a := partAt k.dst p
  let later := s.modLock n e (LockEntry.unask p)
  match s.reach n asid .store a bs.length with
  | .ok segs =>
    if s.mirrorRoom (layerOf n) segs then
      (((s.markPages (some (routerOf n)) asid a bs.length true).engineWrite n segs bs bad)).modLock n e (LockEntry.partDone p)
    else later
  | .global pkg va => s.askPart n e p pkg va (.write bs) bad
  | .absent vpn => later.engineFault n asid vpn
  | .moving => later
  | .denied off => s.engineTrap n e .prot (a + BitVec.ofNat 64 off)
  | .malformed off vpn => (s.malformedBy (1, routerOf n) (some (s.getCore n).ctx) asid vpn).engineTrap n e .prot
      (a + BitVec.ofNat 64 off)

/-- R122, R356: elements enter the stream's buffer, or are discarded once the stream is unbound. -/
def State.landElements (s : State) (n e : Nat) (k : LockEntry) (bs : List Byte) (bad : List Nat) : State :=
  match k.kind with
  | .copy => s
  | .stream t w =>
    let els : List (Option Nat) := (List.range (bs.length / w)).map fun i =>
      if bad.any fun b => b / w == i then none else some (ofBytes ((bs.drop (w * i)).take w))
    let u := s.modLock n e fun k => { k with moved := k.moved + bs.length, asked := [] }
    match t with
    | none => u
    | some i => u.modCore n fun c => { c with
        s := c.s.set i.val ((c.s[i]).map fun (q : Stream) => { q with buf := q.buf ++ els }) }

/-- The room in the 64-element buffer of a COPYS, in elements. -/
def State.streamRoom (s : State) (n : Nat) (k : LockEntry) : Nat :=
  match k.kind with
  | .stream (some i) _ => 64 - (((s.getCore n).s[i]).map (·.buf.length)).getD 0
  | _ => 64

/-- What the engine reads next, a whole 16-byte part or the last one: address and length. -/
def LockEntry.nextRead (k : LockEntry) (p : Nat) : Word × Nat :=
  match k.kind with
  | .copy => (partAt k.src p, partLen k.len p)
  | .stream _ _ => (k.src + BitVec.ofNat 64 k.moved, Nat.min (k.len - k.moved) 16)

/-- The bytes that core n's engine has read are taken on. -/
def State.land (s : State) (n e p : Nat) (k : LockEntry) (bs : List Byte) (bad : List Nat) : State :=
  match k.kind with
  | .copy => s.landPart n e p k bs bad
  | .stream _ _ => s.landElements n e k bs bad

/-- One part of a copy of core n. -/
def State.movePart (s : State) (n e p : Nat) (k : LockEntry) : State :=
  let asid := s.ctxAsid (s.getCore n).ctx
  let r := k.nextRead p
  match s.reach n asid .load r.1 r.2 with
  | .ok segs =>
    let x := s.engineRead (layerOf n) segs
    ((s.markPages (some (routerOf n)) asid r.1 r.2 false).loaded segs).land n e p k x.1 x.2
  | .global pkg va => s.askPart n e p pkg va (.read r.2) []
  | .absent vpn => s.engineFault n asid vpn
  | .moving => s
  | .denied off => s.engineTrap n e .prot (r.1 + BitVec.ofNat 64 off)
  | .malformed off vpn => (s.malformedBy (1, routerOf n) (some (s.getCore n).ctx) asid vpn).engineTrap n e .prot
      (r.1 + BitVec.ofNat 64 off)

/-- Is this part still to be moved? A COPYS asks for one part at a time, once the stream's buffer has room for
the whole of it: it can stop only at a part's boundary (R300). -/
def State.partDue (s : State) (n : Nat) (k : LockEntry) (p : Nat) : Bool :=
  match k.kind with
  | .copy => decide (16 * p < k.len) && !k.parts.contains p && !k.asked.contains p && !k.gone.contains p
  | .stream _ w => decide (k.moved < k.len) && k.asked.isEmpty && k.gone.isEmpty
      && decide ((k.nextRead p).2 ≤ w * s.streamRoom n k)

/-- R318: a part met a page that is not resident at its package: it is asked for again, and the task's
region restarts. -/
def State.partMiss (s : State) (n e p : Nat) (a : Word) : State :=
  (s.modLock n e (LockEntry.unask p)).restartAt n (.remotePage (bits a.toNat 0 53 / 2 ^ 21 * 2 ^ 21))

/-- A part that was asked for has come back. -/
def State.partBack (s : State) (r : Response) : State :=
  match r.part with
  | none => s
  | some (e, p) =>
    match s.lockAt r.core e with
    | none => s
    | some k =>
      if !k.asked.contains p then s
      else if !s.engineRuns r.core then s.modLock r.core e (LockEntry.unask p)
      else
        let x := k.nextRead p
        match r.res with
        | .data v => s.land r.core e p k (bytesOf x.2 v) r.bad
        | .trap c off => s.engineTrap r.core e c (x.1 + BitVec.ofNat 64 off)
        | .xlat => s.partMiss r.core e p x.1

/-- A part has been written at another package's interface, or has failed there. -/
def State.partWritten (s : State) (r : Response) : State :=
  match r.part with
  | none => s
  | some (e, p) =>
    match s.lockAt r.core e with
    | none => s
    | some k =>
      if !k.asked.contains p then s
      else match r.res with
        | .trap c off => s.engineTrap r.core e c (partAt k.dst p + BitVec.ofNat 64 off)
        | .xlat => s.partMiss r.core e p (partAt k.dst p)
        | _ => s.modLock r.core e (LockEntry.partDone p)

/-! ### A store of the core at another package (R225, R313, R318) -/

/-- The acknowledgement of a remote store has been counted. -/
def Core.storeDone (q : Request) (c : Core) : Core :=
  { c with remoteStores := dropFirst (fun r => r.1 == q.pkg && r.2.1 == q.va) c.remoteStores }

/-- The outcome of a remote store. One that was performed is acknowledged, and whoever watches its line is
told (R119); a denied one raises its fault; and where the page is not resident, the task's region restarts
and the store is sent again with it (log entry 18). -/
def State.storeBack (s : State) (q : Request) (n : Nat) (x : Remote) : State :=
  match x with
  | .data _ => (s.modCore n (Core.storeDone q)).notice (.global q.pkg q.va) q.op.size
  | .trap c off => s.modCore n fun k => ((k.storeDone q).owe c
      (BitVec.ofNat 64 (2 ^ 63 + q.pkg * 2 ^ 53 + q.va + off)))
  | .xlat =>
    if (s.getCore n).task.isNone then s.sendRequest q
    else (s.modCore n fun k => { k.storeDone q with unsent := k.unsent ++ [q] }).restartAt n
      (.remotePage (q.va / 2 ^ 21 * 2 ^ 21))

/-- REMOTE_RESPONSE_ARRIVAL: the response takes its reserved slot, or frees one whose load was
aborted; an acknowledgement is counted; a check's outcome reaches its instruction, and a part its
engine. -/
def execRemoteResponseArrival (k : Nat) (s : State) : Out :=
  match s.responses[k]? with
  | none => .next s
  | some r => s.onRoute (upRoute r.core)
   (let u := { s with responses := s.responses.eraseIdx k }
    match r.op with
    | .slot => .next (u.modCore r.core fun c => { c with
        slots := c.slots.setIfInBounds r.slot (match c.slots.toList.getD r.slot none with
          | some q => if q.dead then none else some { q with resp := some r.res }
          | none => none) })
    | .store => .next (match r.store with
        | some q => u.storeBack q r.core r.res
        | none => u)
    | .check => .next (u.modCore r.core fun c => { c with
        asking := none
        progress := match c.progress with
          | .asked v none => if v = r.slot then .asked v (some r.res.reply) else c.progress
          | p => p })
    | .part => .next (u.partBack r)
    | .wrote => .next (u.partWritten r))

/-! ### COPY slots (R287) -/

/-- A COPY slot fails with status 5. -/
def State.copyFault (s : State) (id : Nat) : State :=
  { s with slots := s.slots.map fun k => if k.id = id then { k with status := some 5 } else k }
def State.copyDone (s : State) (id p : Nat) (c : SlotCopy) : State :=
  { s with slots := s.slots.map fun k =>
      if k.id = id then { k with kind := .copy { c with parts := p :: c.parts } } else k }

/-- The device side of a COPY slot is translated in the queue's context; none when the page is not
there yet, and the second component is whether it is a fault. -/
def State.slotReach (s : State) (ctx : Nat) (k : Kind) (va n : Nat) : Reach :=
  if 2 ^ 53 < va + n then .denied 0 else s.reachPages (some 0) (s.ctxAsid ctx) k va n

/-- R317: a COPY slot met a page that is not resident. It has no region: its fault is recorded, or joins
the page's record, once, and the slot goes on when the page is there (log entry 39). -/
def State.slotFault (s : State) (id ctx vpn : Nat) : State :=
  let asid := s.ctxAsid ctx
  let met := s.slots.any fun k => k.id == id && (match k.kind with
    | .copy c => c.missed == some vpn
    | _ => false)
  if met && s.faults.any (fun f => f.2.1 == asid && f.2.2 == vpn) then s
  else
    let u := s.fault asid vpn ctx 4 none
    { u with slots := u.slots.map fun k => if k.id = id then (match k.kind with
        | .copy c => { k with kind := .copy { c with missed := some vpn } }
        | _ => k) else k }

/-- The host function of the queue that a slot came from: the master of its accesses (log entry 93). -/
def State.slotFunc (s : State) (id : Nat) : Nat :=
  ((s.slots.find? (·.id == id)).map fun k => s.queueFunc k.queue).getD 0

/-- A slot's access met no page it may use. -/
def State.slotMiss (s : State) (id ctx : Nat) : Reach → State
  | .absent vpn => s.slotFault id ctx vpn
  | .moving => s
  | .malformed _ vpn => (s.malformedBy (4, s.slotFunc id) (some ctx) (s.ctxAsid ctx) vpn).copyFault id
  | _ => s.copyFault id

/-- Write a part of a COPY slot. -/
def State.slotWrite (s : State) (k : Slot) (c : SlotCopy) (p : Nat) (bs : List Byte) (bad : List Nat) :
    State :=
  let a := c.dst + 16 * p
  if c.dstHost then
    match bad with
    | i :: _ => (s.copyFault k.id).postError
        { code := 0x04, poisoned := true, ctx := some k.ctx, addr := c.src + 16 * p + i
          detail := c.src + 16 * p + i }
    | [] => { s with host := s.host.writeBytes a bs }.copyDone k.id p c
  else match s.slotReach k.ctx .store a bs.length with
    | .ok segs => ((s.markPages (some 0) (s.ctxAsid k.ctx) (BitVec.ofNat 64 a) bs.length true).engineWrite 0 segs bs
        bad).copyDone k.id p c
    | r => s.slotMiss k.id k.ctx r

/-- Move one part of a COPY slot. -/
def State.slotPart (s : State) (id p : Nat) : State :=
  match s.slots.find? (·.id == id) with
  | none => s
  | some k =>
    match k.kind, k.status with
    | .copy c, none =>
      if s.ctxState k.ctx == 3 || c.len ≤ 16 * p || c.parts.contains p
          || ((c.srcHost || c.dstHost) && s.frozen.contains (3, 20)) then s
      else
        let n := partLen c.len p
        let a := c.src + 16 * p
        if c.srcHost then s.slotWrite k c p (s.host.readBytes a n) []
        else match s.slotReach k.ctx .load a n with
          | .ok segs =>
            let x := s.engineRead 0 segs
            (s.markPages (some 0) (s.ctxAsid k.ctx) (BitVec.ofNat 64 a) n false).slotWrite k c p x.1 x.2
          | r => s.slotMiss k.id k.ctx r
    | _, _ => s

/-! ### The engine's steps -/

/-- The parts of the routes between core n's engine and a place, with their classes (R240, R241). -/
def State.placeLegs (s : State) (n : Nat) (a : Word) : List (Nat × List Nat) :=
  match s.spaceOf a.toNat with
  | .vault off => s.homeLegs n (.vault off)
  | .virt va => s.homeLegs n (.hbm va)
  | .global p va => s.homeLegs n (.global p va)
  | _ => []
/-- The core number that a record shows for that place. -/
def State.placeCore (s : State) (n : Nat) (a : Word) : Nat :=
  match s.spaceOf a.toNat with
  | .vault off => coreOfRouter (off / 2 ^ 21)
  | .virt _ => 0
  | .global _ _ => 0
  | _ => n
def State.engineWays (s : State) (n : Nat) (a : Word) : List (List Nat) := (s.placeLegs n a).map (·.2)

/-- R332: no store of core n to a line of another package that a part reads or writes is on its way. -/
def State.lineFree (s : State) (n : Nat) (a : Word) (len : Nat) : Bool :=
  match s.spaceOf a.toNat with
  | .global p va => !(s.getCore n).lineBusy p va len
  | _ => true

/-- COPY_ENGINE_PART: part `part` of core n's range-lock entry e; for n = 6144, of COPY slot e. -/
def execCopyEnginePart (n e part : Nat) (s : State) : Out :=
  if n = numCores then .next (s.slotPart e part)
  else match s.lockAt n e with
    | none => .next s
    | some k =>
      let r := k.nextRead part
      if s.engineRuns n && s.engineOrdered n && s.partDue n k part && s.lineFree n r.1 r.2
          && s.lineFree n (partAt k.dst part) r.2 then
        s.onRoutes (s.engineWays n r.1 ++ s.engineWays n (partAt k.dst part))
          (.next (s.movePart n e part k))
      else .next s

/-- R122: is the last byte acknowledged? A COPYS is done when its last element is in the buffer. -/
def State.copyFinished (s : State) (n : Nat) (k : LockEntry) : Bool :=
  match k.kind with
  | .copy => decide (k.parts.length = (k.len + 15) / 16) && k.asked.isEmpty
      && !((s.layer (layerOf n)).mq ++ (s.sent.map (·.stores)).flatten).any (·.core == n)
      && !(s.flying.any fun f => f.core == n)
  | .stream _ _ => decide (k.len ≤ k.moved)

/-- COPY_ENGINE_COMPLETE: the entry is free. -/
def execCopyEngineComplete (n e : Nat) (s : State) : Out :=
  .next (match s.lockAt n e with
    | none => s
    | some k =>
      if s.copyFinished n k then s.modCore n fun c => { c with locks := c.locks.setIfInBounds e none } else s)

end Sys2Proof.Machine
end

