-- ==== Sys2Proof/Machine/Collective.lean ====
section
/-! DEFINITION. Trigger counters, queue pairs and the collective engine (R178-R181, R335-R344). -/

namespace Sys2Proof.Machine

/-! ### Trigger counters (R179, R180) -/

def State.trigger (s : State) (ctx num : Nat) : Trigger :=
  (s.triggers.find? fun t => t.ctx == ctx && t.num == num).getD { ctx := ctx, num := num }
def State.setTrigger (s : State) (t : Trigger) : State :=
  { s with triggers := t :: s.triggers.filter fun x => !(x.ctx == t.ctx && x.num == t.num) }

/-- V goes up, modulo 2^63. -/
def State.raiseTrigger (s : State) (ctx num by_ : Nat) : State :=
  let t := s.trigger ctx num
  s.setTrigger { t with v := (t.v + by_) % 2 ^ 63 }

/-- R165: a number of the context's 64 triggers that it holds. -/
def State.onTrigger (st : State) (x : Word) (k : Out) : Out :=
  if 64 ≤ x.toNat || !st.holds st.core.ctx (·.trg) x.toNat then st.trap .prot x else k

/-- AB : V. -/
def Trigger.word (t : Trigger) : Word := BitVec.ofNat 64 (t.v + t.ab.toNat * 2 ^ 63)

def execTrigAdd (s t : XSrc) (st : State) : Out :=
  st.guard (s.regs ++ t.regs) (s.cells ++ t.cells)
    (let x := st.src s
     st.onTrigger x
       (if !st.settled .package then .next st.stall
        else .next (st.raiseTrigger st.core.ctx x.toNat ((st.src t).toNat % 2 ^ 63)).retireMark))
def execTrigSet (s t : XSrc) (st : State) : Out :=
  st.guard (s.regs ++ t.regs) (s.cells ++ t.cells)
    (let x := st.src s
     st.onTrigger x
       (if !st.settled .package then .next st.stall
        else .next (st.setTrigger { ctx := st.core.ctx, num := x.toNat
                                    v := (st.src t).toNat % 2 ^ 63 }).retireMark))
def execTrigRead (d : XReg) (s : XSrc) (st : State) : Out :=
  st.guard (d.val :: s.regs) s.cells
    (let x := st.src s
     st.onTrigger x (.next (st.setX d (st.trigger st.core.ctx x.toNat).word).retire))
def execCqwait (d : XReg) (s t : XSrc) (st : State) : Out :=
  st.guard (d.val :: (s.regs ++ t.regs)) (s.cells ++ t.cells)
    (let x := st.src s
     st.onTrigger x
       (let c := st.trigger st.core.ctx x.toNat
        if c.ab || (st.src t).toNat % 2 ^ 63 ≤ c.v then .next (st.setX d c.word).retire
        else .next st.stall))

/-! ### Groups (R335) -/

def State.groupRoot (s : State) (g : Nat) : Bool := bits (s.reg (groupBase g) 8) 2 1 == 1
def State.groupCtx (s : State) (g : Nat) : Nat := bits (s.reg (groupBase g) 8) 8 8
def State.groupSeq (s : State) (g : Nat) : Nat := s.reg (groupBase g + 8) 4
def State.setGroupSt (s : State) (g st : Nat) : State :=
  { s with mmio := s.mmio.writeN (groupBase g) 1 (s.reg (groupBase g) 1 / 4 * 4 + st) }
def State.setGroupSeq (s : State) (g n : Nat) : State :=
  { s with mmio := s.mmio.writeN (groupBase g + 8) 4 (n % 2 ^ 32) }

/-- A package field with its V bit. -/
def member (v : Nat) : Option Nat := if bits v 15 1 = 1 then some (bits v 0 10) else none
def State.groupParent (s : State) (g : Nat) : Option Nat := member (s.reg (groupBase g + 24) 2)
def State.groupChildren (s : State) (g : Nat) : List Nat :=
  (List.range 8).filterMap fun i => member (s.reg (groupBase g + 32 + 2 * i) 2)

/-- What the engine keeps of a group. -/
def State.group (s : State) (g : Nat) : Group := (s.groups.find? (·.num == g)).getD { num := g }
def State.setGroup (s : State) (x : Group) : State :=
  { s with groups := x :: s.groups.filter (·.num != x.num) }

/-- A packet for another package. -/
def State.sendPacket (s : State) (p : Nat) (b : Body) : State := { s with out := s.out ++ [.packet p 0 0 b] }

/-- R335: does a packet of the group belong to its present sequence? -/
def State.inSequence (s : State) (g seq : Nat) : Bool := s.groupSt g == 1 && s.groupSeq g == seq
/-- A packet is dropped and counted. -/
def State.drop (s : State) : State := { s with dropped := s.dropped + 1 }

/-! ### Aborting (R340-R342) -/

/-- R342: the abort record; `seq'` is the new sequence number. -/
def State.writeAbort (s : State) (g seq' : Nat) (failed : Bool) : State :=
  let x := s.group g
  let seq := s.groupSeq g
  let chunks := x.chunks.foldl (fun m c => Nat.lor m (2 ^ c)) 0
  let bs := bytesOf 4 seq ++ bytesOf 4 seq' ++ bytesOf 1 x.reason
    ++ bytesOf 1 (x.detected.toNat + 2 * failed.toNat) ++ bytesOf 2 x.by_ ++ bytesOf 4 x.discarded
    ++ bytesOf 8 (Config.cycle x.since).toNat ++ bytesOf 40 0 ++ bytesOf 128 chunks ++ bytesOf 64 0
  s.storeHome (.hbm (s.reg (groupBase g + 48) 8 + 256 * (seq % 4))) bs

/-- The group is OPEN again under a new sequence number (R341 step 5), and tells its children. -/
def State.reopen (s : State) (g seq' : Nat) : State :=
  let u := ((s.writeAbort g seq' false).setGroupSeq g seq').setGroupSt g 1
  let u := u.setGroup { num := g }
  (u.groupChildren g).foldl (fun s c => s.sendPacket c (.abortDone g seq')) u

/-- R341 steps 4 and 5: every child has acknowledged. -/
def State.settleAbort (s : State) (g : Nat) : State :=
  let x := s.group g
  if x.told && !x.passed && s.groupSt g == 2 && (s.groupChildren g).all x.acked.contains then
    if s.groupRoot g then s.reopen g ((s.groupSeq g + 1) % 2 ^ 32)
    else
      let u := s.setGroup { x with passed := true }
      match s.groupParent g with
      | some p => u.sendPacket p (.abortAck g (s.groupSeq g) s.pkg)
      | none => u
  else s

/-- R341 step 3: an unfired entry is discarded: its counter shows AB. -/
def State.discardEntry (s : State) (e : CEntry) : State :=
  let x := s.trigger e.ctx e.trig
  let u := s.setTrigger { x with ab := true }
  let y := u.group e.grp
  u.setGroup { y with discarded := y.discarded + 1 }

/-- Is it a part of a group's entry that stands at its well (R339)? -/
def Term.ofGroup (g : Nat) (ids : List Nat) (t : Term) : Bool :=
  match t.src with
  | .core _ => false
  | .entry id => ids.contains id
  | .remote _ grp _ _ => grp == g

/-- Is it a part of a group's entry that has still to leave the package? -/
def OutMsg.partOf (g : Nat) : OutMsg → Bool
  | .packet _ _ _ (.part p) => p.grp == g
  | _ => false

/-- R341 step 3: unfired entries of the group are discarded, what is fired is given up, no part of it leaves
any more, and a part that has come and is not performed is dropped. -/
def State.dropGroup (s : State) (g : Nat) : State :=
  let gone : List CEntry := ((s.qps.map (·.entries)).flatten).filter (·.grp == g)
  let ids := (s.fired.filter (·.e.grp == g)).map (·.id)
  let u := gone.foldl State.discardEntry s
  ({ u with
    qps := u.qps.map fun (q : QueuePair) => { q with entries := q.entries.filter (·.grp != g) }
    fired := u.fired.filter (·.e.grp != g), pent := u.pent.filter fun m => !m.partOf g }).dropTerms (Term.ofGroup g ids)

/-- R341 steps 2 and 3: the broadcast passes this engine. -/
def State.tell (s : State) (g reason pkg : Nat) : State :=
  let seq := s.groupSeq g
  let u := (s.groupChildren g).foldl (fun s c => s.sendPacket c (.abort g seq reason pkg)) s
  let u := u.dropGroup g
  let x := u.group g
  (u.setGroup { x with told := true }).settleAbort g

/-- R341 step 1: an OPEN group is ABORTING, and its parent is asked, or the root tells the tree. -/
def State.startAbort (s : State) (g reason pkg : Nat) (detected : Bool) : State :=
  if s.groupSt g ≠ 1 then s
  else
    let u := s.setGroupSt g 2
    let x := u.group g
    let u := u.setGroup { x with
      detected := detected, reason := reason, by_ := pkg, since := s.tick, told := false, passed := false }
    if u.groupRoot g then u.tell g reason pkg
    else match u.groupParent g with
      | some p => u.sendPacket p (.abortReq g (s.groupSeq g) reason pkg)
      | none => u

/-- An abort that this package detects. -/
def State.abortHere (s : State) (g reason : Nat) : State := s.startAbort g reason s.pkg true

/-- Does the group include a package, as far as this one knows: as a neighbour in its tree, as the
destination of an entry, or as the source of a part (log entry 92)? -/
def State.groupHas (s : State) (g p : Nat) : Bool :=
  s.groupParent g == some p || (s.groupChildren g).contains p
    || (s.qps.any fun q => q.entries.any fun e => e.grp == g && e.dpkg == some p)
    || (s.fired.any fun f => f.e.grp == g && f.e.dpkg == some p)
    || (s.parts.any fun q => q.grp == g && q.pkg == p)
    || (s.terms.any fun t => match t.src with
      | .remote q h _ _ => q == p && h == g
      | _ => false)

/-- R334, R376: every group that includes this package is aborted. A revoked child counts as having
acknowledged. -/
def State.abortPeerIn (s : State) (p reason : Nat) (acks : Bool) (ok : Nat → Bool) : State :=
  (List.range 256).foldl (fun s g =>
    if !ok (s.groupCtx g) then s
    else if s.groupHas g p then
      let x := s.group g
      let u := if acks then s.setGroup { x with acked := p :: x.acked } else s
      (u.abortHere g reason).settleAbort g
    else s) s

def State.abortPeer (s : State) (p reason : Nat) (acks : Bool) : State :=
  s.abortPeerIn p reason acks fun _ => true

/-- ABORT_REQ_RECEIVE: only the first one for the current SEQ has an effect; another is dropped and
counted (R335). -/
def execAbortReqReceive (g seq reason pkg : Nat) (s : State) : Out :=
  .next (if s.inSequence g seq then s.startAbort g reason pkg false else s.drop)

/-- ABORT_RECEIVE. It finds the group OPEN, or ABORTING by its own request; out of sequence it is dropped
and counted (R335). -/
def execAbortReceive (g seq reason pkg : Nat) (s : State) : Out :=
  .next (if s.groupSeq g = seq && (s.groupSt g = 1 || (s.groupSt g = 2 && !(s.group g).told)) then
    let u := s.setGroupSt g 2
    let x := u.group g
    let u := if s.groupSt g = 1 then
      u.setGroup { x with detected := false, reason := reason, by_ := pkg, since := s.tick } else u
    u.tell g reason pkg
    else s.drop)

/-- ABORT_ACK_RECEIVE: one whose SEQ is the group's, which its packet has shown (R343). -/
def execAbortAckReceive (g child : Nat) (s : State) : Out :=
  .next (if s.groupSt g = 2 then
    let x := s.group g
    (s.setGroup { x with acked := child :: x.acked }).settleAbort g else s.drop)

/-- ABORT_DONE_RECEIVE. It carries the new SEQ. -/
def execAbortDoneReceive (g seq : Nat) (s : State) : Out :=
  .next (if s.groupSt g = 2 && (s.groupSeq g + 1) % 2 ^ 32 = seq then s.reopen g seq else s.drop)

/-- ABORT_WAIT_TIMEOUT: the group is FAILED; its record keeps the sequence number. -/
def execAbortWaitTimeout (g : Nat) (s : State) : Out :=
  .next (if s.groupSt g = 2 then
    ((s.writeAbort g (s.groupSeq g) true).setGroupSt g 3).dropGroup g else s)

/-- R181: a group number that the context holds. -/
def State.onGroup (st : State) (x : Word) (k : Out) : Out :=
  if 256 ≤ x.toNat || !st.holds st.core.ctx (·.cg) x.toNat then st.trap .prot x else k
def execCabort (s : XSrc) (st : State) : Out :=
  st.guard s.regs s.cells
    (st.onGroup (st.src s) (.next (st.abortHere (st.src s).toNat 1).retireMark))
def execCabortSeq (d : XReg) (s : XSrc) (st : State) : Out :=
  st.guard (d.val :: s.regs) s.cells
    (st.onGroup (st.src s) (.next (st.setX d (BitVec.ofNat 64 (st.groupSeq (st.src s).toNat))).retire))

/-! ### Posting (R178, R336) -/

/-- A 16-byte aligned address in space 0 or 1. -/
def State.bufferOk (s : State) (a : Nat) : Bool :=
  a % 16 == 0 && (match s.spaceOf a with
    | .virt _ => true
    | .vault _ => true
    | _ => false)

/-- Bytes of an element of a TERM entry. -/
def termSize (red : Nat) : Nat := if red = 1 then 2 else 4

/-- R336: the entry of 64 bytes; none where a field is invalid. -/
def State.entryOf (s : State) (ctx : Nat) (b : List Byte) : Option CEntry :=
  let op := fieldOf b 0 1
  let red := fieldOf b 1 1
  let fin := bits (fieldOf b 3 1) 0 1 == 1
  let counter (v : Nat) : Bool := decide (v < 64) || v == 0xFF
  let src := fieldOf b 16 8
  let dst := fieldOf b 24 8
  let len := fieldOf b 32 4
  let away := bits (fieldOf b 38 2) 15 1 == 1
  let shape : Bool :=
    if op = 4 then src == 0 && dst == 0 && len == 0
    else s.bufferOk src && len % 16 == 0 && decide (16 ≤ len) && decide (len ≤ 2 ^ 24)
      && (if op = 3 then len % (64 * termSize red) == 0 && decide (len ≤ 64 * 512 * termSize red)
          else s.bufferOk dst)
  if op = 0 || 4 < op || (if op = 2 then decide (6 < red) else if op = 3 then decide (1 < red) else red != 0)
      || fieldOf b 3 1 / 2 ≠ 0 || 64 ≤ fieldOf b 4 1 || !counter (fieldOf b 5 1) || !counter (fieldOf b 6 1)
      || fieldOf b 7 1 ≠ 0 || 2 ^ 63 ≤ fieldOf b 8 8 || !shape
      || (if fin then decide (1023 < fieldOf b 36 2) else fieldOf b 36 2 != 0)
      || bits (fieldOf b 38 2) 10 5 ≠ 0 || (op ≠ 3 && fieldOf b 40 8 ≠ 0) || !zeroBytes b 48 16
      || !s.holds ctx (·.cg) (fieldOf b 2 1) || (fin && (away || op ≠ 1)) then none
  else some {
    ctx := ctx, op := op, red := red, grp := fieldOf b 2 1, fin := fin, trig := fieldOf b 4 1
    ltrig := fieldOf b 5 1, dtrig := fieldOf b 6 1, thr := fieldOf b 8 8, src := src, dst := dst, len := len
    chunk := fieldOf b 36 2, dpkg := if away then some (bits (fieldOf b 38 2) 0 10) else none
    tag := BitVec.ofNat 64 (fieldOf b 40 8) }

def State.qp (s : State) (n : Nat) : QueuePair := (s.qps.find? (·.num == n)).getD { num := n }
def State.setQp (s : State) (q : QueuePair) : State := { s with qps := q :: s.qps.filter (·.num != q.num) }

/-- R341: an entry posted to a group that is ABORTING or FAILED is discarded at once. -/
def State.append (s : State) (n : Nat) (e : CEntry) : State :=
  let q := s.qp n
  let q := { q with next := (q.next + 1) % 65536 }
  if s.groupSt e.grp = 2 || s.groupSt e.grp = 3 then (s.setQp q).discardEntry e
  else s.setQp { q with entries := q.entries ++ [e] }

def execCqpost (d : XReg) (s t : XSrc) (st : State) : Out :=
  st.guard (d.val :: (s.regs ++ t.regs)) (s.cells ++ t.cells)
    (let a := st.src s
     let x := st.src t
     match st.spaceOf a.toNat with
     | .loc _ =>
       if a.toNat % 64 ≠ 0 then st.trap .addr a
       else st.access {} a 64 fun segs =>
         if 256 ≤ x.toNat || !st.holds st.core.ctx (·.qp) x.toNat then st.trap .prot x
         else match st.entryOf st.core.ctx (st.loadSegs segs) with
           | none => st.trap .addr a
           | some e =>
             if !st.settled .package || 256 ≤ (st.qp x.toNat).entries.length then .next st.stall
             else .next ((st.append x.toNat e).setX d (BitVec.ofNat 64 (st.qp x.toNat).next)).retireMark
     | _ => st.trap .addr a)

/-! ### Firing (R337) -/

/-- R283, R337: an access of an engine for a context: its protection image and its pages. -/
def State.imageReach (s : State) (ctx : Nat) (k : Kind) (a n : Nat) : Reach :=
  let sp := s.spaceOf a
  let c : Core := { prot := Vector.ofFn fun i => BitVec.ofNat 64 (s.reg (ctxBase ctx + 0x80 + 8 * i.val) 8) }
  match s.spaceEnd sp n, c.protFail sp k n with
  | none, none => match sp with
    | .virt va => s.reachPages none (s.ctxAsid ctx) k va n
    | .vault off => .ok [(.vault off, n)]
    | _ => .denied 0
  | _, _ => .denied 0

/-- R363: every group with an unfired entry in a queue pair is aborted with reason REVOKE. -/
def State.revokePair (s : State) (n : Nat) : State :=
  (((s.qp n).entries.map (·.grp)).eraseDups).foldl (fun s g => s.abortHere g 6) s

/-- The same where the master is a queue pair that is frozen. -/
def State.revokeFrozen (s : State) (m : Nat × Nat) : State :=
  if m.1 = 2 && s.frozen.contains m then s.revokePair m.2 else s

/-- How the reading of a source ends: the whole of it read, a reason to abort, or a page that it waits
for (R322, R328). -/
inductive SourceEnd where
  | all
  | abort (reason : Nat)
  | waits
  deriving DecidableEq, Repr

/-- What the source of an entry of a queue pair gives: the parts read, and how it ends. -/
def State.readSource (s : State) (qp : Nat) (e : CEntry) : List Nat → State × List (List Byte) × SourceEnd
  | [] => (s, [], .all)
  | i :: t =>
    let a := e.src + 16 * i
    match s.imageReach e.ctx .load a 16 with
    | .ok segs =>
      let x := s.engineRead 0 segs
      if !x.2.isEmpty then
        (s.postError { code := 0x04, poisoned := true, ctx := some e.ctx, addr := a, detail := a }, [], .abort 7)
      else
        let r := (s.markPages none (s.ctxAsid e.ctx) (BitVec.ofNat 64 a) 16 false).readSource qp e t
        (r.1, x.1 :: r.2.1, r.2.2)
    | .moving => (s, [], .waits)
    | .malformed _ vpn => (s.malformedBy (2, qp) (some e.ctx) (s.ctxAsid e.ctx) vpn, [], .abort 5)
    | .absent vpn => (s.fault (s.ctxAsid e.ctx) vpn e.ctx 4 none, [], .abort 5)
    | _ => (s, [], .abort 5)

/-- The packets of an entry: one for each part, one for a TERM, none for a SIGNAL. -/
def CEntry.packets (e : CEntry) (pkg id seq : Nat) (bs : List (List Byte)) : List Part :=
  let base : Part := { pkg := pkg, id := id, grp := e.grp, seq := seq, op := e.op, red := e.red, dst := e.dst
                       tag := e.tag, bytes := [] }
  if e.op = 3 then [{ base with bytes := bs.flatten }]
  else (bs.zip (List.range bs.length)).map fun x => { base with dst := e.dst + 16 * x.2, bytes := x.1 }

/-- Send the parts of an entry. -/
def State.sendParts (s : State) (e : CEntry) (ps : List Part) : State :=
  match e.dpkg with
  | none => { s with parts := s.parts ++ ps }
  | some p => if p = s.pkg then { s with parts := s.parts ++ ps }
      else ps.foldl (fun s x => s.sendPacket p (.part x)) s

/-- The head of a queue pair fires: it leaves the queue, and its parts go out as they are read. A fault
at one of them, or poison, aborts the group; the entry does not complete then. -/
def State.fireHead (s : State) (q : QueuePair) (e : CEntry) : State :=
  let r := s.readSource q.num e (List.range (e.len / 16))
  let ps := e.packets s.pkg s.nextFired (s.groupSeq e.grp) r.2.1
  let fired (left : Nat) (ps : List Part) : State :=
    let f : Fired := { id := s.nextFired, qp := q.num, e := e, seq := s.groupSeq e.grp, left := left }
    let u := r.1.setQp { q with entries := q.entries.drop 1 }
    ({ u with fired := u.fired ++ [f], nextFired := u.nextFired + 1 }).sendParts e ps
  match r.2.2 with
  | .all => fired ps.length ps
  | .abort reason =>
    ((fired (ps.length + 1) (if e.op = 3 then [] else ps)).abortHere e.grp reason).revokeFrozen (2, q.num)
  | .waits => s

/-- COLLECTIVE_ENTRY_FIRE: the head of queue pair `qp`. A stopped context fires nothing (R300). -/
def execCollectiveEntryFire (qp : Nat) (s : State) : Out :=
  let q := s.qp qp
  match q.entries with
  | [] => .next s
  | e :: t =>
    let c := s.trigger e.ctx e.trig
    if s.frozen.contains (2, qp) || s.held.contains e.ctx || s.ctxState e.ctx != 1 then .next s
    else if c.ab then .next (s.setQp { q with entries := t })
    else if s.groupSt e.grp = 1 && e.thr ≤ c.v then .next (s.fireHead q e)
    else .next s

/-! ### At the destination (R337-R339) -/

/-- R338: one element of a REDUCE. -/
def reduceElem (red dst src : Nat) : Nat :=
  match red with
  | 0 => fmtF32.addC .rne dst src
  | 1 => fmtBf16.addC .rne dst src
  | 2 => (dst + src) % 2 ^ 32
  | 3 => fmtF32.minC dst src
  | 4 => fmtF32.maxC dst src
  | 5 => if toS 32 dst ≤ toS 32 src then dst else src
  | _ => if toS 32 dst ≤ toS 32 src then src else dst

/-- The bytes that a part leaves at its destination. -/
def reduceBytes (red : Nat) (dst src : List Byte) : List Byte :=
  let n := if red = 1 then 2 else 4
  ((List.range (src.length / n)).map fun i =>
    bytesOf n (reduceElem red (fieldOf dst (n * i) n) (fieldOf src (n * i) n))).flatten

/-- The acknowledgement of a part to the entry it belongs to. -/
def State.ackPart (s : State) (p : Part) (landed : Bool) : State :=
  if p.pkg = s.pkg then { s with fired := s.fired.map fun f =>
      if f.id = p.id then { f with left := f.left - 1 } else f }
  else s.sendPacket p.pkg (.partAck p.grp p.seq p.id landed)

/-- A term's elements. -/
def Part.term (p : Part) (own : Bool) (ctx : Nat) (h : Word) : Term :=
  let n := termSize p.red
  { src := if own then .entry p.id else .remote p.pkg p.grp p.seq p.id
    ctx := ctx, home := hHome h, idx := hIdx h, inc := hInc h, tag := p.tag
    scaled := tagScale p.tag != 0, lt := false, bf16 := p.red == 1
    data := (List.range (p.bytes.length / n)).map fun i => fieldOf p.bytes (n * i) n }

/-- R339: a TERM enters its well at the request. -/
def State.termArrives (s : State) (p : Part) : State :=
  let ctx := s.groupCtx p.grp
  let h := BitVec.ofNat 64 p.dst
  match s.wellOf ctx h with
  | none => s.abortHere p.grp 5
  | some w =>
    if bits p.tag.toNat 21 11 ≠ 0 || w.n ≤ tagCon p.tag || p.bytes.length ≠ 64 * w.d * termSize p.red then
      s.abortHere p.grp 5
    else { s with terms := s.terms ++ [p.term (p.pkg == s.pkg) ctx h] }

/-- The master whose access a part makes: the queue pair of its entry, or the port it came by. -/
def State.partMaster (s : State) (p : Part) : Nat × Nat :=
  if p.pkg = s.pkg then (2, ((s.fired.find? (·.id == p.id)).map (·.qp)).getD 0)
  else (3, s.portUnit p.pkg - numRouters)

/-- A part is translated and checked under the group's context, and performed. -/
def State.partArrives (s : State) (p : Part) : State :=
  let ctx := s.groupCtx p.grp
  if p.op = 3 then s.termArrives p
  else match s.imageReach ctx .store p.dst p.bytes.length with
    | .ok segs =>
      let u := s.markPages none (s.ctxAsid ctx) (BitVec.ofNat 64 p.dst) p.bytes.length true
      let old := u.engineRead 0 segs
      let v := if p.op = 2 then u.engineWrite 0 segs (reduceBytes p.red old.1 p.bytes) old.2
        else u.engineWrite 0 segs p.bytes []
      v.ackPart p true
    | .moving => { s with parts := s.parts ++ [p] }
    | .malformed _ vpn =>
      let m := s.partMaster p
      ((s.malformedBy m (some ctx) (s.ctxAsid ctx) vpn).abortHere p.grp 5).revokeFrozen m
    | .absent vpn => (s.fault (s.ctxAsid ctx) vpn ctx 4 none).abortHere p.grp 5
    | _ => s.abortHere p.grp 5

/-- COLLECTIVE_PART_ARRIVAL: the k-th part; one that is out of sequence is dropped (R335, R343). -/
def execCollectivePartArrival (k : Nat) (s : State) : Out :=
  match s.parts[k]? with
  | none => .next s
  | some p =>
    let u := { s with parts := s.parts.eraseIdx k }
    .next (if s.inSequence p.grp p.seq then u.partArrives p else u.drop)

/-! ### Completion (R337, R344) -/

/-- LTRIG, and the chunk of a FIN entry. -/
def State.endEntry (s : State) (f : Fired) : State :=
  let u := { s with fired := s.fired.filter (·.id != f.id) }
  let x := u.group f.e.grp
  let u := if f.e.fin && s.groupSt f.e.grp == 1 then
    u.setGroup { x with chunks := (f.e.chunk :: x.chunks).eraseDups } else u
  if f.e.ltrig = 0xFF then u else u.raiseTrigger f.e.ctx f.e.ltrig 1

/-- Change a fired entry. -/
def State.modFired (s : State) (id : Nat) (f : Fired → Fired) : State :=
  { s with fired := s.fired.map fun x => if x.id = id then f x else x }

/-- COLLECTIVE_ENTRY_COMPLETE: the k-th fired entry: DTRIG first, at its destination, then LTRIG. A DTRIG
that is out of sequence is dropped, and its entry does not complete (R335). -/
def execCollectiveEntryComplete (k : Nat) (s : State) : Out :=
  match s.fired[k]? with
  | none => .next s
  | some f =>
    if f.left ≠ 0 then .next s
    else if f.e.dtrig = 0xFF || f.done then .next (s.endEntry f)
    else
      let away := f.e.dpkg.filter (· != s.pkg)
      match away with
      | none =>
        .next (if s.inSequence f.e.grp f.seq then
          (s.raiseTrigger (s.groupCtx f.e.grp) f.e.dtrig 1).endEntry f else s)
      | some p =>
        if f.asked then .next s
        else .next ((s.modFired f.id fun x => { x with asked := true }).sendPacket p
          (.dtrig f.e.grp f.seq f.id f.e.dtrig))

/-- COLLECTIVE_TIMEOUT: the k-th fired entry has not completed within TMO cycles. -/
def execCollectiveTimeout (k : Nat) (s : State) : Out :=
  match s.fired[k]? with
  | none => .next s
  | some f => .next (s.abortHere f.e.grp 2)

end Sys2Proof.Machine
end

