-- ==== Sys2Proof/Machine/Gangstop.lean ====
section
/-! DEFINITION. Stopping a context and resuming it (R191, R299-R305), and retiring a layer (R255,
R369). -/

namespace Sys2Proof.Machine

/-! ### The command and the halt (R299, R300) -/

/-- Context c is being stopped: its command is due or has been received, and it is not yet STOPPED. -/
def State.stopping (s : State) (c : Nat) : Bool :=
  s.cmds.contains (.gangStop c)
    || (s.held.contains c && s.ctxState c == 1 && !s.cmds.contains (.resume c))

/-- The cores that hold a task of a context, and those whose task is not QUEUED again (R299 step 3). -/
def State.coresOf (s : State) (c : Nat) : List Core := s.allCores.filter fun k => k.task.isSome && k.ctx == c
def State.haltsOf (s : State) (c : Nat) : List Core := (s.coresOf c).filter (·.tstate != .queued)

/-- R300: a core halts at its instruction boundary; a wait is abandoned, and a YIELD resumes after
itself. A task that is QUEUED has nothing in flight. -/
def Core.halt (k : Core) : Core :=
  if k.tstate == .queued then k
  else match k.wait with
    | .yield _ => { k.doneHalted with
        pc := k.npc, wait := .none, progress := .none, stalled := false
        tstate := if k.tstate == .parked then .running else k.tstate }
    | _ => k.abandon
def State.haltCore (s : State) (n : Nat) : State := (s.leaveUnits n).modCore n Core.halt

/-- R191: GSTOP asks for the stop and waits until it is done. -/
def execGstop (d : XReg) (s : XSrc) (st : State) : Out :=
  st.privileged (st.guard (d.val :: s.regs) s.cells
    (let c := (st.src s).toNat
     if st.core.progress == .command then
       if st.stopping c then .next st.stall else .next (st.setX d 1).retireMark
     else if 255 < c || st.ctxState c != 1 || st.core.ctx == c || st.stopping c then
       .next (st.setX d 0).retireMark
     else
       let u := { st with cmds := st.cmds ++ [Command.gangStop c] }
       .next ({ u with core := { u.core with progress := .command } }).stall))

/-- GANG_STOP_COMMAND: the dispatchers start no task of c any more, and its cores halt. -/
def execGangStopCommand (c : Nat) (s : State) : Out :=
  s.command (.gangStop c) fun s =>
    (s.haltsOf c).foldl (fun s k => s.haltCore k.num) { s with held := c :: s.held.filter (· != c) }

/-! ### The drain and the save (R301, R302) -/

/-- R108, R301: a slot is free, or its response has been discarded for age, or, behind such a one, its
response has arrived and will be dropped (R352). -/
def RSlot.drained (aged : Bool) (q : Option RSlot) : Bool :=
  match q with
  | none => true
  | some k => k.aged || (aged && k.resp.isSome)

/-- The oldest remote load of core n has lost its response. -/
def State.headAged (s : State) (n : Nat) : Bool :=
  (((s.getCore n).rorder.head?).bind s.slot).any (·.aged)

/-- Everything that core n's task is owed has arrived or is lost, and everything it sent is done. -/
def State.coreDrained (s : State) (k : Core) : Bool :=
  let n := k.num
  k.sb.isEmpty && k.remoteStores.isEmpty
    && !(s.flying.any (·.core == n)) && !(s.acks.any (·.core == n))
    && !(s.terms.any fun t => t.src == .core n)
    && !(((s.layer (layerOf n)).mq ++ (s.sent.map (·.stores)).flatten).any (·.core == n))
    && (k.rorder.isEmpty || s.headAged n)
    && ((s.ligature n).all fun m => (s.getCore m).slots.toList.all (RSlot.drained (s.headAged n)))
    && !(match k.progress with
        | .asked v none => goesOn (bits k.iw.toNat 25 7) v && !(s.lost.any (·.core == n))
        | _ => false)
    && !(s.setups.any (·.core == n)) && !(s.replies.any (·.core == n))
    && !(s.teardowns.any fun t => t.core == n && !t.lost)
    && !(s.requests.any fun r => r.srcPkg == s.pkg && r.core == n) && !(s.responses.any (·.core == n))
    && !(s.walks.any fun w => w.core == n && !w.lost)
    && k.locks.toList.all fun e => (e.map (·.asked.isEmpty)).getD true

/-- R301. -/
def State.ctxDrained (s : State) (c : Nat) : Bool :=
  (s.coresOf c).all s.coreDrained && !(s.flits.any (·.ctx == c))
    && !((s.gateLists ++ s.gateHolds).any (·.ctx == c))

/-- R248: a remote load of a halted core whose response is lost is the instruction to be issued again after
the restore, when it raises AGED; the later ones are aborted. -/
def State.settleAged (s : State) (n : Nat) : State :=
  match ((s.getCore n).rorder.head?).bind s.slot with
  | some k =>
    ((s.agedSlots n).foldl State.freeRSlot s).onCore n fun s =>
      let u := s.abortSlots
      { u with core := u.core.backTo k }
  | none => s

/-- What a core's task has lost. -/
def State.lostOf (s : State) (n : Nat) : List AckClass :=
  ((s.lost.filter (·.core == n)).map (·.cls)) ++ (if s.headAged n then [.load] else [])

/-- R299 step 6: a halted core writes its task to a record; none when no record is free. Its circuits are
torn down and its ligature's members are free (R280). A core that is to be frozen is frozen now, without
the task (R305). -/
def State.saveStopped (s : State) (n : Nat) : Option State :=
  let c := s.getCore n
  (s.freeRecord c.ctx (routerOf n)).map fun r =>
    let gone := s.lostOf n
    let u := (s.dropCircuits n).settleAged n
    let u := { u with lost := u.lost.filter (·.core != n) }
    let u := c.members.foldl (fun (s : State) m => s.modCore m fun k => { k with
      memberOf := none, frozen := false, halted := false }) u
    let u := u.save n r c.tstate true
    let u := u.modCore n fun k => { k with frozen := c.frozen || c.freezeDue }
    let id := (c.task.map (·.id)).getD 0
    let u : State := { u with
      queue := u.queue.filter fun q => !(q.id == id)
      records := u.records.map fun (k : Record) =>
        if k.ctx = c.ctx && k.dom = routerOf n && k.num = r then { k with lost := gone } else k }
    u.refillAll

/-- GANG_STOP_DRAIN_COMPLETE: every task of c that was halted is saved, and c is STOPPED. -/
def execGangStopDrainComplete (c : Nat) (s : State) : Out :=
  if s.held.contains c && s.stopping c && !s.cmds.contains (.gangStop c) && s.ctxDrained c then
    match (s.haltsOf c).foldl (fun (r : Option State) k => r.bind (·.saveStopped k.num)) (some s) with
    | some u => .next (u.setCtxState c 2)
    | none => .next s
  else .next s

/-! ### Resuming (R304) -/

/-- R191: GSTOP.GO. -/
def execGstopGo (d : XReg) (s : XSrc) (st : State) : Out :=
  st.privileged (st.guard (d.val :: s.regs) s.cells
    (let c := (st.src s).toNat
     if 255 < c || st.ctxState c != 2 then .next (st.setX d 0).retireMark
     else
       let u := { st with cmds := st.cmds ++ [Command.resume c] }
       .next ((u.setCtxState c 1).setX d 1).retireMark))

/-- The level of a task that goes back onto its free core at once: above every other task's (R280). -/
def restoreLevel : Nat := 8

/-- Does a task hold core n? -/
def State.taken (s : State) (n : Nat) : Bool := (s.getCore n).task.isSome || (s.getCore n).memberOf.isSome

/-- R280, R304: the task of a record is QUEUED, bound to its home core, until its restore, which comes before
any other start on that core where no task holds it now. -/
def State.requeue (s : State) (k : Record) : State :=
  match k.image.task with
  | some t =>
    if s.queue.any (·.id == t.id) then s
    else
      let q : Task := { t with bound := some k.image.num, saved := true, resident := false }
      { s with queue := s.queue ++ [{ q with level := if s.taken k.image.num then t.pri else restoreLevel }] }
  | none => s

/-- RESUME_COMMAND: the dispatchers start and restore tasks of c again. -/
def execResumeCommand (c : Nat) (s : State) : Out :=
  s.command (.resume c) fun s =>
    let u : State := { s with
      held := s.held.filter (· != c)
      records := s.records.map fun k => if k.ctx = c && k.stop then { k with go := true } else k }
    (u.records.filter fun k => k.ctx == c && k.stop).foldl State.requeue u

/-- R216: the current core's task is composed again with the cores that are idle. -/
def State.recompose (g : Nat) (s : State) : State :=
  let h := largestSize (Nat.min g ((s.idleCores s.core.num).length + 1))
  if h = 1 then s else s.compose h

/-- A restored core goes on where its task was stopped: what it waited for is issued again. -/
def State.release (n : Nat) (s : State) : State :=
  let lost := s.hasLost n
  s.modCore n fun k => { k with wait := .none, watch := none, wakeKept := false, resumed := lost }

/-- RECORD_RESTORE: record `rec` of context c in domain r goes back onto its home core, in its task's turn
(R199, R280). -/
def execRecordRestore (c r rec : Nat) (s : State) : Out :=
  match s.records.find? fun k => k.ctx == c && k.dom == r && k.num == rec && k.stop && k.go with
  | none => .next s
  | some k =>
    let n := k.image.num
    let id := k.image.task.map Task.id
    match s.recordState k with
    | none =>
      let u := { s with queue := s.queue.filter fun q => some q.id != id }
      .next (u.refillAll.refuseRecord k)
    | some _ =>
      if s.eligible n && s.firstServed n && (s.nextTaskFor n).map Task.id == id then
        match s.parkSave n with
        | none => .next s
        | some u =>
          let u := { u with queue := u.queue.filter fun q => some q.id != id }
          let v := (u.refillAll.load k).resend (id.getD 0)
          let owed : List Ack := k.lost.map fun a => { core := n, cls := a }
          let v := { v with lost := v.lost ++ owed }
          .next ((v.onCore n (State.recompose (k.image.members.length + 1))).release n)
      else .next s

/-! ### Retiring a layer (R255, R275, R305, R369) -/

/-- R305: the records of a retired layer are lost with their tasks, which their launches never see end. -/
def State.loseRecords (s : State) (l : Nat) : State :=
  let gone := s.records.filter fun k => layerOf k.image.num == l
  let tasks := gone.filterMap (·.image.task)
  ({ s with
    records := s.records.filter fun k => layerOf k.image.num != l
    queue := s.queue.filter fun q => !(tasks.any (·.id == q.id))
    overflow := s.overflow.filter fun o => !(tasks.any (·.id == o.entry.task))
    orphans := (s.orphans ++ tasks.map Task.launch).eraseDups }).refillAll

/-- LAYER_RETIRE_COMMAND: the slots are freed, the wells are destroyed, records there are lost, and so are
the row and column links that the layer held. Its vertical path stays as it is (R255, R359). -/
def execLayerRetireCommand (l : Nat) (s : State) : Out :=
  s.command (.retire l) fun s =>
    if (s.layer l).state = .asleep then
      let u := s.modLayer l fun y => { y with state := .retired, waking := none }
      let u := { u with
        slotmap := u.slotmap.map fun (x : BitVec 4) => if x.toNat = l then 15#4 else x
        deadLinks := u.deadLinks.filter fun x => layerOfRouter x.1 != l || decide (10 ≤ x.2) }
      (((u.loseRecords l).destroyWells l).postError { code := 0x13, layer := l, detail := l }).layerIs l .retired
    else s

end Sys2Proof.Machine
end

