-- ==== Sys2Proof/Machine/Gates.lean ====
section
/-! DEFINITION. Gate groups, their lists in the routers, and dispatching tokens to experts
(R182-R184, R345-R348). -/

namespace Sys2Proof.Machine

/-! ### Lists (R182, R345) -/

/-- The pairs that GATEK sends: lanes 2m and 2m + 1 for m < K, the index plus OFF. -/
def gatePairs (v : Vector Lane 64) (k off : Nat) : List (Nat × Nat) :=
  (List.range k).filterMap fun m =>
    let i := v.toList.getD (2 * m + 1) 0
    if i = BitVec.allOnes 32 then none
    else some ((v.toList.getD (2 * m) 0).toNat, (i.toNat + off) % 2 ^ 32)

/-- R183: a pair stands before another: the greater value, then the lower index. -/
def pairBefore (a b : Nat × Nat) : Bool :=
  let x := rank (BitVec.ofNat 32 a.1)
  let y := rank (BitVec.ofNat 32 b.1)
  decide (y < x) || (x == y && decide (a.2 < b.2))

/-- Put a pair where it belongs. -/
def insertPair (a : Nat × Nat) : List (Nat × Nat) → List (Nat × Nat)
  | [] => [a]
  | b :: t => if pairBefore a b then a :: b :: t else b :: insertPair a t

/-- The pairs in order. -/
def rankPairs (l : List (Nat × Nat)) : List (Nat × Nat) := l.foldr insertPair []

/-- R182: GATEK sends its list toward ROOT. -/
def execGatek (v : VReg) (t : XSrc) (st : State) : Out :=
  st.guard t.regs (cellV v.val :: t.cells)
    (let x := st.src t
     let d := x.toNat
     let k := bits d 24 4
     if bits d 48 16 ≠ 0 || bits d 28 4 ≠ 0 || bits d 13 3 ≠ 0 || k = 0 || 8 < k || numCores ≤ bits d 0 13 then
       st.trap .addr x
     else if !st.holds st.core.ctx (·.gg) (bits d 16 8) then st.trap .prot (BitVec.ofNat 64 (bits d 16 8))
     else st.vmu
       (let l : GateList := {
          ctx := st.core.ctx, g := bits d 16 8, root := bits d 0 13
          pairs := rankPairs (gatePairs st.core.v[v] k (bits d 32 16)), at_ := routerOf st.core.num }
        .next ({ st with gateLists := st.gateLists ++ [l] }).retireMark))

def State.gate? (s : State) (ctx g root : Nat) : Option Gate :=
  s.gates.find? fun x => x.ctx == ctx && x.g == g && x.root == root
def State.dropGate (s : State) (x : Gate) : State :=
  { s with gates := s.gates.filter fun y => !(y.ctx == x.ctx && y.g == x.g && y.root == x.root) }

/-- R182: GATEK.OPEN makes the core the root of a group. With another bit of X[rt] set it opens none
(DESIGN CHOICE, log entry 88). -/
def execGatekOpen (d : XReg) (s t : XSrc) (st : State) : Out :=
  st.guard (d.val :: (s.regs ++ t.regs)) (s.cells ++ t.cells)
    (let x := st.src s
     let y := (st.src t).toNat
     if 256 ≤ x.toNat || !st.holds st.core.ctx (·.gg) x.toNat then st.trap .prot x
     else
       let m := bits y 0 16
       let k := bits y 16 4
       if (st.gates.any fun z => z.ctx == st.core.ctx && z.g == x.toNat) || y / 2 ^ 20 ≠ 0 || m = 0 || 4096 < m
           || k = 0 || 8 < k then
         .next (st.setX d 0).retireMark
       else
         let z : Gate := { ctx := st.core.ctx, g := x.toNat, root := st.core.num
                           task := (st.core.task.map (·.id)).getD 0, m := m, k := k }
         .next (({ st with gates := st.gates ++ [z] }).setX d 1).retireMark)

/-- Two lists belong to one group. -/
def GateList.same (a b : GateList) : Bool := a.ctx == b.ctx && a.g == b.g && a.root == b.root

/-- R345: the top 8 of the union, and the sum of the counts. -/
def GateList.merge (a b : GateList) : GateList :=
  { a with pairs := (rankPairs (a.pairs ++ b.pairs)).take 8, count := a.count + b.count }

/-- R241: the list leaves its router for the next one toward its root. -/
def GateList.onward (l : GateList) : GateList :=
  { l with at_ := (((routePath l.at_ (routerOf l.root)).drop 1).head?).getD numRouters }

/-- The router a list is at and the next one of its route. -/
def GateList.hop (l : GateList) : List Nat := (routePath l.at_ (routerOf l.root)).take 2

/-- GATE_LIST_AT_ROUTER: the k-th list at the router it has come to: it is merged, takes a slot, or
goes on. -/
def execGateListAtRouter (k : Nat) (s : State) : Out :=
  match s.gateLists[k]? with
  | none => .next s
  | some l =>
    if l.at_ = numRouters then .next s
    else s.onRoute l.hop
     (let u := { s with gateLists := s.gateLists.eraseIdx k }
      if u.gateHolds.any fun h => h.at_ == l.at_ && h.same l then
        .next { u with gateHolds := u.gateHolds.map fun h =>
          if h.at_ = l.at_ && h.same l then h.merge l else h }
      else if (u.gateHolds.filter (·.at_ == l.at_)).length < 8 then
        .next { u with gateHolds := u.gateHolds ++ [l] }
      else .next { u with gateLists := u.gateLists ++ [l.onward] })

/-- GATE_LIST_HOLD_EXPIRY: the k-th held list goes on. -/
def execGateListHoldExpiry (k : Nat) (s : State) : Out :=
  match s.gateHolds[k]? with
  | none => .next s
  | some l => s.onRoute l.hop
      (.next { s with gateHolds := s.gateHolds.eraseIdx k, gateLists := s.gateLists ++ [l.onward] })

/-! ### The result (R183) -/

/-- A kept weight: round(v / S), and 1 / k where S does not serve. A zero's quotient is a zero of its sign
(DEDUCED, log entry 114). -/
def gateWeight (k v : Nat) (sum : FV) : Nat :=
  match fmtF32.value v, sum with
  | .fin n 0 _, .fin _ _ _ => fmtF32.zero n
  | .fin n m e, .fin _ m' e' => (fmtF32.round .rne n m m' (e - e')).code
  | _, _ => (fmtF32.round .rne false 1 k 0).code

/-- R183 step 2: the weights of the kept values, and GATEZ. -/
def gateWeights (k : Nat) (vs : List Nat) : List Nat × Bool :=
  let sum := (vs.map fmtF32.value).foldl (FV.add .rne) (.fin false 0 0)
  let good : Bool := match sum with
    | .fin false m _ => m != 0
    | _ => false
  if good then (vs.map fun v => gateWeight k v sum, false)
  else (vs.map fun _ => (fmtF32.round .rne false 1 k 0).code, true)

/-- R183: the result flit of a group that has closed. -/
def Gate.result (x : Gate) (pkg : Nat) : Flit :=
  let kept := (rankPairs x.pairs).take x.k
  let w := gateWeights x.k (kept.map (·.1))
  let words := ((w.1.zip kept).map fun p => BitVec.ofNat 64 (p.2.2 + 2 ^ 32 * p.1))
    ++ List.replicate (8 - kept.length) (BitVec.ofNat 64 0xFFFF_FFFF)
  { words := words, qdst := BitVec.ofNat 64 (x.root + (0x8000 + 0x4000 * w.2.toNat + x.g) * 2 ^ 24)
    srcPkg := pkg, ctx := x.ctx, gateTo := some x.task }

/-- GATE_LIST_AT_ROOT: the k-th list at its root. With the M-th the group closes. -/
def execGateListAtRoot (k : Nat) (s : State) : Out :=
  match s.gateLists[k]? with
  | none => .next s
  | some l =>
    if l.at_ ≠ numRouters then .next s
    else
      let u := { s with gateLists := s.gateLists.eraseIdx k }
      match u.gate? l.ctx l.g l.root with
      | none => .next u
      | some x =>
        if x.m < x.got + l.count then .next u
        else
          let y := { x with got := x.got + l.count, pairs := x.pairs ++ l.pairs }
          let v := u.dropGate x
          .next (if y.got = y.m then { v with flits := v.flits ++ [y.result s.pkg] }
            else { v with gates := v.gates ++ [y] })

/-! ### Dispatching a token (R184, R346-R348) -/

/-- An entry of the expert table. -/
def expertBase (e : Nat) : Nat := 0x0030_0000 + 32 * e
def State.expCap (s : State) (e : Nat) : Nat := s.reg (expertBase e + 8) 4
def State.expVlen (s : State) (e : Nat) : Nat := bits (s.reg (expertBase e + 12) 2) 0 10
def State.expSize (s : State) (e : Nat) : Nat := if s.reg (expertBase e + 14) 1 = 1 then 2 else 4
def State.expCore (s : State) (e : Nat) : Nat := bits (s.reg (expertBase e + 16) 2) 0 13
def State.expCnt (s : State) (e : Nat) : Nat := s.reg (expertBase e + 20) 4
/-- Bytes of a token's vector. -/
def State.expLen (s : State) (e : Nat) : Nat := 64 * s.expVlen e * s.expSize e
/-- Where slot n begins. -/
def State.expSlot (s : State) (e n : Nat) : Word :=
  BitVec.ofNat 64 (s.reg (expertBase e) 8 + n * (64 + (s.expLen e + 63) / 64 * 64))

/-- R346: the context may dispatch to the expert through the root its block names. -/
def State.expertOk (s : State) (ctx e root : Nat) : Bool :=
  decide (e < 4096) && bits (s.reg (expertBase e + 16) 2) 15 1 == 1 && s.reg (expertBase e + 15) 1 == ctx
    && root == s.expCore e && decide (1 ≤ s.expVlen e) && decide (s.expVlen e ≤ 512)

/-- Is the expert's buffer in another package's space? -/
def State.expGlobal (s : State) (e : Nat) : Bool := bits (s.reg (expertBase e) 8) 63 1 == 1

/-- DISPATCH with its block read: the vector is taken, and the slot is asked for. -/
def State.askSlot (st : State) (d : XReg) (x : Word) (b : List Byte) : Out :=
  let e := fieldOf b 8 4
  let root := fieldOf b 12 4
  if root / 2 ^ 13 ≠ 0 || !st.expertOk st.core.ctx e root then st.trap .addr x
  else
    let a := BitVec.ofNat 64 (fieldOf b 0 8)
    let n := st.expLen e
    st.takeBytes (st.expSize e) a n (st.settled (if st.expGlobal e then .system else .package)) fun st bs =>
        let r : SlotReq := { core := st.core.num, d := d, ctx := st.core.ctx, exp := e
                             well := BitVec.ofNat 64 (fieldOf b 16 8), tag := BitVec.ofNat 64 (fieldOf b 24 8)
                             data := bs }
        let u := { st.stall with slotReqs := st.slotReqs ++ [r] }
        .next { u with core := { u.core with progress := .asked 1 none } }

/-- R184. SRC is aligned to an element (DESIGN CHOICE, log entry 112). -/
def execDispatch (d : XReg) (s : XSrc) (st : State) : Out :=
  match st.core.progress with
  | .asked 1 _ => .next st.stall
  | _ => st.guard (d.val :: s.regs) s.cells
      (let x := st.src s
       match st.spaceOf x.toNat with
       | .loc _ =>
         if x.toNat % 32 ≠ 0 then st.trap .addr x
         else st.access {} x 32 fun segs => st.askSlot d x (st.loadSegs segs)
       | _ => st.trap .addr x)

/-- The DISPATCH of a request is done. -/
def State.endDispatch (s : State) (r : SlotReq) (v : Word) : State :=
  let u := { s with slotReqs := s.slotReqs.filter (·.core != r.core) }
  u.onCore r.core fun s => ((s.setX r.d v).retireMark).afterInstr

/-- R347: the expert is over capacity: the token is absent. -/
def State.rejectToken (s : State) (r : SlotReq) : State :=
  let u := match s.wellOf r.ctx r.well with
    | some w => if w.badAbsent r.tag then none else some (s.absent r.well r.tag)
    | none => none
  (u.getD (s.postError { code := 0x0B, ctx := some r.ctx
                         detail := r.well.toNat + 2 ^ 64 * r.tag.toNat })).endDispatch r (BitVec.allOnes 64)

/-- R348: the header of a slot but READY, with zeros up to it. -/
def State.slotHeader (s : State) (r : SlotReq) : List Byte :=
  bytesOf 8 r.well.toNat ++ bytesOf 8 r.tag.toNat ++ bytesOf 2 s.pkg ++ bytesOf 2 r.core ++ bytesOf 36 0

/-- A store of core n's network interface to another package. -/
def State.niStore (s : State) (n ctx pkg va : Nat) (bs : List Byte) : State :=
  (s.modCore n fun c => { c with remoteStores := c.remoteStores ++ [(pkg, va, bs.length)] }).sendRequest
    { pkg := pkg, srcPkg := s.pkg, ctx := ctx, core := n, va := va, op := .write bs }

/-- A page of the slot is not resident. The slot is taken, so the region cannot run again: the fault is
recorded, or joins the page's record, once, and the DISPATCH waits for the page (log entry 94). -/
def State.slotAbsent (s : State) (k : Nat) (r : SlotReq) (asid vpn : Nat) : State :=
  if r.missed == some vpn && s.faults.any (fun f => f.2.1 == asid && f.2.2 == vpn) then s
  else
    let u := s.fault asid vpn r.ctx 4 none
    { u with slotReqs := u.slotReqs.set k { r with missed := some vpn } }

/-- The DISPATCH of a request is denied at the slot. -/
def State.slotDenied (s : State) (r : SlotReq) (a : Word) : State :=
  ({ s with slotReqs := s.slotReqs.filter (·.core != r.core) }).onCore r.core fun s => s.takeTrap .prot a

/-- The vector and the header are written in a slot of this package's space, and READY last of all, as a
release at SYSTEM scope (R348). -/
def State.fillSlot (s : State) (k : Nat) (r : SlotReq) (n : Nat) : State :=
  let a := s.expSlot r.exp n
  let asid := s.ctxAsid r.ctx
  let at_ (o n : Nat) : List (Home × Nat) := match s.reach r.core asid .store (a + BitVec.ofNat 64 o) n with
    | .ok segs => segs
    | _ => []
  if r.sent && !(s.focus r.core).settled .system then s
  else match s.reach r.core asid .store a (64 + r.data.length) with
  | .ok _ =>
    let u := s.markPages (some (routerOf r.core)) asid a (64 + r.data.length) true
    if r.sent then
      (u.engineWrite r.core (at_ 56 8) (bytesOf 8 (n + 1)) []).endDispatch r (BitVec.ofNat 64 n)
    else
      let v := (u.engineWrite r.core (at_ 0 56) (s.slotHeader r) []).engineWrite r.core
        (at_ 64 r.data.length) r.data []
      { v with slotReqs := s.slotReqs.set k { r with sent := true } }
  | .absent vpn => s.slotAbsent k r asid vpn
  | .malformed off vpn =>
    let u := s.malformed asid vpn
    match u.walkTables asid vpn with
    | .hit _ _ => ({ u with slotReqs := u.slotReqs.filter (·.core != r.core) }).onCore r.core fun s =>
        s.violate 5 19 (a + BitVec.ofNat 64 off)
    | _ => u.slotDenied r (a + BitVec.ofNat 64 off)
  | .denied off => s.slotDenied r (a + BitVec.ofNat 64 off)
  | _ => s

/-- The same in another package's space: READY follows once the rest is acknowledged. -/
def State.fillRemote (s : State) (k : Nat) (r : SlotReq) (n : Nat) : State :=
  let a := (s.expSlot r.exp n).toNat
  let pkg := bits a 53 10
  let va := bits a 0 53
  if !r.sent then
    let u := { s with slotReqs := s.slotReqs.set k { r with sent := true } }
    (u.niStore r.core r.ctx pkg va (s.slotHeader r)).niStore r.core r.ctx pkg (va + 64) r.data
  else if (s.getCore r.core).remoteStores.isEmpty && !(s.lost.any (·.core == r.core)) then
    (s.niStore r.core r.ctx pkg (va + 56) (bytesOf 8 (n + 1))).endDispatch r (BitVec.ofNat 64 n)
  else s

/-- R347: an earlier request for a slot has reached the same RCORE. -/
def State.slotBefore (s : State) (k : Nat) (r : SlotReq) : Bool :=
  (s.slotReqs.take k).any fun q => q.answer.isNone && s.expCore q.exp == s.expCore r.exp

/-- The route of a slot request to its expert's RCORE (R347). -/
def State.slotRoute (s : State) (r : SlotReq) : List Nat := routePath (routerOf r.core) (routerOf (s.expCore r.exp))

/-- DISPATCH_SLOT_REQUEST: the k-th request gets its slot or is rejected, and then its vector goes to
the slot. -/
def execDispatchSlotRequest (k : Nat) (s : State) : Out :=
  match s.slotReqs[k]? with
  | none => .next s
  | some r =>
    match r.answer with
    | none =>
      if s.slotBefore k r then .next s
      else s.onRoute (s.slotRoute r)
       (let n := s.expCnt r.exp
        if n < s.expCap r.exp then
          .next { s with mmio := s.mmio.writeN (expertBase r.exp + 20) 4 (n + 1)
                         slotReqs := s.slotReqs.set k { r with answer := some n } }
        else .next (s.rejectToken r))
    | some n => .next (if s.expGlobal r.exp then s.fillRemote k r n else s.fillSlot k r n)

end Sys2Proof.Machine
end

