-- ==== Sys2Proof/Machine/Health.lean ====
section
/-! DEFINITION. Bit errors, scrubbing and the corrected-error counters (R354-R358), the error ring's
ERDROP (R360), the power manager's samples (R378-R380), and the size of the well areas (R220). -/

namespace Sys2Proof.Machine

/-! ### Bit errors (R354, R356-R358) -/

/-- A place named by any byte of its 16-byte part. The mirrored region itself names the base die's copy. -/
def placeNorm : Place → Place
  | .vault a => .vault (a / 16 * 16)
  | .hbm a => .hbm (a / 16 * 16)
  | .mirror a => .mirrorCopy 12 (a / 16 * 16)
  | .mirrorCopy l a => .mirrorCopy (Nat.min l 12) (a / 16 * 16)
  | .cache a => .cache (a / 16 * 16)
  | .table a => .table (a / 16 * 16)
  | .localMem c a => .localMem c (a / 16 * 16)
  | .reg c o => .reg c (if isPart o then o / 16 * 16 else o)
  | p => p

/-- The layer that a place lies on, 12 for the base die. -/
def placeLayer : Place → Nat
  | .vault a => layerOfRouter (a / 2 ^ 21)
  | .localMem c _ => layerOf c
  | .reg c _ => layerOf c
  | .wellCell h _ _ _ => layerOfRouter h
  | .mirrorCopy l _ => l
  | _ => 12

/-- The part whose data an uncorrectable error spoils: a memory-side cache holds data of its memory. -/
def placePart : Place → Place
  | .cache a => .hbm a
  | p => p

/-- R357: does the scrubber read it? -/
def placeScrubbed : Place → Bool
  | .vault _ => true
  | .mirrorCopy _ _ => true
  | .cache _ => true
  | .table _ => true
  | .wellCell _ _ _ _ => true
  | _ => false

/-- R357: the errors counted on layer l in the present window. -/
def State.inWindow (s : State) (l : Nat) : Nat := ((s.corrected.find? (·.1 == l)).map (·.2)).getD 0

/-- R357: one corrected error: CEC_l saturates at 2^32 - 1. -/
def State.countCorrected (s : State) (l : Nat) : State :=
  { s with
    corrected := (l, s.inWindow l + 1) :: s.corrected.filter (·.1 != l)
    mmio := s.mmio.writeN (0x0051_0000 + 8 * l) 4 (Nat.min (2 ^ 32 - 1) (s.reg (0x0051_0000 + 8 * l) 4 + 1)) }

/-- The record of an uncorrectable error: 0x03 for HBM, 0x02 for SRAM (R358, R361). The array number and
the address of a well's cell are free values. -/
def State.uncorrectable (s : State) (p : Place) : State :=
  let v := (Config.freeNat s.free).toNat
  let u : State := { s with free := s.free + 1 }
  let r : ErrRec := { code := 2, poisoned := true, layer := placeLayer p, detail := v % 2 ^ 32 }
  match p with
  | .hbm a => u.postError { r with code := 3, addr := a, detail := a / 2 ^ 36 }
  | .vault a => u.postError { r with addr := 0x1000_0000_0000_0000 + a }
  | .mirror a => u.postError { r with addr := 0x3000_0000_0000_0000 + a }
  | .mirrorCopy _ a => u.postError { r with addr := 0x3000_0000_0000_0000 + a }
  | .table a => u.postError { r with addr := 0x4000_0000_0000_0000 + a }
  | .cache a => u.postError { r with addr := a }
  | .coil _ _ => s
  | .queue _ => u.postError { r with addr := v }
  | .localMem _ a => u.postError { r with addr := 0x2000_0000_0000_0000 + a }
  | .reg c o => u.postError { r with addr := (cellAddr c o).toNat }
  | .wellCell _ _ _ _ => u.postError { r with addr := v }

/-- What an uncorrectable error spoils: its part, or the store that stands in a queue of the base die, with which
its poison travels (R354). A coil channel holds no data: slots carry their own CRC (R253). -/
def State.spoil (s : State) (p : Place) : State :=
  match p with
  | .queue k => { s with baseq := s.baseq.modify k fun m => { m with poisoned := true } }
  | .coil _ _ => s
  | p => { s with poison := (s.poison ++ [placePart p]).eraseDups }

/-- SOFT_ERROR: a word that the scrubber reads waits for it; a correctable error elsewhere is corrected,
by the stack in HBM; an uncorrectable one poisons its part. -/
def execSoftError (p : Place) (unc : Bool) (s : State) : Out :=
  let p := placeNorm p
  let s : State := { s with failing := (s.failing ++ [p]).eraseDups }
  let s := if unc then s.spoil p else s
  .next (if placeScrubbed p then { s with struck := s.struck ++ [(p, unc)] }
    else if unc then s.uncorrectable p
    else match p with
      | .hbm _ => s
      | .coil _ _ => s
      | _ => s.countCorrected (placeLayer p))

/-- What the scrubber does about one error that it meets. A store over the whole part has cured it. -/
def State.scrub (s : State) (p : Place) (unc : Bool) : State :=
  if !unc then s.countCorrected (placeLayer p)
  else if s.poison.contains (placePart p) then s.uncorrectable p else s

/-- SCRUB_READ. -/
def execScrubRead (p : Place) (s : State) : Out :=
  let p := placeNorm p
  let mine := s.struck.filter (·.1 == p)
  .next (mine.foldl (fun s e => s.scrub p e.2) { s with struck := s.struck.filter (·.1 != p) })

/-- CEC_CLEAR: any value written to CEC_l clears it. -/
def execCecClear (l : Nat) (s : State) : Out :=
  .next (if l ≤ 12 then { s with mmio := s.mmio.clear (0x0051_0000 + 8 * l) 8 } else s)

/-- CEC_WINDOW_END: one record where the window's count exceeds a CETH that is not 0. -/
def execCecWindowEnd (l : Nat) (s : State) : Out :=
  let n := s.inWindow l
  let th := s.reg 0x0051_0080 4
  let u : State := { s with corrected := s.corrected.filter (·.1 != l) }
  .next (if th != 0 && decide (th < n) then
      u.postError { code := 1, layer := l, detail := Nat.min (2 ^ 32 - 1) n }
    else u)

/-! ### Temperature (R378-R380) -/

/-- R379: the derate of a temperature in °C and a voltage in units of 5 mV. -/
def derateOf (temp vdd : Nat) : Nat :=
  let dt := if temp < 70 then 0 else if temp < 85 then 1 else if temp < 95 then 2 else 3
  let dv := if 148 ≤ vdd then 0 else if 144 ≤ vdd then 1 else if 140 ≤ vdd then 2 else 3
  Nat.min 7 (dt + dv)

/-- TEMPERATURE_SAMPLE: TSENSl holds the sample; the base die's D reads 0 (R380). -/
def execTemperatureSample (l temp vdd : Nat) (s : State) : Out :=
  let d := if l < 12 then derateOf temp vdd else 0
  .next (if l ≤ 12 then
      { s with mmio := s.mmio.writeN (0x0052_0000 + 8 * l) 8 (temp % 256 + d * 2 ^ 8 + vdd % 256 * 2 ^ 16) }
    else s)

/-- THERMAL_LIMIT: timing only (R378). -/
def execThermalLimit (l : Nat) (s : State) : Out := .next (s.modLayer l fun k => { k with limited := true })
/-- THERMAL_LIMIT_LIFT. -/
def execThermalLimitLift (l : Nat) (s : State) : Out := .next (s.modLayer l fun k => { k with limited := false })

/-! ### Well areas (R220) -/

/-- The area would overlap the save area of a context that is not FREE; save areas lie in slice 1. -/
def State.overSaves (s : State) (slice n : Nat) : Bool :=
  slice == 1 && (List.range 256).any fun c => s.ctxState c != 0
    && decide (2 ^ 20 - n * 65536 < s.saveAt c + s.saveLen c) && s.saveLen c != 0

/-- The storage of the allocated wells fits an area of n units. -/
def State.wellsFit (s : State) (r slice n : Nat) : Bool :=
  (List.range 16).all fun b => decide (bytesIn s.bankUses r (16 * slice + b) ≤ n * 4096)

/-- WAREA_WRITE: N of a slice of router r. -/
def execWareaWrite (r slice n : Nat) (s : State) : Out :=
  let k := 2 * r + slice
  let old := s.reg (0x0053_0000 + 8 * k) 8 % 32
  .next (if numRouters ≤ r || 2 ≤ slice || 16 < n then s
    else if (s.layer (layerOfRouter r)).state == .retired || s.overSaves slice n then s
    else if !s.wellsFit r slice n then s
    else
      let lo := k * 2 ^ 20 + 2 ^ 20 - old * 65536
      let u : State := { s with mmio := s.mmio.writeN (0x0053_0000 + 8 * k) 8 n }
      if n < old then
        { u with vault := u.vault.clear lo ((old - n) * 65536)
                 poison := clearPoison u.poison (.vault lo) ((old - n) * 65536) }
      else u)

end Sys2Proof.Machine
end

