-- ==== Sys2Proof/Machine/Links.lean ====
section
/-! DEFINITION. The package's links: packets from and to other packages, failed peers, the second tier,
host accesses, and packets that die of age (R247, R325-R334, R363, R374). -/

namespace Sys2Proof.Machine

/-! ### Sending (R329, R363, R374) -/

/-- The enclave that holds a group key by number. -/
def State.keyHolder (s : State) (kn : Nat) : Option Enclave :=
  s.enclaves.find? fun e => (e.key.map (·.1)) == some kn || (e.old.map (·.1)) == some kn
/-- R374: the packets that this package has sent under one of an enclave's two keys. -/
def Enclave.counter (e : Enclave) (kn : Nat) : Nat :=
  if (e.key.map (·.1)) == some kn then e.nonce else e.oldNonce
/-- One more is sent. -/
def Enclave.count (e : Enclave) (kn : Nat) : Enclave :=
  if (e.key.map (·.1)) == some kn then { e with nonce := e.nonce + 1 } else { e with oldNonce := e.oldNonce + 1 }
def State.putEnclave (s : State) (e : Enclave) : State :=
  { s with enclaves := s.enclaves.map fun x => if x.id = e.id then e else x }

/-- R363: some port of the mask for a package is in service. -/
def State.linkUp (s : State) (p : Nat) : Bool :=
  (List.range 16).any fun i => bits (s.route p) i 1 == 1 && !s.frozen.contains (3, i)

/-- The group of a collective packet. -/
def Body.group : Body → Option Nat
  | .part p => some p.grp
  | .partAck g _ _ _ => some g
  | .dtrig g _ _ _ => some g
  | .dtrigAck g _ _ => some g
  | .abortReq g _ _ _ => some g
  | .abort g _ _ _ => some g
  | .abortAck g _ _ => some g
  | .abortDone g _ => some g
  | _ => none

/-- The package that a message leaves for; none for the host. -/
def OutMsg.dest : OutMsg → Option Nat
  | .flit p _ => some p
  | .request r => some r.pkg
  | .response p _ => some p
  | .packet p _ _ _ => some p
  | _ => none

/-- What a message carries to another package. -/
def OutMsg.body : OutMsg → Option Body
  | .flit _ f => some (.flit f)
  | .request r => some (.request r)
  | .response _ r => some (.response r)
  | .packet _ _ _ b => some b
  | _ => none

/-- Which key a message goes out under: none where it goes in the clear; a key number, or 0 where its
enclave has no key now. -/
def State.keyFor (s : State) (m : OutMsg) : Option Nat :=
  let ofCtx (c : Nat) : Option Nat := (s.enclaveOf c).map fun e => (e.key.map (·.1)).getD 0
  match m with
  | .flit _ f => ofCtx f.ctx
  | .request r => ofCtx r.ctx
  | .response _ r => r.encl.map fun id => (((s.enclaves.find? (·.id == id)).bind (·.key)).map (·.1)).getD 0
  | .packet _ 0 _ b => (b.group.map fun g => s.reg (groupBase g + 56) 1).filter (· != 0)
  | _ => none

/-- R363: a message for the host waits for a frozen host link, and an MSI-X message for its frozen
function. -/
def State.hostWaits (s : State) (m : OutMsg) : Bool :=
  s.frozen.contains (3, 20) || (match m with
    | .msix f _ => s.frozen.contains (4, f)
    | _ => false)

/-- Send one message: under its key with the next nonce, or not yet, or never once the counter of its
key is used up (R374). -/
def State.sealOne (s : State) (m : OutMsg) : State :=
  match m.dest, m.body with
  | some p, some b =>
    if !s.linkUp p then { s with pent := s.pent ++ [m] }
    else match s.keyFor m with
      | none => { s with out := s.out ++ [m] }
      | some kn => match s.keyHolder kn with
        | none => { s with pent := s.pent ++ [m] }
        | some e =>
          if 2 ^ 64 ≤ e.counter kn then s.postError { code := 0x14, detail := kn }
          else
            let u := s.putEnclave (e.count kn)
            { u with out := u.out ++ [.packet p kn (e.counter kn) b] }
  | _, _ => if s.hostWaits m then { s with pent := s.pent ++ [m] } else { s with out := s.out ++ [m] }

/-- What a step has sent beyond the first n messages goes on its way; what could not leave before is
tried again. -/
def State.seal (s : State) (n : Nat) : State :=
  if s.out.length = n && s.pent.isEmpty then s
  else (s.pent ++ s.out.drop n).foldl State.sealOne { s with out := s.out.take n, pent := [] }

/-! ### Losing a peer (R334, R248) -/

/-- A held slot's access goes to this package. -/
def RSlot.toPkg (p : Nat) (k : RSlot) : Bool := bits k.addr.toNat 53 10 == p

/-- R248: what core c has outstanding with package p is gone: slots are aged, and the acknowledgements
and answers that will not come are lost. -/
def Core.losePeer (p : Nat) (c : Core) : Core :=
  { c with
    slots := c.slots.map fun q => q.bind fun k =>
      if k.toPkg p && k.resp.isNone then (if k.dead then none else some { k with aged := true }) else some k
    remoteStores := c.remoteStores.filter (·.1 != p), unsent := c.unsent.filter (·.pkg != p)
    locks := c.locks.map fun e => e.map fun k =>
      if bits k.src.toNat 53 11 = 1024 + p || bits k.dst.toNat 53 11 = 1024 + p then { k with asked := [] } else k }

/-- The acknowledgements that core c will not get from package p. -/
def Core.lostAcks (p : Nat) (c : Core) : List Ack :=
  let parts := (c.locks.toList.filterMap id).any fun k => !k.asked.isEmpty
    && (bits k.src.toNat 53 11 == 1024 + p || bits k.dst.toNat 53 11 == 1024 + p)
  let asks := match c.progress with
    | .asked _ none => c.asking == some p
    | _ => false
  ((c.remoteStores.filter (·.1 == p)).map fun _ => { core := c.num, cls := .remote })
    ++ (if parts then [{ core := c.num, cls := .check }] else [])
    ++ (if asks then [{ core := c.num, cls := .check }] else [])

/-- The context that a message belongs to, where it has one. -/
def State.msgCtx (s : State) (m : OutMsg) : Option Nat :=
  match m with
  | .flit _ f => some f.ctx
  | .request r => some r.ctx
  | .packet _ _ _ b => b.group.map s.groupCtx
  | _ => none

/-- What the cores whose context is among these have outstanding with a package is discarded, what waits
to leave for it included. -/
def State.losePeerIn (s : State) (p : Nat) (ok : Nat → Bool) : State :=
  let f (c : Core) : Core := if ok c.ctx then c.losePeer p else c
  { s with
    pent := s.pent.filter fun m => !(m.dest == some p && ((s.msgCtx m).map ok).getD true)
    lost := s.lost ++ ((s.allCores.filter fun c => ok c.ctx).map (Core.lostAcks p)).flatten
    core := f s.core, others := s.others.map f }
/-- Everything outstanding with a package is discarded. -/
def State.losePeer (s : State) (p : Nat) : State := s.losePeerIn p fun _ => true

/-- UE_PEER_FAILURE. -/
def execUePeerFailure (p : Nat) (s : State) : Out :=
  let u := (s.postError { code := 0x0E, detail := p }).losePeer p
  .next (({ u with failedPeers := (p :: u.failedPeers).eraseDups }).abortPeer p 3 false)

/-- R334: an AEAD failure. -/
def State.aeadFailure (s : State) (p kn : Nat) : State :=
  let u := (s.postError { code := 0x0F, detail := p + 2 ^ 16 * kn }).losePeer p
  u.abortPeer p 4 false

/-! ### Receiving (R333, R334, R335) -/

/-- One of the machine's own steps is due. -/
def State.await (s : State) (i : Instr) : State := { s with due := s.due ++ [.event i] }

/-- R329: what an accepted packet does. -/
def State.accept (s : State) (p : Packet) : State :=
  match p.body with
  | .request r => { s with requests := s.requests ++ [{ r with
      srcPkg := p.src, key := p.key, encl := if p.key = 0 then none else (s.keyHolder p.key).map (·.id) }] }
  | .response r => { s with responses := s.responses ++ [{ r with pkg := p.src }] }
  | .flit f => { s with flits := s.flits ++ [if f.bounce then f else { f with srcPkg := p.src }] }
  | .part q => { s with parts := s.parts ++ [{ q with pkg := p.src }] }
  | .partAck g q id _ =>
    if s.inSequence g q then s.modFired id fun f => { f with left := f.left - 1 } else s.drop
  | .dtrig g q id num =>
    if s.inSequence g q then (s.raiseTrigger (s.groupCtx g) num 1).sendPacket p.src (.dtrigAck g q id)
    else s.drop
  | .dtrigAck g q id => if s.inSequence g q then s.modFired id fun f => { f with done := true } else s.drop
  | .abortReq g q r k => s.await (.abortReqReceive g q r k)
  | .abort g q r k => s.await (.abortReceive g q r k)
  | .abortAck g q k => if s.groupSt g = 2 && s.groupSeq g = q then s.await (.abortAckReceive g k) else s.drop
  | .abortDone g q => s.await (.abortDoneReceive g q)
  | .groupKey e kn w => ({ s with keyBox := s.keyBox ++ [(e, kn, p.src, w)] }).await (.groupKeyReceive kn)
  | .revocation e ep c sigs => s.await (.revocationMessageReceive e ep c sigs)
  | .quote e q c =>
    let older := s.quotes.filter fun (x : Nat × Nat × List Byte × List Byte) => !(x.1 == p.src && x.2.1 == e)
    ({ s with quotes := older ++ [(p.src, e, q, c)] }).await .policy
  | .agree e pub sig =>
    let older := s.agreed.filter fun (x : Nat × Nat × List Byte × List Byte) => !(x.1 == p.src && x.2.1 == e)
    ({ s with agreed := older ++ [(p.src, e, pub, sig)] }).await .policy

/-- Consecutive authentication failures of a peer. -/
def State.badFrom (s : State) (p : Nat) : Nat := ((s.badAuth.find? (·.1 == p)).map (·.2)).getD 0
def State.setBadFrom (s : State) (p n : Nat) : State :=
  { s with badAuth := (if n = 0 then [] else [(p, n)]) ++ s.badAuth.filter (·.1 != p) }

/-- The enclave that a packet in the clear concerns: its own business, or one of a context bound to it. -/
def State.bodyEnclave (s : State) : Body → Option Enclave
  | .groupKey id _ _ => s.enclaves.find? (·.id == id)
  | .revocation id _ _ _ => s.enclaves.find? (·.id == id)
  | .quote id _ _ => s.enclaves.find? (·.id == id)
  | .agree id _ _ => s.enclaves.find? (·.id == id)
  | .request r => s.enclaveOf r.ctx
  | .response r => s.enclaveOf (s.getCore r.core).ctx
  | .flit f => s.enclaveOf f.ctx
  | b => b.group.bind fun g => s.enclaveOf (s.groupCtx g)

/-- R376 step 5: does a packet come from a package that its enclave has revoked? Where no enclave holds its
key, the key is one that a revocation has deleted. -/
def State.fromRevoked (s : State) (p : Packet) : Bool :=
  if p.key = 0 then ((s.bodyEnclave p.body).map (·.hasRevoked p.src)).getD false
  else match s.keyHolder p.key with
    | some e => e.hasRevoked p.src
    | none => s.enclaves.any (·.hasRevoked p.src)

/-- UE_PACKET_RECEIVE: the k-th packet that has reached the interface. -/
def execUePacketReceive (k : Nat) (s : State) : Out :=
  match s.wire[k]? with
  | none => .next s
  | some p =>
    if s.route p.src != 0 && !s.linkUp p.src then .next s
    else
      let u := { s with wire := s.wire.eraseIdx k }
      if !p.linkOk then .next u.drop
      else if u.fromRevoked p then .next { u with dropped := u.dropped + 1 }
      else if p.key = 0 then .next (u.accept p)
      else if !p.authOk || (u.keyHolder p.key).isNone then
        let n := u.badFrom p.src + 1
        .next (if n = 4 then (u.drop.setBadFrom p.src 0).aeadFailure p.src p.key else u.drop.setBadFrom p.src n)
      else .next ((u.setBadFrom p.src 0).accept p)

/-! ### The second tier (R328) -/

/-- R323: a migration that moves a frame of the port fails. -/
def State.failPort (s : State) (p : Nat) : State :=
  match s.mig with
  | some m => if m.srcT = 8 + p || m.dstT = 8 + p then s.failMig m else s
  | none => s

/-- CXL_LINK_FAILURE: port p is frozen (violation 4). -/
def execCxlLinkFailure (p : Nat) (s : State) : Out :=
  .next (if 4 ≤ p || s.frozen.contains (3, 16 + p) then s
    else
      let u := ({ s with frozen := s.frozen ++ [(3, 16 + p)] }).failPort p
      let m := 3 * 2 ^ 16 + 16 + p
      (u.postError { code := 0x0D, frozen := true, layer := 12, master := m, cause := 19, detail := 16 + p }).postError
        { code := 0x10, frozen := true, layer := 12, master := m, cause := 19, detail := 4 })

/-- R323: a write of the copy of a migration has failed: the address lies in the frame it writes. -/
def State.failCopy (s : State) (a : Nat) : State :=
  match s.mig with
  | some m =>
    let b := frameBase m.dstT m.dstF
    if m.st = 3 && b ≤ a && a < b + 2 ^ 21 then s.failMig m else s
  | none => s

/-- CXL_WRITE_FAILURE: the line at physical address a is poisoned, and a migration whose copy the write
belongs to fails. The manual gives the record no code. -/
def execCxlWriteFailure (a : Nat) (s : State) : Out :=
  let line := a / 64 * 64
  let u := { s with
    poison := (s.poison ++ (List.range 4).map fun i => Place.hbm (line + 16 * i)).eraseDups, free := s.free + 1 }
  .next ((u.failCopy a).postError { code := (Config.freeByte s.free).toNat, layer := 12, addr := a })

/-! ### Host accesses (R325, R326, R356, R363) -/

/-- The window of a function: context and first virtual page; none where it is closed or the enclave's
policy does not admit the function (R375). -/
def State.window (s : State) (f : Nat) : Option (Nat × Nat) :=
  let w := s.reg (0x0041_0000 + 8 * f) 8
  let ctx := bits w 53 8
  if bits w 63 1 = 0 then none
  else match s.enclaveOf ctx with
    | some e => if e.funcs.contains (s.pkg, f) then some (ctx, bits w 21 32) else none
    | none => some (ctx, bits w 21 32)

/-- Where a host access goes. -/
def State.hostReach (s : State) (f off n : Nat) (ks : List Kind) : Reach :=
  match s.window f with
  | none => .denied 0
  | some (ctx, vpn) =>
    if 64 ≤ f || 2 ^ 36 < off + n then .denied 0
    else ks.foldl (fun r k => match r with
      | .ok _ => s.reachPages none (s.ctxAsid ctx) k (vpn * 2 ^ 21 + off) n
      | x => x) (.ok [])

/-- A host access is refused: its record. -/
def State.hostRefuse (s : State) (f off : Nat) (r : Reach) : State :=
  let ctx := (s.window f).map (·.1)
  let va := ((s.window f).map fun w => w.2 * 2 ^ 21 + off).getD 0
  let u := match r, ctx with
    | .malformed _ vpn, some c => s.malformedBy (4, f) (some c) (s.ctxAsid c) vpn
    | _, _ => s
  u.postError { code := 0x09, ctx := ctx, layer := 12, master := 4 * 2 ^ 16 + f, addr := va, detail := f }

/-- The virtual address of a host access, as an address of space 0. -/
def State.hostVa (s : State) (f off : Nat) : Word :=
  BitVec.ofNat 64 (((s.window f).map fun w => w.2 * 2 ^ 21 + off).getD 0)
def State.hostAsid (s : State) (f : Nat) : Nat := ((s.window f).map fun w => s.ctxAsid w.1).getD 0

/-- Something goes out to the host. -/
def State.tellHost (s : State) (m : OutMsg) : State := { s with out := s.out ++ [m] }

/-- The host link is frozen: what the host sends waits. -/
def State.hostHeld (s : State) : Bool := s.frozen.contains (3, 20)

/-- The number that stands for function 0's BAR2 window where a BAR0 window has its function's. -/
def bar2 : Nat := 64

/-- The function that a host access comes from; a doorbell is its queue's. -/
def State.hostFunc (s : State) : Instr → Option Nat
  | .hostDoorbell q _ => (s.queues.find? (·.num == q)).map (·.func)
  | .hostWindowRead f _ _ => some (if f = bar2 then 0 else f)
  | .hostWindowWrite f _ _ _ => some f
  | .hostAtomic f _ _ _ _ _ => some f
  | .space4RegisterWrite _ _ _ => some 0
  | .erdropRead => some 0
  | _ => none

/-- R326: an access waits for its page or for the link, and what the same function sent later waits behind
it. -/
def State.behindHost (s : State) (f : Nat) : Bool := s.hostHeld || s.later.any fun i => s.hostFunc i == some f
def State.holdHost (s : State) (i : Instr) : Out := .next { s with later := s.later ++ [i] }

/-- HOST_DOORBELL: a frozen function's write is dropped (R363). -/
def execHostDoorbell (q tail : Nat) (s : State) : Out :=
  match s.queues.find? (·.num == q) with
  | none => .next s
  | some x =>
    if s.behindHost x.func then s.holdHost (.hostDoorbell q tail)
    else if s.frozen.contains (4, x.func) then .next s
    else .next { s with queues := s.queues.map fun h =>
      if h.num = q then { h with tail := tail % 2 ^ h.size } else h }

/-- A host read has its bytes; the poisoned ones make its completion poisoned (R356). -/
def State.hostBytes (s : State) (f a : Nat) (x : List Byte × List Nat) : State :=
  let u := if x.2.isEmpty then s else
    s.postError { code := 0x04, poisoned := true, ctx := (s.window f).map (·.1), layer := 12
                  master := 4 * 2 ^ 16 + f, addr := a + x.2.headD 0, detail := a + x.2.headD 0 }
  u.tellHost (.completion f x.1 (!x.2.isEmpty))

/-- A read through function 0's BAR2 window of space 4, with the side effect that the register's read has
(R384). -/
def State.bar2Read (s : State) (off size : Nat) : State :=
  if s.frozen.contains (4, 0) then s.tellHost (.completerAbort 0)
  else (s.loaded [(.mmio off, size)]).hostBytes 0 off (s.engineRead 0 [(.mmio off, size)])

/-- HOST_WINDOW_READ: `size` bytes at an offset of function f's BAR0 window, or of function 0's BAR2 window
for f = 64. -/
def execHostWindowRead (f off size : Nat) (s : State) : Out :=
  if s.behindHost (if f = bar2 then 0 else f) then s.holdHost (.hostWindowRead f off size)
  else if f = bar2 then .next (s.bar2Read off size)
  else if s.frozen.contains (4, f) then .next (s.tellHost (.completerAbort f))
  else match s.hostReach f off size [.load] with
    | .ok segs => .next ((s.markPages none (s.hostAsid f) (s.hostVa f off) size false).hostBytes f
        (s.hostVa f off).toNat (s.engineRead 0 segs))
    | .moving => s.holdHost (.hostWindowRead f off size)
    | r => .next ((s.hostRefuse f off r).tellHost (.completerAbort f))

/-- HOST_WINDOW_WRITE: `size` bytes of v. -/
def execHostWindowWrite (f off size v : Nat) (s : State) : Out :=
  if s.behindHost f then s.holdHost (.hostWindowWrite f off size v)
  else if s.frozen.contains (4, f) then .next s
  else match s.hostReach f off size [.store] with
    | .ok segs =>
      .next ((s.markPages none (s.hostAsid f) (s.hostVa f off) size true).engineWrite 0 segs (bytesOf size v) [])
    | .moving => s.holdHost (.hostWindowWrite f off size v)
    | r => .next (s.hostRefuse f off r)

/-- HOST_ATOMIC: 0 FetchAdd, 1 Swap, 2 CAS. -/
def execHostAtomic (f off op : Nat) (wide : Bool) (v e : Nat) (s : State) : Out :=
  let n := if wide then 8 else 4
  let code := if op = 0 then 1 else if op = 1 then 0 else 9
  if s.behindHost f then s.holdHost (.hostAtomic f off op wide v e)
  else if s.frozen.contains (4, f) then .next (s.tellHost (.completerAbort f))
  else match s.hostReach f off n [.load, .store] with
    | .ok ((h, _) :: _) =>
      let u := s.markPages none (s.hostAsid f) (s.hostVa f off) n true
      match s.poisonHit [] h n with
      | some i => .next (u.hostBytes f (s.hostVa f off).toNat (bytesOf n 0, [i]))
      | none =>
        let x := u.amoHome h code n (v % 2 ^ (8 * n)) (e % 2 ^ (8 * n))
        .next (x.2.tellHost (.completion f (bytesOf n x.1) false))
    | .moving => s.holdHost (.hostAtomic f off op wide v e)
    | r => .next ((s.hostRefuse f off r).tellHost (.completerAbort f))

/-! ### Packets that die of age (R247) -/

/-- What a core has lost with a request or a response; `va` is where a store went. -/
def State.loseReply (s : State) (core slot pkg : Nat) (va : Option Nat) (op : RespKind)
    (part : Option (Nat × Nat)) : State :=
  match op with
  | .slot => s.modCore core fun c => { c with
      slots := c.slots.setIfInBounds slot ((c.slots.toList.getD slot none).bind fun k =>
        if k.dead then none else some { k with aged := true }) }
  | .store =>
    let u := s.modCore core fun c => { c with
      remoteStores := dropFirst (fun r => r.1 == pkg && (va.map (· == r.2.1)).getD true) c.remoteStores }
    { u with lost := u.lost ++ [{ core := core, cls := .remote }] }
  | .check => { s with lost := s.lost ++ [{ core := core, cls := .check }] }
  | _ =>
    let u := match part with
      | some (e, p) => s.modLock core e (LockEntry.lose p)
      | none => s
    { u with lost := u.lost ++ [{ core := core, cls := .check }] }

/-- The kind of response that a request would have had. -/
def Request.respKind (r : Request) : RespKind :=
  match r.part with
  | none => r.op.resp
  | some _ => if r.op.writes then .wrote else .part

/-- The first segment of a term that is still on its way. -/
def Term.nextSeg (t : Term) : Option Nat :=
  (List.range (t.data.length / 64)).find? fun i => !t.staged.contains i && !t.lost.contains i

/-- Something that core n waits for is discarded with a packet. -/
def State.loseFor (s : State) (n : Nat) : State := { s with lost := s.lost ++ [{ core := n, cls := .check }] }

/-- A packet of the network (R247): the routers that it can be found at, its class there, its source and
destination cores, and what its discard does. -/
structure NetPacket where
  route : List Nat
  cls : Nat
  src : Nat
  dst : Nat
  gone : State

/-- The core that posts a term; for an engine, core 0. -/
def TermSrc.poster : TermSrc → Nat
  | .core n => n
  | _ => 0

/-- A term's reservation, as its request or as the reply on the way to core n. A lost grant gives its
staging slot back (log entry 95). -/
def State.reservationPacket (s : State) (k : Nat) (t : Term) : Option NetPacket :=
  match t.src, t.phase with
  | .core n, .request => some { route := t.route, cls := 5, src := n, dst := coreOfRouter t.home
                                gone := ({ s with terms := s.terms.eraseIdx k }).loseFor n }
  | .core n, .granted c =>
    let u := { s with terms := s.terms.eraseIdx k }
    let u := (u.modWell t.home t.idx fun w => { w with held := w.held.erase c }).grantTerm t.home t.idx
    some { route := t.back, cls := 5, src := coreOfRouter t.home, dst := n, gone := u.loseFor n }
  | .core n, .late => some { route := t.back, cls := 5, src := coreOfRouter t.home, dst := n
                             gone := ({ s with terms := s.terms.eraseIdx k }).loseFor n }
  | .core n, .discarded => some { route := t.back, cls := 5, src := coreOfRouter t.home, dst := n
                                  gone := ({ s with terms := s.terms.eraseIdx k }).loseFor n }
  | _, _ => none

/-- The route of a vector that core n sends to its slot, on TERM (R241). -/
def State.vectorRoute (s : State) (n : Nat) (a : Word) : List Nat :=
  match s.spaceOf a.toNat with
  | .vault off => routePath (routerOf n) (off / 2 ^ 21)
  | .virt _ => downRoute n
  | _ => []

/-- A part of a copy of core n that its engine is to move: its request, its answer, or its write (R240). -/
def State.partPacket (s : State) (p : Lost) (e i : Nat) : Option NetPacket :=
  ((s.lockAt p.k e).filter fun k => s.engineRuns p.k && s.engineOrdered p.k && s.partDue p.k k i).map fun k =>
    let src := (k.nextRead i).1
    let legs := s.placeLegs p.k src ++ (if k.kind == .copy then (s.placeLegs p.k (partAt k.dst i)).filter (·.1 < 2) else [])
    let cls := (((legs.find? fun l => comesBy l.2 p.at_)).map (·.1)).getD 0
    let there := s.placeCore p.k src
    { route := (legs.map (·.2)).flatten ++ (if legs.any fun l => comesBy l.2 384 then [384] else []), cls := cls
      src := if cls < 2 then p.k else there, dst := if cls < 2 then there else p.k
      gone := (s.modLock p.k e (LockEntry.lose i)).loseFor p.k }

/-- The packet that is named, where there is one. -/
def State.packet (s : State) (p : Lost) : Option NetPacket :=
  match p.kind with
  | .store => (s.flying[p.k]?).map fun f =>
      let a : Ack := { core := f.core, cls := .home }
      { route := f.route, src := f.core
        cls := if !f.parts.1.contains p.at_ && f.parts.2.contains p.at_ then 1 else 0
        dst := coreOfRouter (f.entry.home.dest f.core)
        gone := { s with flying := s.flying.eraseIdx p.k, lost := s.lost ++ [a] } }
  | .ack => (s.acks[p.k]?).map fun a =>
      { route := a.route, cls := if !a.parts.1.contains p.at_ && a.parts.2.contains p.at_ then 3 else 2
        src := coreOfRouter (if a.home < numRouters then a.home else 0), dst := a.core
        gone := { s with acks := s.acks.eraseIdx p.k, lost := s.lost ++ [a] } }
  | .request => (s.requests[p.k]?).map fun r =>
      let u := { s with requests := s.requests.eraseIdx p.k }
      { route := (if r.srcPkg = s.pkg then downRoute r.core else []) ++ [384], cls := 0, src := r.core, dst := 0
        gone := if r.srcPkg = s.pkg then u.loseReply r.core r.slot r.pkg (some r.va) r.respKind r.part else u }
  | .response => (s.responses[p.k]?).map fun r =>
      { route := 384 :: upRoute r.core, cls := 2, src := 0, dst := r.core
        gone := ({ s with responses := s.responses.eraseIdx p.k }).loseReply r.core r.slot r.pkg
          (r.store.map Request.va) r.op r.part }
  | .flit => (s.flits[p.k]?).map fun f =>
      let n := (f.src.map (·.1)).getD 0
      { route := s.flitRoute f
        cls := if f.bounce then (if (f.second s.pkg).contains p.at_ then 3 else 2) else if f.circuit ≠ 0 then 6 else 4
        src := if f.bounce then qdCore f.qdst else n, dst := if f.bounce then n else qdCore f.qdst
        gone := { s with flits := s.flits.eraseIdx p.k } }
  | .gate => (s.gateLists[p.k]?).map fun l =>
      { route := [if l.at_ < numRouters then l.at_ else routerOf l.root], cls := 4, src := 0, dst := l.root
        gone := { s with gateLists := s.gateLists.eraseIdx p.k } }
  | .reservation => (s.terms[p.k]?).bind (s.reservationPacket p.k)
  | .segment => (s.terms[p.k]?).bind fun t => match t.phase, t.nextSeg with
      | .staging _, some i => some { route := t.route, cls := 5, src := t.src.poster, dst := coreOfRouter t.home
                                     gone := { s with terms := s.terms.set p.k { t with lost := i :: t.lost } } }
      | _, _ => none
  | .setup => (s.setups[p.k]?).map fun q =>
      { route := q.path.take 1, cls := 4, src := q.core, dst := q.dst
        gone := ({ s with setups := s.setups.eraseIdx p.k }).loseFor q.core }
  | .reply => (s.replies[p.k]?).map fun q =>
      { route := q.path, cls := if (q.second.drop 1).contains p.at_ then 3 else 2, src := q.dst, dst := q.core
        gone := ({ s with replies := s.replies.eraseIdx p.k }).loseFor q.core }
  | .teardown => ((s.teardowns[p.k]?).filter fun t => !t.lost).map fun t =>
      let back := s.backLegs (routerOf t.dst) t.core
      { route := if t.path.isEmpty then back.1 ++ back.2 else t.path.take 1
        cls := if t.path.isEmpty then (if back.1.contains p.at_ then 2 else 3) else 6
        src := if t.path.isEmpty then t.dst else t.core, dst := if t.path.isEmpty then t.core else t.dst
        gone := { s with teardowns := s.teardowns.set p.k { t with lost := true } } }
  | .walk => ((s.walks[p.k]?).filter fun w => !w.lost).map fun w =>
      { route := downRoute w.core ++ [384], cls := 0, src := w.core, dst := 0
        gone := ({ s with walks := s.walks.set p.k { w with lost := true } }).loseFor w.core }
  | .slotRequest => ((s.slotReqs[p.k]?).filter fun r => r.answer.isNone).map fun r =>
      { route := s.slotRoute r, cls := 4, src := r.core, dst := s.expCore r.exp
        gone := ({ s with slotReqs := s.slotReqs.eraseIdx p.k }).loseFor r.core }
  | .vector => ((s.slotReqs[p.k]?).filter fun r => r.answer.isSome && !r.sent && !s.expGlobal r.exp).map fun r =>
      let a := s.expSlot r.exp (r.answer.getD 0)
      { route := s.vectorRoute r.core a ++ [384], cls := 5, src := r.core, dst := s.placeCore r.core a
        gone := ({ s with slotReqs := s.slotReqs.eraseIdx p.k }).loseFor r.core }
  | .part e i => s.partPacket p e i
  | .read => ((s.reads[p.k]?).filter fun r => r.phase == .sent || r.phase == .returned).map fun r =>
      let l := s.askLegs r.core r.home
      { route := l.1 ++ l.2, cls := if l.1.contains p.at_ then 0 else 1, src := r.core, dst := coreOfRouter r.home
        gone := ({ s with reads := s.reads.eraseIdx p.k }).loseFor r.core }
  | .readResult => ((s.reads[p.k]?).filter fun r => r.phase.answered).map fun r =>
      let l := s.backLegs r.home r.core
      { route := l.1 ++ l.2, cls := if l.1.contains p.at_ then 2 else 3, src := coreOfRouter r.home, dst := r.core
        gone := ({ s with reads := s.reads.eraseIdx p.k }).loseFor r.core }
  | .fetch => none
  | .access => none
  | .value => none

/-- A packet that an instruction sends in the very step that has its answer: the core's next one of this kind is
found too old when it comes by the place (log entry 95). -/
def sentByInstr : LostKind → Bool
  | .fetch => true
  | .access => true
  | .value => true
  | _ => false

/-- PACKET_AGE_DISCARD: the packet is discarded whole at the place where it is found, a router or (384) the base
die; what waits for it keeps waiting (R248). -/
def execPacketAgeDiscard (p : Lost) (s : State) : Out :=
  .next (if 384 < p.at_ then s
    else if sentByInstr p.kind then
      (if s.coreRuns (s.getCore p.k) then s.modCore p.k fun c => { c with late := some p } else s)
    else match s.packet p with
      | some q => if comesBy q.route p.at_ then q.gone.discard p.at_ q.cls q.src q.dst else s
      | none => s)

end Sys2Proof.Machine
end

