-- ==== Sys2Proof/Machine/Masters.lean ====
section
/-! DEFINITION. Freezing and releasing masters (R192, R362-R366), and tearing a context down (R284). -/

namespace Sys2Proof.Machine

/-! ### Masters (R192) -/

/-- R192: how many numbers a kind of master has. -/
def masterCount (kind : Nat) : Nat :=
  match kind with
  | 0 => numCores
  | 1 => numRouters
  | 2 => 256
  | 3 => 21
  | 4 => 64
  | _ => 0

/-- The master that a register value names: none with a reserved bit set, or out of range. -/
def masterOf (v : Nat) : Option (Nat × Nat) :=
  if v / 2 ^ 19 ≠ 0 || bits v 13 3 ≠ 0 || masterCount (bits v 16 3) ≤ bits v 0 13 then none
  else some (bits v 16 3, bits v 0 13)

def State.isFrozen (s : State) (m : Nat × Nat) : Bool :=
  if m.1 = 0 then
    let c := s.getCore (((s.getCore m.2).memberOf).getD m.2)
    (s.getCore m.2).frozen || c.freezeDue
  else s.frozen.contains m

/-- R192: the master is the issuing core itself, or a member of its ligature. -/
def State.isSelf (s : State) (m : Nat × Nat) : Bool := m.1 == 0 && (s.ligature s.core.num).contains m.2

/-- The layer that a record of a master names: a core's or a copy engine's, else the base die. -/
def masterLayer (m : Nat × Nat) : Nat :=
  if m.1 = 0 then layerOf m.2 else if m.1 = 1 then layerOfRouter m.2 else 12

/-- R215: the record of a core names its home core. -/
def State.namedMaster (s : State) (m : Nat × Nat) : Nat :=
  if m.1 = 0 then ((s.getCore m.2).memberOf).getD m.2 else m.1 * 2 ^ 16 + m.2

def State.masterCtx (s : State) (m : Nat × Nat) : Option Nat :=
  if m.1 = 0 then (s.getCore (s.namedMaster m)).task.map (·.ctx) else none

/-- R363: what freezing a master does. A queue pair's groups are aborted with reason REVOKE. -/
def State.freezeMaster (s : State) (m : Nat × Nat) (violation : Nat) : State :=
  let r : ErrRec := { code := 0x10, frozen := true, ctx := s.masterCtx m, layer := masterLayer m
                      master := s.namedMaster m, cause := 19, detail := violation }
  let u := if m.1 = 0 then s.freezeAt m.2
    else
      let u := { s with frozen := s.frozen ++ [m] }
      if m.1 = 2 then u.revokePair m.2 else u
  u.postError r

/-- R366: tasks park-saved from core n whose wake came while it was frozen become QUEUED. -/
def State.wakeSaved (s : State) (n : Nat) : State :=
  ((s.records.filter fun k => k.image.num == n && k.image.wakeKept).filterMap (·.image.task)).foldl
    (fun (s : State) t => s.wake t.id) s

/-- R365, R366: core n of a ligature is released, and a freeze that is only due is withdrawn. A wake that
came meanwhile makes its task QUEUED. -/
def State.thawCore (s : State) (n : Nat) : State :=
  let c := s.getCore n
  if !c.frozen then s.putCore { c with freezeDue := false }
  else
    let lost := s.hasLost n
    let u := s.putCore { c with
      frozen := false, freezeDue := false, halted := false, wakeKept := false, stalled := false, resumed := lost
      wait := .none, watch := none, tstate := .running }
    let u := u.wakeSaved n
    let u := (c.task.map fun t => u.resend t.id).getD u
    match c.task with
    | none => u
    | some t =>
      if s.queue.any (·.id == t.id) then u.modCore n fun c => { c with tstate := .queued }
      else if c.wakeKept && c.members.isEmpty then
        (u.modCore n fun c => { c with tstate := .queued }).enqueue
          { t with bound := some n, resident := true, saved := false }
      else u

/-- R248: with a master released, an instruction that waits for a lost packet raises AGED; the manual does
not say how the master whose loss caused the discard is known, so any release serves (log entry 96). -/
def State.resumeLost (s : State) : State :=
  let f (c : Core) : Core := if s.hasLost c.num && !c.frozen then
      { c with resumed := true, stalled := false, locks := c.locks.map (·.map fun k => { k with gone := [] }) } else c
  { s with core := f s.core, others := s.others.map f }

/-- R363, R365: what releasing a master does; a host function's held signals are written in order. -/
def State.thawMaster (s : State) (m : Nat × Nat) : State :=
  let r : ErrRec := { code := 0x11, ctx := s.masterCtx m, layer := masterLayer m, master := s.namedMaster m }
  let u := if m.1 = 0 then (s.ligature m.2).foldl State.thawCore s
    else
      let u := { s with frozen := s.frozen.filter (· != m) }
      if m.1 = 4 then u.flushSignals m.2 else u
  u.resumeLost.postError r

/-- FREEZE and UNFREEZE: the checks of R192. -/
def State.onMaster (st : State) (d : XReg) (s : XSrc) (frozen : Bool) (f : State → Nat × Nat → State) : Out :=
  st.privileged (st.guard (d.val :: s.regs) s.cells
    (match masterOf (st.src s).toNat with
     | none => .next (st.setX d 0).retireMark
     | some m =>
       if st.isFrozen m == frozen || st.isSelf m then .next (st.setX d 0).retireMark
       else .next ((f st m).setX d 1).retireMark))

def execFreeze (d : XReg) (s : XSrc) (st : State) : Out :=
  st.onMaster d s true fun st m => st.freezeMaster m 3
def execUnfreeze (d : XReg) (s : XSrc) (st : State) : Out := st.onMaster d s false State.thawMaster

/-! ### Tearing a context down (R284) -/

/-- R284 step 1: the tasks of context c that stand in the dispatchers are discarded, with the flits of their
overflow area. -/
def State.discardQueued (s : State) (c : Nat) : State :=
  let gone := s.queue.filter (·.ctx == c) ++ s.spawns.filter (·.ctx == c)
  ({ s with
    queue := s.queue.filter (·.ctx != c), spawns := s.spawns.filter (·.ctx != c)
    overflow := s.overflow.filter fun o => !(gone.any (·.id == o.entry.task)) }).refillAll

/-- R284 steps 1, 2 and 4: nothing of the context starts any more, its records are discarded with their
pins, and its cores halt. -/
def State.beginFree (s : State) (c : Nat) : State :=
  let recs := s.records.filter (·.ctx == c)
  let gone := recs.filterMap (·.image.task)
  let u : State := { s with
    held := c :: s.held.filter (· != c)
    cmds := s.cmds.filter fun x => x != Command.gangStop c && x != Command.resume c
    records := s.records.filter (·.ctx != c)
    overflow := s.overflow.filter fun o => !(gone.any (·.id == o.entry.task)) }
  let u := ((recs.map fun k => k.image.pins).flatten.foldl State.unpin u).discardQueued c
  ((u.coresOf c).foldl (fun s k => s.haltCore k.num) u).setCtxState c 3

/-- R284 steps 2, 4 and 6 at one core: its task is discarded; a frozen core is released. -/
def State.vacateCore (s : State) (n : Nat) : State :=
  let k := s.getCore n
  let id := (k.task.map (·.id)).getD 0
  let u := (s.onCore n State.releasePins).dropCircuits n
  let u := (u.onCore n State.abortSlots)
  let u := k.members.foldl (fun (s : State) m => s.modCore m fun x =>
    { x with memberOf := none, frozen := false, halted := false }) u
  let c := u.getCore n
  let u := u.putCore { c.vacate with frozen := false, inbox := c.inbox.filter (·.task != id) }
  { u with lost := u.lost.filter (·.core != n)
           overflow := u.overflow.filter fun o => !(o.isOf n id) }

/-- R284 steps 3 to 7, and step 1 for the tasks that have entered a dispatcher since. -/
def State.endFree (s : State) (c : Nat) : State :=
  let u : State := ((s.coresOf c).foldl (fun s k => s.vacateCore k.num) s).discardQueued c
  let u : State := { u with slots := u.slots.map fun (k : Slot) =>
    if k.ctx = c && k.status.isNone then { k with status := some 4 } else k }
  let mine := u.wells.filter fun w => (w.well.map fun x => x.ctx == c && x.freed.isNone).getD false
  let u : State := mine.foldl (fun s w => s.freeWell w.home w.idx numCores) u
  let u : State := { u with
    barriers := u.barriers.filter (·.ctx != c), joins := u.joins.filter (·.ctx != c)
    triggers := u.triggers.filter (·.ctx != c), gates := u.gates.filter (·.ctx != c)
    qps := u.qps.map fun (q : QueuePair) => { q with entries := q.entries.filter (·.ctx != c) } }
  let groups := (List.range 256).filter fun g => u.groupCtx g == c && u.groupSt g == 1
  let u : State := groups.foldl (fun s g => s.abortHere g 6) u
  ({ u with held := u.held.filter (· != c) }).setCtxState c 0

/-- CONTEXT_FREE: STATE is written 0. The context is FREEING until what is in flight has settled, and
then FREE. -/
def execContextFree (c : Nat) (s : State) : Out :=
  .next (if 255 < c then s
    else if s.ctxState c = 1 || s.ctxState c = 2 then s.beginFree c
    else if s.ctxState c = 3 && s.ctxDrained c then s.endFree c
    else s)

end Sys2Proof.Machine
end

