-- ==== Sys2Proof/Machine/Power.lean ====
section
/-! DEFINITION. Routers that turn off and are woken (R246). -/

namespace Sys2Proof.Machine

/-- A bank of the well has events to carry out. -/
def Well.bankBusy (w : Well) : Bool := w.banks.any fun b => decide (b.applied < w.seqBase + w.seq.length)

/-- R246: the vault banks at a router are idle: no term, read or event of a well there is under way. -/
def State.banksIdle (s : State) (r : Nat) : Bool :=
  !(s.terms.any (·.home == r)) && !(s.reads.any (·.home == r))
    && !(s.wells.any fun w => w.home == r && (w.well.map Well.bankBusy).getD false)

/-- R246: a router's buffers hold nothing: no packet of the network is on its way through it. -/
def State.buffersEmpty (s : State) (r : Nat) : Bool :=
  !(s.flying.any fun f => f.route.contains r) && !(s.acks.any fun a => a.route.contains r)
    && !(s.flits.any fun f => (s.flitRoute f).contains r)
    && !(s.setups.any fun p => p.path.contains r) && !(s.replies.any fun p => p.path.contains r)
    && !(s.teardowns.any fun t => (if t.path.isEmpty then s.backRoute (routerOf t.dst) t.core else t.path).contains r)
    && !(s.terms.any fun t => t.route.contains r) && !(s.reads.any fun x => (s.askRoute x.core x.home).contains r)
    && !((s.gateLists ++ s.gateHolds).any (·.at_ == r))
    && !(s.walks.any fun w => (downRoute w.core).contains r) && !(s.slotReqs.any fun q => (s.slotRoute q).contains r)
    && !(s.requests.any fun q => q.srcPkg == s.pkg && (downRoute q.core).contains r)
    && !(s.responses.any fun q => (upRoute q.core).contains r)

/-- R246: no task on the domain's cores, no circuit through the router, its copy engine and banks
idle, and nothing in its buffers. -/
def State.routerIdle (s : State) (r : Nat) : Bool :=
  !(s.allCores.any fun c => routerOf c.num == r && (c.task.isSome || c.memberOf.isSome
      || c.locks.toList.any (·.isSome) || !c.sb.isEmpty))
    && !(s.reservations.any (·.router == r)) && s.banksIdle r && s.buffersEmpty r

def execRouterPowerDownPropose (r : Nat) (s : State) : Out :=
  .next (if decide (r < numRouters) && (s.routerPower r).isNone && s.routerIdle r then
    s.setPower r (some .proposed) else s)
def execRouterPowerDownCommit (r : Nat) (s : State) : Out :=
  .next (if s.routerPower r = some .proposed then s.setPower r (some .off) else s)
/-- A neighbour raises the router's wake line. -/
def execRouterWakeLine (r : Nat) (s : State) : Out := .next (s.wakeRouter r)
def execRouterWakeDone (r : Nat) (s : State) : Out :=
  .next (if s.routerPower r = some .waking then s.setPower r none else s)

end Sys2Proof.Machine
end

