-- ==== Sys2Proof/Machine/Crypto.lean ====
section
/-! DEFINITION. The functions that the manual names by their standards: SHAKE256 (FIPS 202), Ed448
(RFC 8032, with an empty context) and X448 (RFC 7748). -/

namespace Sys2Proof.Machine

/-! ### SHAKE256 -/

/-- The shift register that the round constants are read from, after t steps. -/
def rcState : Nat → Nat
  | 0 => 1
  | t + 1 =>
    let r := 2 * rcState t
    if 256 ≤ r then r - 256 ^^^ 0x71 else r

/-- The constant of a round: its bit 2^j - 1 is output bit 7 * round + j of the register. -/
def roundConst (round : Nat) : Word :=
  BitVec.ofNat 64 (((List.range 7).filter fun j => rcState (7 * round + j) % 2 == 1).map fun j => 2 ^ (2 ^ j - 1)).sum

/-- The lane of the plane y at x, of the 25 in a state. -/
def laneAt (a : List Word) (x y : Nat) : Word := a.getD (x % 5 + 5 * (y % 5)) 0

/-- The exclusive or of a sheet's five lanes. -/
def sheet (a : List Word) (x : Nat) : Word := (List.range 5).foldl (fun w y => w ^^^ laneAt a x y) 0

/-- theta: every lane takes in the sheets on either side of its own. -/
def mixSheets (a : List Word) : List Word :=
  let turn := (List.range 5).map fun x => sheet a (x + 4) ^^^ (sheet a (x + 1)).rotateLeft 1
  a.zipIdx.map fun l => l.1 ^^^ turn.getD (l.2 % 5) 0

/-- rho and pi at once: along the walk (x, y) -> (y, 2x + 3y) from (1, 0), the lane that is left at step t
goes to where the walk goes next, turned by the t-th triangular number. -/
def walkLanes (a : List Word) : List Word :=
  ((List.range 24).foldl (fun (at_ : Nat × Nat × List Word) t =>
    let y' := (2 * at_.1 + 3 * at_.2.1) % 5
    (at_.2.1, y', at_.2.2.set (at_.2.1 + 5 * y')
      ((laneAt a at_.1 at_.2.1).rotateLeft ((t + 1) * (t + 2) / 2 % 64)))) (1, 0, a)).2.2

/-- chi: every lane takes in the next two of its row. -/
def mixRows (a : List Word) : List Word :=
  a.zipIdx.map fun l => l.1 ^^^ (laneAt a (l.2 + 2) (l.2 / 5) &&& ~~~laneAt a (l.2 + 1) (l.2 / 5))

/-- The permutation of FIPS 202: 24 rounds, each closed by its constant in the first lane. -/
def keccak (a : List Word) : List Word :=
  (List.range 24).foldl (fun a n =>
    let b := mixRows (walkLanes (mixSheets a))
    b.set 0 (laneAt b 0 0 ^^^ roundConst n)) a

/-- A block of 136 bytes into the state. -/
def keccakAbsorb (a : List Word) (block : List Byte) : List Word :=
  keccak ((List.range 25).map fun i =>
    a.getD i 0 ^^^ (if i < 17 then BitVec.ofNat 64 (ofBytes ((block.drop (8 * i)).take 8)) else 0))

/-- The message and its padding, block by block; `fuel` is at least the number of blocks. -/
def shakeAbsorb : Nat → List Word → List Byte → List Word
  | 0, a, _ => a
  | fuel + 1, a, m =>
    if 136 ≤ m.length then shakeAbsorb fuel (keccakAbsorb a (m.take 136)) (m.drop 136)
    else
      let p := m ++ [0x1F#8] ++ List.replicate (135 - m.length) 0
      keccakAbsorb a (p.take 135 ++ [p.getD 135 0 ||| 0x80#8])

/-- `n` bytes of output. -/
def shakeSqueeze : Nat → List Word → Nat → List Byte
  | 0, _, _ => []
  | fuel + 1, a, n =>
    let block := ((a.take 17).map fun w => bytesOf 8 w.toNat).flatten
    if n ≤ 136 then block.take n else block ++ shakeSqueeze fuel (keccak a) (n - 136)

/-- SHAKE256 of a message, `n` bytes of it. -/
def shake256 (m : List Byte) (n : Nat) : List Byte :=
  shakeSqueeze (n / 136 + 1) (shakeAbsorb (m.length / 136 + 1) (List.replicate 25 0) m) n

/-! ### Ed448 -/

def edP : Nat := 2 ^ 448 - 2 ^ 224 - 1
def edL : Nat := 2 ^ 446 - 13818066809895115352007386748515426880336692474882178609894547503885
/-- The curve's d, -39081. -/
def edD : Nat := edP - 39081

def powMod (b m : Nat) : Nat → Nat → Nat
  | 0, _ => 1 % m
  | fuel + 1, e => let h := powMod (b * b % m) m fuel (e / 2)
                   if e % 2 = 1 then h * b % m else h

def edInv (a : Nat) : Nat := powMod a edP 448 (edP - 2)

/-- A point, projective. -/
structure EdPoint where
  x : Nat
  y : Nat
  z : Nat
  deriving DecidableEq, Repr

def edZero : EdPoint := { x := 0, y := 1, z := 1 }
def edBase : EdPoint :=
  { x := 224580040295924300187604334099896036246789641632564134246125461686950415467406032909029192869357953282578032075146446173674602635247710
    y := 298819210078481492676017930443930673437544040154080242095928241372331506189835876003536878655418784733982303233503462500531545062832660
    z := 1 }

/-- The complete addition of RFC 8032. -/
def edAdd (u v : EdPoint) : EdPoint :=
  let a := u.z * v.z % edP
  let b := a * a % edP
  let c := u.x * v.x % edP
  let d := u.y * v.y % edP
  let e := edD * (c * d % edP) % edP
  let f := (b + edP - e) % edP
  let g := (b + e) % edP
  let h := (u.x + u.y) * (v.x + v.y) % edP
  { x := a * f % edP * ((h + 2 * edP - c - d) % edP) % edP
    y := a * g % edP * ((d + edP - c) % edP) % edP
    z := f * g % edP }

def edMul : Nat → Nat → EdPoint → EdPoint
  | 0, _, _ => edZero
  | fuel + 1, k, u => let h := edMul fuel (k / 2) (edAdd u u)
                      if k % 2 = 1 then edAdd h u else h

def edEncode (u : EdPoint) : List Byte :=
  let i := edInv u.z
  bytesOf 57 (u.y * i % edP + u.x * i % edP % 2 * 2 ^ 455)

def edDecode (bs : List Byte) : Option EdPoint :=
  let n := ofBytes bs
  let y := n % 2 ^ 455
  let sign := n / 2 ^ 455 % 2
  let yy := y * y % edP
  let u := (yy + edP - 1) % edP
  let v := (edD * yy + edP - 1) % edP
  let u3v := u * u % edP * u % edP * v % edP
  let u5v3 := u3v * (u * u % edP * (v * v % edP) % edP) % edP
  let x := u3v * powMod u5v3 edP 448 ((edP - 3) / 4) % edP
  if bs.length ≠ 57 || edP ≤ y || v * (x * x % edP) % edP ≠ u || (x == 0 && sign == 1) then none
  else some { x := if x % 2 = sign then x else edP - x, y := y, z := 1 }

def edSame (u v : EdPoint) : Bool :=
  u.x * v.z % edP == v.x * u.z % edP && u.y * v.z % edP == v.y * u.z % edP

/-- "SigEd448", no prehash, no context. -/
def edDom : List Byte := [0x53, 0x69, 0x67, 0x45, 0x64, 0x34, 0x34, 0x38, 0, 0]

def edHash (m : List Byte) : Nat := ofBytes (shake256 (edDom ++ m) 114) % edL

/-- The secret scalar of a seed, and the second half of its hash. -/
def edSecret (seed : List Byte) : Nat × List Byte :=
  let h := shake256 seed 114
  let s := ofBytes (h.take 56)
  (s % 2 ^ 447 / 4 * 4 + 2 ^ 447, h.drop 57)

def edPublic (seed : List Byte) : List Byte := edEncode (edMul 448 (edSecret seed).1 edBase)

/-- The 114 bytes of a signature. -/
def edSign (seed m : List Byte) : List Byte :=
  let k := edSecret seed
  let a := edPublic seed
  let r := edHash (k.2 ++ m)
  let rb := edEncode (edMul 448 r edBase)
  let h := edHash (rb ++ a ++ m)
  rb ++ bytesOf 57 ((r + h * k.1) % edL)

def edVerify (key m sig : List Byte) : Bool :=
  let s := ofBytes (sig.drop 57)
  match edDecode (sig.take 57), edDecode key with
  | some r, some a =>
    let h := edHash (sig.take 57 ++ key ++ m)
    sig.length == 114 && decide (s < edL)
      && edSame (edMul 449 (4 * s) edBase) (edMul 3 4 (edAdd r (edMul 448 h a)))
  | _, _ => false

/-! ### X448 -/

/-- The scalar of a private key. -/
def xScalar (k : List Byte) : Nat := ofBytes (k.take 56) / 4 * 4 % 2 ^ 447 + 2 ^ 447

/-- One rung of the ladder over a u-coordinate: the double of the first point, and the sum of the two, each as
x and z. -/
def xRung (u : Nat) (p q : Nat × Nat) : (Nat × Nat) × (Nat × Nat) :=
  let a := (p.1 + p.2) % edP
  let b := (p.1 + edP - p.2) % edP
  let c := (q.1 + q.2) % edP
  let d := (q.1 + edP - q.2) % edP
  let aa := a * a % edP
  let bb := b * b % edP
  let e := (aa + edP - bb) % edP
  let s := (d * a + c * b) % edP
  let t := (d * a % edP + edP - c * b % edP) % edP
  ((aa * bb % edP, e * ((aa + 39081 * e) % edP) % edP), (s * s % edP, u * (t * t % edP) % edP))

/-- X448 of a private key and a u-coordinate. -/
def x448 (k u : List Byte) : List Byte :=
  let n := xScalar k
  let x := ofBytes (u.take 56) % edP
  let r := (List.range 448).foldl (fun (w : (Nat × Nat) × (Nat × Nat)) i =>
    if n / 2 ^ (447 - i) % 2 = 1 then (xRung x w.2 w.1).swap else xRung x w.1 w.2) ((1, 0), (x, 1))
  bytesOf 56 (r.1.1 * edInv r.1.2 % edP)

/-- The public key of a private one. -/
def x448Public (k : List Byte) : List Byte := x448 k (bytesOf 56 5)

end Sys2Proof.Machine
end

