-- ==== Sys2Proof/Machine/Trust.lean ====
section
/-! DEFINITION. The security processor's commands, enclaves, revocation, and the reset of the package
(R367-R376, R382). -/

namespace Sys2Proof.Machine

/-! ### The mailbox (R370) -/

def spArg : Nat := 0x0060_1000
def spRes : Nat := 0x0060_2000

/-- The bytes of SPARG from `o` on. -/
def State.arg (s : State) (o n : Nat) : List Byte := s.mmio.readBytes (spArg + o) n
def State.argN (s : State) (o n : Nat) : Nat := s.mmio.readN (spArg + o) n

/-- Command k is the one that the processor works on. -/
def State.spBusy (s : State) (k : Nat) : Bool := s.sp.st == 1 && s.sp.cmd == k

/-- A command is done, with its result. -/
def State.spDone (s : State) (res : List Byte) : State :=
  { s with mmio := s.mmio.writeBytes spRes (res.take 4096), sp := { s.sp with st := 2, reason := 0 } }
/-- A command is refused; the manual gives the reasons no numbers. -/
def State.spRefuse (s : State) : State :=
  { s with sp := { s.sp with st := 3, reason := (Config.freeByte s.free).toNat }, free := s.free + 1 }

/-- A field of the configuration record (R367). -/
def recN (rec : List Byte) (o n : Nat) : Nat := ofBytes ((rec.drop o).take n)
/-- R371: the seed of the device key. -/
def deviceSeed (rec : List Byte) : List Byte := shake256 (Config.puf ((rec.drop (recN rec 16 4)).take 2048)) 57
/-- R372: a signature with the device key. -/
def State.sign (s : State) (m : List Byte) : List Byte := edSign (deviceSeed s.record) m

/-! ### QUOTE, EXTEND, REPORT -/

/-- R372: the signed part of a quote. With several enclaves the first formed is named. -/
def State.quoteBody (s : State) (nonce : List Byte) : List Byte :=
  nonce ++ s.measures.flatten ++ bytesOf 2 s.pkg ++ bytesOf 6 0
    ++ bytesOf 8 ((s.enclaves.head?.map (·.id)).getD 0)
/-- R372: a quote, with its signature. -/
def State.quote (s : State) (nonce : List Byte) : List Byte := s.quoteBody nonce ++ s.sign (s.quoteBody nonce)

def execQuote (s : State) : Out := .next (if s.spBusy 1 then s.spDone (s.quote (s.arg 0 32)) else s)

/-- EXTEND: the index, the length and the data stand in SPARG one behind the other. -/
def execExtend (s : State) : Out :=
  let i := s.argN 0 1
  let n := s.argN 1 2
  .next (if !s.spBusy 2 then s
    else if i < 2 || 7 < i || 4000 < n then s.spRefuse
    else
      let u : State := { s with measures := s.measures.set i (shake256 (s.measures.getD i [] ++ s.arg 3 n) 64) }
      u.spDone [])

/-- A place as numbers. -/
def placeNums : Place → List Nat
  | .vault a => [0, a]
  | .hbm a => [1, a]
  | .mirror a => [2, a]
  | .localMem c a => [3, c, a]
  | .reg c o => [4, c, o]
  | .wellCell h i g e => [5, h, i, g, e]
  | .mirrorCopy l a => [6, l, a]
  | .cache a => [7, a]
  | .table a => [8, a]
  | .coil s k => [9, s, k]
  | .queue k => [10, k]

def execReport (s : State) : Out :=
  let b := Config.evidence (s.failing.map placeNums)
  .next (if s.spBusy 6 then s.spDone (b ++ s.sign b) else s)

/-! ### Enclaves (R373, R374) -/

/-- R373: what a policy record must be. -/
def policyOk (rec : List Byte) (p : Config.Policy) : Bool :=
  let m := p.keys.length
  decide (2 ≤ m) && decide (m ≤ 16) && p.keys.all (fun k => k.length == 57)
    && decide (1 ≤ p.quorum) && decide (p.quorum < m)
    && decide (p.packages.length ≤ 1024) && p.packages.all (fun k => decide (k.2 < m))
    && p.sigs.length == m
    && (p.keys.zip p.sigs).all fun x => edVerify x.1 (rec.take p.body) x.2

/-- R372, R373: a quote with its certificate verifies: the certificate chains to the root, the signature is
its key's, and M0 and M1 are among those admitted. -/
def quoteOk (admitted : List (List Byte × List Byte)) (q cert : List Byte) : Bool :=
  q.length == 674
    && (match Config.certKey cert with
        | some k => edVerify k (q.take 560) (q.drop 560)
        | none => false)
    && admitted.contains ((q.drop 32).take 64, (q.drop 96).take 64)

/-- The quote that a package has sent for an enclave. -/
def State.quoteOf (s : State) (id p : Nat) : Option (List Byte × List Byte) :=
  (s.quotes.find? fun x => x.1 == p && x.2.1 == id).map (·.2.2)

/-- The ephemeral key that a package has sent for an enclave, with its signature. -/
def State.keyOf (s : State) (id p : Nat) : Option (List Byte × List Byte) :=
  (s.agreed.find? fun x => x.1 == p && x.2.1 == id).map (·.2.2)

/-- R373 step 3: an ephemeral key must be signed by the device key of the package's certificate. -/
def signedBy (cert : List Byte) (k : List Byte × List Byte) : Bool :=
  match Config.certKey cert with
  | some d => edVerify d k.1 k.2
  | none => false

/-- R373: this package's own measurements are admitted, or another's quote verifies and the ephemeral key that it
has sent, if it has, is signed by its device key (log entry 98). -/
def State.memberOk (s : State) (id : Nat) (p : Config.Policy) (k : Nat) : Bool :=
  if k = s.pkg then p.measures.contains (s.measures.getD 0 [], s.measures.getD 1 [])
  else match s.quoteOf id k with
    | some q => quoteOk p.measures q.1 q.2 && ((s.keyOf id k).map (signedBy q.2)).getD true
    | none => false

/-- R373: the members are the packages whose participant has no package whose quote fails. -/
def State.admitted (s : State) (id : Nat) (p : Config.Policy) : List (Nat × Nat) :=
  let bad := (p.packages.filter fun k => !s.memberOk id p k.1).map (·.2)
  p.packages.filter fun k => !bad.contains k.2

/-- R373: the other packages whose quotes have not come yet. -/
def State.quotesMissing (s : State) (id : Nat) (p : Config.Policy) : Bool :=
  p.packages.any fun k => k.1 != s.pkg && (s.quoteOf id k.1).isNone

/-- The device certificate of the configuration record (R367). -/
def certOf (rec : List Byte) : List Byte := (rec.drop (recN rec 20 4)).take (recN rec 24 4)

/-- R373 step 2: this package's quote goes to every other package of the record, once. -/
def State.sendQuotes (s : State) (id : Nat) (p : Config.Policy) : State :=
  if s.quoted.contains id then s
  else
    let q := s.quote (Config.quoteNonce s.free)
    p.packages.foldl (fun (s : State) k => if k.1 = s.pkg then s else s.sendPacket k.1 (.quote id q (certOf s.record)))
      { s with quoted := id :: s.quoted, free := s.free + 1 }

/-- The members of an enclave that is being formed, but for this package. -/
def State.peers (s : State) (id : Nat) (p : Config.Policy) : List Nat :=
  ((s.admitted id p).filter (·.1 != s.pkg)).map (·.1)

/-- R373 step 3: an ephemeral key of its own, signed by the device key, goes to each of the others, once. -/
def State.sendKeys (s : State) (id : Nat) (p : Config.Policy) : State :=
  if s.ephemerals.any (·.1 == id) then s
  else (s.peers id p).foldl (fun (s : State) k =>
    let priv := Config.ephemeral s.free
    let pub := x448Public priv
    ({ s with free := s.free + 1, ephemerals := s.ephemerals ++ [(id, k, priv)] }).sendPacket k (.agree id pub (s.sign pub))) s

/-- R373: members whose ephemeral keys have not come yet. -/
def State.keysMissing (s : State) (id : Nat) (p : Config.Policy) : Bool :=
  (s.peers id p).any fun k => (s.keyOf id k).isNone

/-- R373 step 3: the pairwise key with a member, by X448. -/
def State.pairKey (s : State) (id k : Nat) : List Byte :=
  match s.ephemerals.find? fun x => x.1 == id && x.2.1 == k, s.keyOf id k with
  | some x, some y => x448 x.2.2 y.1
  | _, _ => []

/-- The members whose participant has not been revoked. -/
def Enclave.remaining (e : Enclave) : List Nat :=
  (e.members.filter fun m => !e.revoked.contains m.2).map (·.1)
/-- R373, R376: the member that draws the group key: the lowest package number. -/
def Enclave.leads (e : Enclave) (pkg : Nat) : Bool :=
  e.remaining.contains pkg && e.remaining.all fun p => decide (pkg ≤ p)

/-- R374: a new group key under its number; the old one is kept for packets in flight. -/
def Enclave.install (e : Enclave) (kn : Nat) (k : List Byte) : Enclave :=
  { e with
    old := if e.key.isSome then e.key else e.old, oldNonce := if e.key.isSome then e.nonce else e.oldNonce
    key := some (kn, k), nonce := 0, kn := kn }

/-- The enclave goes to the end of the list: old keys expire in the order of their change. -/
def State.lastEnclave (s : State) (e : Enclave) : State :=
  { s with enclaves := s.enclaves.filter (·.id != e.id) ++ [e] }

/-- The next key number, 1 to 255, that no key here has. -/
def State.nextKey (s : State) (e : Enclave) : Nat :=
  (((List.range 255).map fun i => (e.kn + i) % 255 + 1).find? fun n => (s.keyHolder n).isNone).getD 1

/-- R373 steps 4 and 5: draw a group key, install it and send it to every other member. -/
def State.rekey (s : State) (e : Enclave) : State :=
  let k := Config.groupKey s.free
  let kn := s.nextKey e
  let u : State := { s with free := s.free + 1 }
  let u := u.lastEnclave (e.install kn k)
  e.remaining.foldl (fun s p =>
    if p = s.pkg then s
    else s.sendPacket p (.groupKey e.id kn (Config.wrap (((e.pairs.find? (·.1 == p)).map (·.2)).getD []) k))) u

/-- The id of the enclave of a record (R373). -/
def enclaveId (rec : List Byte) (p : Config.Policy) : Nat := ofBytes (shake256 (rec.take p.len) 8)

/-- R373: an enclave is formed from a record that verifies, with every quote there. -/
def State.form (s : State) (rec : List Byte) (p : Config.Policy) : State :=
  let id := enclaveId rec p
  let ms := s.admitted id p
  let pairs := (ms.filter (·.1 != s.pkg)).map fun m => (m.1, s.pairKey id m.1)
  let s : State := { s with
    quotes := s.quotes.filter (·.2.1 != id), quoted := s.quoted.erase id
    ephemerals := s.ephemerals.filter (·.1 != id), agreed := s.agreed.filter (·.2.1 != id) }
  if !(ms.any (·.1 == s.pkg)) then s.spRefuse
  else
    let e : Enclave := { id := id, keys := p.keys, quorum := p.quorum, members := ms, funcs := p.funcs
                         ctxs := p.ctxs, pairs := pairs }
    let u := s.lastEnclave e
    let u : State := { u with
      encCtxs := u.encCtxs.filter (fun c => c.2 != id)
        ++ (p.ctxs.filter (·.1 == s.pkg)).map fun c => (c.2, id) }
    let u := if e.leads s.pkg then u.rekey e else u
    ((u.keyBox.filter (·.1 == id)).foldl (fun (s : State) x => s.await (.groupKeyReceive x.2.1)) u).spDone (bytesOf 8 id)

/-- POLICY: a record that does not verify is refused; else quotes are exchanged, and then ephemeral keys, and the
command is busy until every other member's has come. -/
def execPolicy (s : State) : Out :=
  let rec_ := s.arg 0 4096
  .next (if !s.spBusy 3 then s
    else match Config.policy rec_ with
      | none => s.spRefuse
      | some p =>
        if !policyOk rec_ p then s.spRefuse
        else
          let u := s.sendQuotes (enclaveId rec_ p) p
          if u.quotesMissing (enclaveId rec_ p) p then u
          else
            let v := u.sendKeys (enclaveId rec_ p) p
            if v.keysMissing (enclaveId rec_ p) p then v else v.form rec_ p)

/-- GROUP_KEY_RECEIVE: a wrapped key of this number has arrived; one for an enclave that is still being formed
here stays in the box. -/
def execGroupKeyReceive (kn : Nat) (s : State) : Out :=
  match s.keyBox.find? fun x => x.2.1 == kn && s.enclaves.any (·.id == x.1) with
  | none => .next s
  | some (id, n, src, w) =>
    let u : State := { s with keyBox := s.keyBox.erase (id, n, src, w) }
    match u.enclaves.find? (·.id == id) with
    | none => .next u
    | some e =>
      if !e.leads src then .next u
      else match (e.pairs.find? (·.1 == src)).bind fun p => Config.unwrap p.2 w with
        | none => .next u
        | some k => .next (u.lastEnclave (e.install kn k))

/-- OLD_KEY_EXPIRY: the oldest of the replaced keys is dropped. -/
def execOldKeyExpiry (s : State) : Out :=
  match s.enclaves.find? (·.old.isSome) with
  | none => .next s
  | some e => .next (s.putEnclave { e with old := none })

/-! ### Frames of an enclave (R375) -/

/-- A frame is zeroed. -/
def State.zeroFrame (s : State) (ref : Nat) : State :=
  let pa := frameBase (ref / 2 ^ 20) (ref % 2 ^ 20)
  { s with hbm := s.hbm.clear pa (2 ^ 21), poison := clearPoison s.poison (.hbm pa) (2 ^ 21) }

/-- The frame references that stand in SPARG from offset 24 on; their number is at 16. -/
def State.frameArgs (s : State) : List Nat := (List.range (s.argN 16 8)).map fun i => s.argN (24 + 8 * i) 8

/-- FRAMES: the enclave id is at 0 and the flag at 8, 0 to add and 1 to remove. -/
def execFrames (s : State) : Out :=
  let id := s.argN 0 8
  .next (if !s.spBusy 4 then s
    else if 500 < s.argN 16 8 || 1 < s.argN 8 8 || !(s.enclaves.any (·.id == id)) then s.spRefuse
    else if s.frameArgs.any fun f => decide (2 ^ 24 ≤ f) || decide (framesOf (f / 2 ^ 20) ≤ f % 2 ^ 20) then s.spRefuse
    else if s.argN 8 8 = 0 then
      let u : State := { s with frames := (s.frames ++ s.frameArgs.map fun f => (id, f)).eraseDups }
      u.spDone []
    else
      let gone := s.frameArgs.filter fun f => s.frames.contains (id, f)
      let u := gone.foldl State.zeroFrame { s with frames := s.frames.filter fun x => !(x.1 == id && gone.contains x.2) }
      u.spDone [])

/-! ### Revocation (R376) -/

/-- How many of the m participants other than c are in the mask of those whose signature verifies. -/
def signers (mask m c : Nat) : Nat :=
  ((List.range m).filter fun j => j != c && bits mask j 1 == 1).length

/-- R376: is the message accepted? -/
def Enclave.accepts (e : Enclave) (epoch c sigs : Nat) : Bool :=
  decide (e.epoch < epoch) && decide (c < e.keys.length) && decide (e.quorum ≤ signers sigs e.keys.length c)

def State.inEnclave (s : State) (id ctx : Nat) : Bool := s.encCtxs.contains (ctx, id)

/-- The masters of an enclave's contexts: their cores, the queue pairs that hold their entries, and the
host functions that have a window or a queue of theirs. -/
def State.mastersOf (s : State) (id : Nat) : List (Nat × Nat) :=
  (s.allCores.filter fun c => c.task.isSome && s.inEnclave id c.ctx && c.memberOf.isNone).map (fun c => (0, c.num))
    ++ (s.qps.filter fun q => q.entries.any fun e => s.inEnclave id e.ctx).map (fun q => (2, q.num))
    ++ ((List.range 64).filter fun f =>
        (match s.window f with
         | some w => s.inEnclave id w.1
         | none => false)
        || s.queues.any fun q => q.func == f && s.inEnclave id q.ctx).map fun f => (4, f)

/-- R376 steps 2 to 5 for a package of the revoked participant. -/
def State.cutOff (s : State) (id p : Nat) : State :=
  (s.abortPeerIn p 6 true (s.inEnclave id)).losePeerIn p (s.inEnclave id)

/-- An accepted message is applied. -/
def State.revoke (s : State) (e : Enclave) (epoch c sigs : Nat) : State :=
  let theirs := (e.members.filter (·.2 == c)).map (·.1)
  let e' : Enclave := { e with epoch := epoch, revoked := (c :: e.revoked).eraseDups }
  if theirs.contains s.pkg then
    let u := s.putEnclave e'
    ((u.mastersOf e.id).filter fun m => !u.isFrozen m).foldl (fun s m => s.freezeMaster m 6) u
  else
    let u := (e.members.filter (·.1 != s.pkg)).foldl
      (fun (s : State) m => s.sendPacket m.1 (.revocation e.id epoch c sigs)) s
    let e' : Enclave := { e' with key := none, pairs := e'.pairs.filter fun p => !theirs.contains p.1 }
    let u := u.putEnclave e'
    let u := theirs.foldl (fun (s : State) p => s.cutOff e.id p) u
    let u := u.postError { code := 0x12, layer := 12, detail := e.id + 2 ^ 64 * epoch + 2 ^ 96 * c }
    if e'.leads s.pkg then u.rekey e' else u

/-- REVOCATION_MESSAGE_RECEIVE: `sigs` is the mask of the participants whose signature verifies. -/
def execRevocationMessageReceive (id epoch c sigs : Nat) (s : State) : Out :=
  match s.enclaves.find? (·.id == id) with
  | none => .next s
  | some e => .next (if e.accepts epoch c sigs then s.revoke e epoch c sigs else s)

/-- REVOKE: enclave, epoch and participant are laid out as in the record of R361; participant j's
signature over them follows at 16 + 114 j. -/
def State.sigMask (s : State) (e : Enclave) : Nat :=
  ((List.range e.keys.length).filter fun j =>
    edVerify (e.keys.getD j []) (s.arg 0 13) (s.arg (16 + 114 * j) 114)).foldl setBit 0

def execRevoke (s : State) : Out :=
  .next (if !s.spBusy 5 then s
    else match s.enclaves.find? (·.id == s.argN 0 8) with
      | none => s.spRefuse
      | some e =>
        if e.accepts (s.argN 8 4) (s.argN 12 1) (s.sigMask e) then
          (s.revoke e (s.argN 8 4) (s.argN 12 1) (s.sigMask e)).spDone []
        else s.spRefuse)

/-! ### Reset (R367, R368, R371, R382) -/

/-- R368: a repair entry names a spare that is there. -/
def repairOk (e : Nat) : Bool :=
  let kind := bits e 60 4
  decide (bits e 56 4 ≤ 12) &&
    ((kind == 1 && decide (bits e 0 16 < 4))
      || (kind == 2 && decide (bits e 32 24 < 2) && decide (bits e 16 16 < 2048) && decide (bits e 0 16 < 64)))
/-- The spare that a repair entry uses. -/
def spareOf (e : Nat) : Nat × Nat := (bits e 32 32, bits e 0 16)

/-- R367, R368: does the record verify? -/
def recordOk (image rec : List Byte) : Bool :=
  let len := recN rec 4 4
  let n := recN rec 12 4
  let es := (List.range n).map fun i => recN rec (32 + 8 * i) 8
  recN rec 0 4 == 1 && decide (len ≤ rec.length) && decide (32 + 8 * n + 114 ≤ len) && decide (n ≤ 65536)
    && es.all repairOk && decide ((es.map spareOf).Nodup)
    && (match Config.recordKey image rec with
        | some k => edVerify k (rec.take (len - 114)) ((rec.take len).drop (len - 114))
        | none => false)

/-- R371: the identity that the part gives is the certificate's. -/
def identityOk (rec : List Byte) : Bool := Config.certKey (certOf rec) == some (edPublic (deviceSeed rec))

/-- The package in reset, with its mailbox and its measurements M0 and M1 as far as the boot ROM has come.
What keeps its contents is in log entry 62. -/
def State.inReset (s : State) (sp : Mailbox) (measured : List (List Byte)) : State :=
  { State.reset with
    released := false, sp := sp, image := s.image, record := s.record
    measures := measured ++ List.replicate (8 - measured.length) (List.replicate 64 0)
    host := s.host, hbm := s.hbm.filter (fun c => decide (2 ^ 40 ≤ c.1)), out := s.out, due := s.due
    tick := s.tick, free := s.free }
/-- R382: the package stays in reset: SPST reads refused, with the reason. -/
def State.stayReset (s : State) (reason : Nat) (measured : List (List Byte)) : State :=
  s.inReset { st := 3, reason := reason } measured

/-- R250, R255: a slot map without the layers that the record retires. -/
def retireSlots (ret : Nat) (m : Vector (BitVec 4) 64) : Vector (BitVec 4) 64 :=
  m.map fun l => if l.toNat < 12 && bits ret l.toNat 1 == 1 then 15#4 else l

/-- The configuration record, as long as it says. -/
def State.bootRecord (s : State) : List Byte := s.record.take (recN s.record 4 4)
def State.m0 (s : State) : List Byte := shake256 s.image 64
def State.m1 (s : State) : List Byte := shake256 s.bootRecord 64

/-- The package is released (R367, R369, R371, R382). -/
def State.releasePackage (s : State) : State :=
  let ret := recN s.bootRecord 10 2
  let u := s.inReset {} [s.m0, s.m1]
  { u with
    released := true, pkg := recN s.bootRecord 8 2 % 1024
    layers := Vector.ofFn fun l => if bits ret l.val 1 = 1 then { state := .retired } else {}
    slotmap := retireSlots ret u.slotmap, frameMap := retireSlots ret u.frameMap }

/-- PACKAGE_RESET: a package that runs goes into reset, where the host writes the image and the record anew
(log entry 62); one in reset boots from what stands there. -/
def execPackageReset (s : State) : Out :=
  .next (if s.released then ({ s with image := [], record := [] }).inReset {} []
    else if !Config.imageOk s.image then s.stayReset 1 []
    else if !recordOk s.image s.record then s.stayReset 2 [s.m0]
    else if !identityOk s.record then s.stayReset 3 [s.m0, s.m1]
    else s.releasePackage)

end Sys2Proof.Machine
end

