-- ==== Sys2Proof/Machine/Space4.lean ====
section
/-! DEFINITION. The registers of space 4 (R384 and the tables of their chapters): what a write does,
whether a core's store or function 0's BAR2 window brings it (R325), and the store's performance at
its home (R225). -/

namespace Sys2Proof.Machine

/-! ### Plain registers -/

/-- The bits of the 8-byte word at `r` that a write sets, where it does nothing else. -/
def plainMask (r : Nat) : Nat :=
  if 0x0008_0000 ≤ r && r < 0x0008_0050 then 2 ^ 64 - 1                    -- PTB, ANB, IMPB, FQB (R308)
  else if 0x0010_0000 ≤ r && r < 0x0014_0000 then                          -- context descriptors (R283)
    match r % 0x400 with
    | 0x08 => 0xFFFF
    | 0x10 => 0xF_FFFF
    | 0x18 => 2 ^ 64 - 1
    | 0x20 => 0x7F
    | 0x28 => 0x7FF
    | 0x30 => 0x000F_FFFF_0000_0001
    | o => if 0x80 ≤ o && o < 0x100 then protMask.toNat else 0
  else if 0x0020_0000 ≤ r && r < 0x0021_0000 then                          -- groups (R335)
    match r % 0x100 with
    | 0 => 0xFF07
    | 8 => 0xFFFF_FFFF
    | 16 => 0xFFFF_FFFF
    | 24 => 0x83FF
    | 32 => 0x83FF_83FF_83FF_83FF
    | 40 => 0x83FF_83FF_83FF_83FF
    | 48 => 2 ^ 64 - 1
    | 56 => 0xFF
    | _ => 0
  else if 0x0030_0000 ≤ r && r < 0x0032_0000 then                          -- experts (R346)
    match r % 32 with
    | 0 => 2 ^ 64 - 1
    | 8 => 0xFF01_03FF_FFFF_FFFF
    | 16 => 0xFFFF_FFFF_0000_9FFF
    | _ => 0
  else if 0x0040_0000 ≤ r && r < 0x0040_1000 then                          -- PCFG (R330)
    if r % 0x100 = 0 then 0xFF_0001_FFFF else 0
  else if 0x0041_0000 ≤ r && r < 0x0041_0200 then 0x9FFF_FFFF_FFE0_0000    -- HFN (R325)
  else if 0x0042_0000 ≤ r && r < 0x0042_0800 then 2 ^ 64 - 1               -- routes (R329)
  else if r = 0x0050_0000 then 2 ^ 64 - 1                                  -- ERB, ERH, ERVEC (R360)
  else if r = 0x0050_0010 then 0xFFF
  else if r = 0x0050_0020 then 0x1_FFFF
  else if r = 0x0051_0080 then 0xFFFF_FFFF                                 -- CETH (R357)
  else if 0x0060_1000 ≤ r && r < 0x0060_2000 then 2 ^ 64 - 1               -- SPARG (R370)
  else if 0x0100_0000 ≤ r && r < 0x0140_0000 then                          -- page entries (R309)
    if r % 16 = 0 then 0xFFFF_F000_0000_0000 else 0xFC0F_FFFF_FFFF_FFFF
  else if 0x0140_0000 ≤ r && r < 0x0160_0000 then 0x800F_FFFF_800F_FFFF    -- anchors
  else 0

/-- What a write of v leaves in the word at r; RTXL stores 1 for 0 (R330). -/
def plainValue (r old v : Nat) : Nat :=
  let m := plainMask r
  let n := Nat.lor (Nat.land v m) (old - Nat.land old m)
  if 0x0040_0000 ≤ r && r < 0x0040_1000 && r % 0x100 = 0 && bits n 32 8 = 0 then n + 2 ^ 32 else n

/-- R283, R335: is the word closed to writes now? -/
def State.regLocked (s : State) (r : Nat) : Bool :=
  if 0x0010_0000 ≤ r && r < 0x0014_0000 then
    r % 0x400 != 0x30 && s.ctxState ((r - 0x0010_0000) / 0x400) != 0
  else if 0x0020_0000 ≤ r && r < 0x0021_0000 then
    r % 0x100 == 8 && s.groupSt ((r - 0x0020_0000) / 0x100) != 0
  else false

/-- A write to a register that has no behaviour of its own. -/
def State.plainWrite (s : State) (r v : Nat) : State :=
  if plainMask r = 0 || s.regLocked r then s
  else
    let u : State := { s with mmio := s.mmio.writeN r 8 (plainValue r (s.mmio.readN r 8) v) }
    -- a group that the manager frees starts anew (R341)
    if 0x0020_0000 ≤ r && r < 0x0021_0000 && r % 0x100 = 0 && v % 4 = 0 then
      { u with groups := u.groups.filter (·.num != (r - 0x0020_0000) / 0x100) }
    else u

/-! ### Registers that do something -/

/-- The state that one of the machine's own steps leads to. -/
def State.after (s : State) (o : Out) : State :=
  match o with
  | .next t => t
  | _ => s

/-- SPCMD (R370). -/
def State.spCommand (s : State) (v : Nat) : State :=
  if s.sp.st = 1 then s
  else if 1 ≤ v % 256 && v % 256 ≤ 6 then { s with sp := { st := 1, cmd := v % 256 } }
  else s.spRefuse

/-- STATE of context c (R284). -/
def State.stateWrite (s : State) (c v : Nat) : State :=
  match v % 4 with
  | 1 => s.after (execContextStart c s)
  | 0 => if s.ctxState c = 3 then s else s.after (execContextFree c s)
  | _ => s

/-- MIGCMD (R321). -/
def State.migCommand (s : State) (v : Nat) : State :=
  match bits v 120 8 with
  | 1 => s.after (execMigrationStart (bits v 64 24) (bits v 0 24) s)
  | 2 => s.after (execMigrationAbort s)
  | _ => s

/-- A full write of the 8-byte register at r. -/
def State.regWrite (s : State) (r v : Nat) : State :=
  if r = 0x0008_0058 then s.after (execFqhWrite v s)
  else if r = 0x0008_0060 then s.after (execResolveWrite (v % 2048) s)
  else if 0x0010_0000 ≤ r && r < 0x0014_0000 && r % 0x400 = 0 then
    s.stateWrite ((r - 0x0010_0000) / 0x400) v
  else if 0x0051_0000 ≤ r && r < 0x0051_0068 then s.after (execCecClear ((r - 0x0051_0000) / 8) s)
  else if 0x0053_0000 ≤ r && r < 0x0053_1800 then
    s.after (execWareaWrite ((r - 0x0053_0000) / 16) ((r - 0x0053_0000) / 8 % 2) (v % 32) s)
  else if r = 0x0060_0000 then s.spCommand v
  else s.plainWrite r v

/-- R384: the word at r with some bytes of a store merged into it. -/
def State.merged (s : State) (r off : Nat) (bs : List Byte) : Nat :=
  ofBytes ((List.range 8).map fun i =>
    if off ≤ r + i && r + i < off + bs.length then bs.getD (r + i - off) 0 else s.mmioByte (r + i))

/-- The overflow flits of core n's task number v from now on: the newest go, or places of the area are taken
with what stands in them (R207, R364). -/
def State.setOverflowCount (s : State) (n v : Nat) : State :=
  match (s.getCore n).task with
  | none => s
  | some t =>
    let k := (s.overflow.filter (OverFlit.isOf n t.id)).length
    let less := (List.range (k - v)).foldl (fun l _ => dropLast (OverFlit.isOf n t.id) l) s.overflow
    (List.range (v - k)).foldl (fun (s : State) _ =>
      if s.overAt n t.ctx < s.ovf t.ctx then
        let o : OverFlit := { core := n, place := s.freePlace n t.ctx, entry := { task := t.id, flit := emptyFlit } }
        { s with overflow := s.overflow ++ [o] }
      else s) { s with overflow := less }

/-- R356: what a write of a state window does to the poison of a place of core n: a part is clean once all of
it is written, and a register once it is written. -/
def windowClears (n o len : Nat) : Place → Bool
  | .localMem c a => c == n && decide (o ≤ 0x1_0000 + a) && decide (0x1_0000 + a + 16 ≤ o + len)
  | .reg c a => c == n && (if isPart a then decide (o ≤ a) && decide (a + 16 ≤ o + len)
      else layout.any fun f => f.off == a && decide (o < f.off + f.n) && decide (f.off < o + len))
  | _ => false

/-- R364, R356: bytes written to an open state window change the core and clear poison. -/
def State.windowStore (s : State) (n o : Nat) (bs : List Byte) : State :=
  if s.windowOpen n then
    let u := s.modCore n fun c => (c.windowWrite o bs).homePins (s.ctxAsid c.ctx)
    let u := { u with poison := u.poison.filter fun p => !windowClears n o bs.length p }
    if o < 0x1118 && 0x1110 < o + bs.length then
      u.setOverflowCount n (ofBytes ((List.range 8).map fun i =>
        if o ≤ 0x1110 + i && 0x1110 + i < o + bs.length then bs.getD (0x1110 + i - o) 0 else s.windowByte n (0x1110 + i)))
    else u
  else s

/-- A byte list with one byte set, grown by zeros where it is too short. -/
def setByte (l : List Byte) (i : Nat) (b : Byte) : List Byte :=
  if i < l.length then l.set i b else l ++ List.replicate (i - l.length) 0 ++ [b]
/-- R382: bytes that the host writes in reset go into the firmware image or the configuration record. -/
def State.bootWrite (s : State) (off : Nat) (bs : List Byte) : State :=
  bs.zipIdx.foldl (fun (s : State) b => match Config.bootPlace (off + b.2) with
    | some (true, i) => { s with record := setByte s.record i b.1 }
    | some (false, i) => { s with image := setByte s.image i b.1 }
    | none => s) s

/-- A store to space 4 is performed (R384): register by register, in ascending order. In reset it brings in
the firmware (R382). -/
def State.mmioWrite (s : State) (off : Nat) (bs : List Byte) : State :=
  if !s.released then s.bootWrite off bs
  else match windowAt off with
    | some (n, o) => s.windowStore n o bs
    | none =>
      let s := { s with poison := clearPoison s.poison (.mmio off) bs.length }
      if off = 0x0008_0070 && bs.length = 16 then s.migCommand (ofBytes bs)
      else
        (List.range ((off + bs.length - 1) / 8 - off / 8 + 1)).foldl (fun s i =>
          let r := 8 * (off / 8 + i)
          if bs.isEmpty then s else s.regWrite r (s.merged r off bs)) s

/-- SPACE4_REGISTER_WRITE: `size` bytes of v come through the BAR2 window of function 0; a frozen
function's writes are dropped (R363). -/
def execSpace4RegisterWrite (off size v : Nat) (s : State) : Out :=
  if s.behindHost 0 then s.holdHost (.space4RegisterWrite off size v)
  else .next (if s.frozen.contains (4, 0) then s else s.mmioWrite off (bytesOf size v))

/-- ERDROP_READ through the BAR2 window: the count is returned and cleared (R360). -/
def execErdropRead (s : State) : Out :=
  if s.behindHost 0 then s.holdHost .erdropRead
  else .next (s.bar2Read 0x0050_0018 8)

/-! ### Stores at their homes (R225, R328) -/

/-- STORE_PERFORM_AT_HOME: the k-th store on its way is performed, if it is its core's oldest, its way is
clear and no frozen port stands before its home. -/
def execStorePerformAtHome (k : Nat) (s : State) : Out :=
  match s.oldestFlying k with
  | none => .next s
  | some f => s.onRoute f.route (match f.entry.home with
    | .hbm pa => .next (if s.portFrozen pa then s else s.performStore k f)
    | .mmio off => .next ((s.performStore k f).mmioWrite off f.entry.bytes)
    | _ => .next (s.performStore k f))

end Sys2Proof.Machine
end

