-- ==== Sys2Proof/Machine/Dispatch.lean ====
section
/-! DEFINITION. The meaning of every instruction and step: one arm per constructor of Instr. -/

namespace Sys2Proof.Machine

def exec (i : Instr) (s : State) : Host.Outcome State Fault Refusal :=
  match i with
  | .repfPassStep a => Sys2Proof.Machine.execRepfPassStep a s
  | .vmuResourceGrant a => Sys2Proof.Machine.execVmuResourceGrant a s
  | .storeBufferDrain a => Sys2Proof.Machine.execStoreBufferDrain a s
  | .storePerformAtHome a => Sys2Proof.Machine.execStorePerformAtHome a s
  | .acknowledgementReceive a => Sys2Proof.Machine.execAcknowledgementReceive a s
  | .remoteRequestReceive a => Sys2Proof.Machine.execRemoteRequestReceive a s
  | .remoteResponseArrival a => Sys2Proof.Machine.execRemoteResponseArrival a s
  | .remoteLoadWrite a => Sys2Proof.Machine.execRemoteLoadWrite a s
  | .remoteXlatRetry a => Sys2Proof.Machine.execRemoteXlatRetry a s
  | .copyEnginePart a b c => Sys2Proof.Machine.execCopyEnginePart a b c s
  | .copyEngineComplete a b => Sys2Proof.Machine.execCopyEngineComplete a b s
  | .spinwWake a => Sys2Proof.Machine.execSpinwWake a s
  | .spinwTimeout a => Sys2Proof.Machine.execSpinwTimeout a s
  | .yieldExpiry a => Sys2Proof.Machine.execYieldExpiry a s
  | .taskStart a => Sys2Proof.Machine.execTaskStart a s
  | .taskAgingPromotion a b => Sys2Proof.Machine.execTaskAgingPromotion a b s
  | .flitDelivery a => Sys2Proof.Machine.execFlitDelivery a s
  | .handlerStart a => Sys2Proof.Machine.execHandlerStart a s
  | .flitBounceReturn a => Sys2Proof.Machine.execFlitBounceReturn a s
  | .packetAgeDiscard a => Sys2Proof.Machine.execPacketAgeDiscard a s
  | .loadMonitorWindow a b c => Sys2Proof.Machine.execLoadMonitorWindow a b c s
  | .routerPowerDownPropose a => Sys2Proof.Machine.execRouterPowerDownPropose a s
  | .routerPowerDownCommit a => Sys2Proof.Machine.execRouterPowerDownCommit a s
  | .routerWakeLine a => Sys2Proof.Machine.execRouterWakeLine a s
  | .routerWakeDone a => Sys2Proof.Machine.execRouterWakeDone a s
  | .circuitSetupHop a => Sys2Proof.Machine.execCircuitSetupHop a s
  | .circuitReply a => Sys2Proof.Machine.execCircuitReply a s
  | .circuitIdleTimeout a b => Sys2Proof.Machine.execCircuitIdleTimeout a b s
  | .circuitTeardownAck a => Sys2Proof.Machine.execCircuitTeardownAck a s
  | .flitCrcReplay a b => Sys2Proof.Machine.execFlitCrcReplay a b s
  | .mirrorSlotSend a => Sys2Proof.Machine.execMirrorSlotSend a s
  | .mirrorFrameApply a => Sys2Proof.Machine.execMirrorFrameApply a s
  | .gangStopCommand a => Sys2Proof.Machine.execGangStopCommand a s
  | .resumeCommand a => Sys2Proof.Machine.execResumeCommand a s
  | .layerWakeCommand a => Sys2Proof.Machine.execLayerWakeCommand a s
  | .layerDrowsyCommand a => Sys2Proof.Machine.execLayerDrowsyCommand a s
  | .layerSleepCommand a => Sys2Proof.Machine.execLayerSleepCommand a s
  | .layerRetireCommand a => Sys2Proof.Machine.execLayerRetireCommand a s
  | .slot0RecordLost a => Sys2Proof.Machine.execSlot0RecordLost a s
  | .wakeChunkMerge a b => Sys2Proof.Machine.execWakeChunkMerge a b s
  | .gangStopDrainComplete a => Sys2Proof.Machine.execGangStopDrainComplete a s
  | .recordRestore a b c => Sys2Proof.Machine.execRecordRestore a b c s
  | .translationWalk a => Sys2Proof.Machine.execTranslationWalk a s
  | .resolveWrite a => Sys2Proof.Machine.execResolveWrite a s
  | .fqhWrite a => Sys2Proof.Machine.execFqhWrite a s
  | .migrationStart a b => Sys2Proof.Machine.execMigrationStart a b s
  | .migrationAbort => Sys2Proof.Machine.execMigrationAbort s
  | .migrationPinsClear => Sys2Proof.Machine.execMigrationPinsClear s
  | .migrationDrainDone => Sys2Proof.Machine.execMigrationDrainDone s
  | .migrationCommit => Sys2Proof.Machine.execMigrationCommit s
  | .wareaWrite a b c => Sys2Proof.Machine.execWareaWrite a b c s
  | .space4RegisterWrite a b c => Sys2Proof.Machine.execSpace4RegisterWrite a b c s
  | .erdropRead => Sys2Proof.Machine.execErdropRead s
  | .cecClear a => Sys2Proof.Machine.execCecClear a s
  | .cecWindowEnd a => Sys2Proof.Machine.execCecWindowEnd a s
  | .scrubRead a => Sys2Proof.Machine.execScrubRead a s
  | .contextStart a => Sys2Proof.Machine.execContextStart a s
  | .contextFree a => Sys2Proof.Machine.execContextFree a s
  | .hostDoorbell a b => Sys2Proof.Machine.execHostDoorbell a b s
  | .launchSlotStart a => Sys2Proof.Machine.execLaunchSlotStart a s
  | .copySlotStart a => Sys2Proof.Machine.execCopySlotStart a s
  | .slotCompletion a => Sys2Proof.Machine.execSlotCompletion a s
  | .phaseStart a => Sys2Proof.Machine.execPhaseStart a s
  | .launchTaskEnqueue a => Sys2Proof.Machine.execLaunchTaskEnqueue a s
  | .phaseEnd a => Sys2Proof.Machine.execPhaseEnd a s
  | .wellReservationRequest a => Sys2Proof.Machine.execWellReservationRequest a s
  | .wellReservationReply a => Sys2Proof.Machine.execWellReservationReply a s
  | .wellSegmentStage a b => Sys2Proof.Machine.execWellSegmentStage a b s
  | .wellTermClassify a => Sys2Proof.Machine.execWellTermClassify a s
  | .wellBankEvent a b c => Sys2Proof.Machine.execWellBankEvent a b c s
  | .wellReadRequest a => Sys2Proof.Machine.execWellReadRequest a s
  | .wellReadDeadline a => Sys2Proof.Machine.execWellReadDeadline a s
  | .wellReadRetry a => Sys2Proof.Machine.execWellReadRetry a s
  | .wellReadResult a => Sys2Proof.Machine.execWellReadResult a s
  | .wellTermAgeDiscard a => Sys2Proof.Machine.execWellTermAgeDiscard a s
  | .wellSlotQuarantineEnd a b => Sys2Proof.Machine.execWellSlotQuarantineEnd a b s
  | .gateListAtRouter a => Sys2Proof.Machine.execGateListAtRouter a s
  | .gateListHoldExpiry a => Sys2Proof.Machine.execGateListHoldExpiry a s
  | .gateListAtRoot a => Sys2Proof.Machine.execGateListAtRoot a s
  | .dispatchSlotRequest a => Sys2Proof.Machine.execDispatchSlotRequest a s
  | .collectiveEntryFire a => Sys2Proof.Machine.execCollectiveEntryFire a s
  | .collectivePartArrival a => Sys2Proof.Machine.execCollectivePartArrival a s
  | .collectiveEntryComplete a => Sys2Proof.Machine.execCollectiveEntryComplete a s
  | .collectiveTimeout a => Sys2Proof.Machine.execCollectiveTimeout a s
  | .abortReqReceive a b c d => Sys2Proof.Machine.execAbortReqReceive a b c d s
  | .abortReceive a b c d => Sys2Proof.Machine.execAbortReceive a b c d s
  | .abortAckReceive a b => Sys2Proof.Machine.execAbortAckReceive a b s
  | .abortDoneReceive a b => Sys2Proof.Machine.execAbortDoneReceive a b s
  | .abortWaitTimeout a => Sys2Proof.Machine.execAbortWaitTimeout a s
  | .uePacketReceive a => Sys2Proof.Machine.execUePacketReceive a s
  | .uePeerFailure a => Sys2Proof.Machine.execUePeerFailure a s
  | .cxlLinkFailure a => Sys2Proof.Machine.execCxlLinkFailure a s
  | .cxlWriteFailure a => Sys2Proof.Machine.execCxlWriteFailure a s
  | .hostWindowRead a b c => Sys2Proof.Machine.execHostWindowRead a b c s
  | .hostWindowWrite a b c d => Sys2Proof.Machine.execHostWindowWrite a b c d s
  | .hostAtomic a b c d e f => Sys2Proof.Machine.execHostAtomic a b c d e f s
  | .quote => Sys2Proof.Machine.execQuote s
  | .extend => Sys2Proof.Machine.execExtend s
  | .policy => Sys2Proof.Machine.execPolicy s
  | .frames => Sys2Proof.Machine.execFrames s
  | .revoke => Sys2Proof.Machine.execRevoke s
  | .report => Sys2Proof.Machine.execReport s
  | .revocationMessageReceive a b c d => Sys2Proof.Machine.execRevocationMessageReceive a b c d s
  | .groupKeyReceive a => Sys2Proof.Machine.execGroupKeyReceive a s
  | .oldKeyExpiry => Sys2Proof.Machine.execOldKeyExpiry s
  | .temperatureSample a b c => Sys2Proof.Machine.execTemperatureSample a b c s
  | .thermalLimit a => Sys2Proof.Machine.execThermalLimit a s
  | .packageReset => Sys2Proof.Machine.execPackageReset s
  | .illEncoding a => Sys2Proof.Machine.execIllEncoding a s
  | .loadValueReturn a => Sys2Proof.Machine.execLoadValueReturn a s
  | .vmuInstructionComplete a => Sys2Proof.Machine.execVmuInstructionComplete a s
  | .softError a b => Sys2Proof.Machine.execSoftError a b s
  | .thermalLimitLift a => Sys2Proof.Machine.execThermalLimitLift a s
  | .vadd a b c d => Sys2Proof.Machine.execVadd a b c d s
  | .vsub a b c d => Sys2Proof.Machine.execVsub a b c d s
  | .vadds a b c d => Sys2Proof.Machine.execVadds a b c d s
  | .vsubs a b c d => Sys2Proof.Machine.execVsubs a b c d s
  | .vaddus a b c d => Sys2Proof.Machine.execVaddus a b c d s
  | .vsubus a b c d => Sys2Proof.Machine.execVsubus a b c d s
  | .vmul a b c d => Sys2Proof.Machine.execVmul a b c d s
  | .vmulh a b c d => Sys2Proof.Machine.execVmulh a b c d s
  | .vmulhu a b c d => Sys2Proof.Machine.execVmulhu a b c d s
  | .vmac a b c d => Sys2Proof.Machine.execVmac a b c d s
  | .vdot4 a b c d => Sys2Proof.Machine.execVdot4 a b c d s
  | .vand a b c d => Sys2Proof.Machine.execVand a b c d s
  | .vor a b c d => Sys2Proof.Machine.execVor a b c d s
  | .vxor a b c d => Sys2Proof.Machine.execVxor a b c d s
  | .vandn a b c d => Sys2Proof.Machine.execVandn a b c d s
  | .vnot a b c => Sys2Proof.Machine.execVnot a b c s
  | .vsll a b c d => Sys2Proof.Machine.execVsll a b c d s
  | .vsrl a b c d => Sys2Proof.Machine.execVsrl a b c d s
  | .vsra a b c d => Sys2Proof.Machine.execVsra a b c d s
  | .vror a b c d => Sys2Proof.Machine.execVror a b c d s
  | .vslli a b c d => Sys2Proof.Machine.execVslli a b c d s
  | .vsrli a b c d => Sys2Proof.Machine.execVsrli a b c d s
  | .vsrai a b c d => Sys2Proof.Machine.execVsrai a b c d s
  | .vrori a b c d => Sys2Proof.Machine.execVrori a b c d s
  | .vmin a b c d => Sys2Proof.Machine.execVmin a b c d s
  | .vmax a b c d => Sys2Proof.Machine.execVmax a b c d s
  | .vminu a b c d => Sys2Proof.Machine.execVminu a b c d s
  | .vmaxu a b c d => Sys2Proof.Machine.execVmaxu a b c d s
  | .vabs a b c => Sys2Proof.Machine.execVabs a b c s
  | .vfadd a b c d e => Sys2Proof.Machine.execVfadd a b c d e s
  | .vfsub a b c d e => Sys2Proof.Machine.execVfsub a b c d e s
  | .vfmul a b c d e => Sys2Proof.Machine.execVfmul a b c d e s
  | .vfma a b c d e => Sys2Proof.Machine.execVfma a b c d e s
  | .vfms a b c d e => Sys2Proof.Machine.execVfms a b c d e s
  | .vfnma a b c d e => Sys2Proof.Machine.execVfnma a b c d e s
  | .vfmin a b c d => Sys2Proof.Machine.execVfmin a b c d s
  | .vfmax a b c d => Sys2Proof.Machine.execVfmax a b c d s
  | .vfabs a b c => Sys2Proof.Machine.execVfabs a b c s
  | .vfneg a b c => Sys2Proof.Machine.execVfneg a b c s
  | .vfdiv a b c d e => Sys2Proof.Machine.execVfdiv a b c d e s
  | .vfsqrt a b c d => Sys2Proof.Machine.execVfsqrt a b c d s
  | .vfrecip a b c d => Sys2Proof.Machine.execVfrecip a b c d s
  | .vfrsqrt a b c d => Sys2Proof.Machine.execVfrsqrt a b c d s
  | .vcvtS32 a b c d => Sys2Proof.Machine.execVcvtS32 a b c d s
  | .vcvtZ32 a b c d => Sys2Proof.Machine.execVcvtZ32 a b c d s
  | .vcvtF32S32 a b c d => Sys2Proof.Machine.execVcvtF32S32 a b c d s
  | .vcvtF32Z32 a b c d => Sys2Proof.Machine.execVcvtF32Z32 a b c d s
  | .vcvtPbf16 a b c d => Sys2Proof.Machine.execVcvtPbf16 a b c d s
  | .vcvtPf16 a b c d => Sys2Proof.Machine.execVcvtPf16 a b c d s
  | .vcvtUbf16Lo a b c => Sys2Proof.Machine.execVcvtUbf16Lo a b c s
  | .vcvtUbf16Hi a b c => Sys2Proof.Machine.execVcvtUbf16Hi a b c s
  | .vcvtUf16Lo a b c => Sys2Proof.Machine.execVcvtUf16Lo a b c s
  | .vcvtUf16Hi a b c => Sys2Proof.Machine.execVcvtUf16Hi a b c s
  | .vcmp a b c d e => Sys2Proof.Machine.execVcmp a b c d e s
  | .vmaskAnd a b c => Sys2Proof.Machine.execVmaskAnd a b c s
  | .vmaskOr a b c => Sys2Proof.Machine.execVmaskOr a b c s
  | .vmaskXor a b c => Sys2Proof.Machine.execVmaskXor a b c s
  | .vmaskAndn a b c => Sys2Proof.Machine.execVmaskAndn a b c s
  | .vmaskNot a b => Sys2Proof.Machine.execVmaskNot a b s
  | .vmaskSet a => Sys2Proof.Machine.execVmaskSet a s
  | .vmaskClr a => Sys2Proof.Machine.execVmaskClr a s
  | .vsel a b c d => Sys2Proof.Machine.execVsel a b c d s
  | .vperm a b c d => Sys2Proof.Machine.execVperm a b c d s
  | .vrev a b c => Sys2Proof.Machine.execVrev a b c s
  | .vredSumS32 a b c => Sys2Proof.Machine.execVredSumS32 a b c s
  | .vredSumF32 a b c d => Sys2Proof.Machine.execVredSumF32 a b c d s
  | .vredMinS32 a b c => Sys2Proof.Machine.execVredMinS32 a b c s
  | .vredMaxS32 a b c => Sys2Proof.Machine.execVredMaxS32 a b c s
  | .vredMinF32 a b c => Sys2Proof.Machine.execVredMinF32 a b c s
  | .vredMaxF32 a b c => Sys2Proof.Machine.execVredMaxF32 a b c s
  | .vredArgminF32 a b c => Sys2Proof.Machine.execVredArgminF32 a b c s
  | .vredArgmaxF32 a b c => Sys2Proof.Machine.execVredArgmaxF32 a b c s
  | .vtopk a b c d => Sys2Proof.Machine.execVtopk a b c d s
  | .vlaneIota a b => Sys2Proof.Machine.execVlaneIota a b s
  | .vlaneCompress a b c => Sys2Proof.Machine.execVlaneCompress a b c s
  | .vslide a b c d e => Sys2Proof.Machine.execVslide a b c d e s
  | .mma a b c d e f => Sys2Proof.Machine.execMma a b c d e f s
  | .mmaw a b c d e f => Sys2Proof.Machine.execMmaw a b c d e f s
  | .accrd a b c d e f => Sys2Proof.Machine.execAccrd a b c d e f s
  | .accclr a b => Sys2Proof.Machine.execAccclr a b s
  | .tmov a b => Sys2Proof.Machine.execTmov a b s
  | .tmovT16 a b => Sys2Proof.Machine.execTmovT16 a b s
  | .tmovT8 a b => Sys2Proof.Machine.execTmovT8 a b s
  | .tmovVr a b c => Sys2Proof.Machine.execTmovVr a b c s
  | .tmovRv a b c => Sys2Proof.Machine.execTmovRv a b c s
  | .tmovZero a => Sys2Proof.Machine.execTmovZero a s
  | .add a b c => Sys2Proof.Machine.execAdd a b c s
  | .sub a b c => Sys2Proof.Machine.execSub a b c s
  | .and a b c => Sys2Proof.Machine.execAnd a b c s
  | .or a b c => Sys2Proof.Machine.execOr a b c s
  | .xor a b c => Sys2Proof.Machine.execXor a b c s
  | .andn a b c => Sys2Proof.Machine.execAndn a b c s
  | .orn a b c => Sys2Proof.Machine.execOrn a b c s
  | .xnor a b c => Sys2Proof.Machine.execXnor a b c s
  | .sll a b c => Sys2Proof.Machine.execSll a b c s
  | .srl a b c => Sys2Proof.Machine.execSrl a b c s
  | .sra a b c => Sys2Proof.Machine.execSra a b c s
  | .ror a b c => Sys2Proof.Machine.execRor a b c s
  | .min a b c => Sys2Proof.Machine.execMin a b c s
  | .max a b c => Sys2Proof.Machine.execMax a b c s
  | .minu a b c => Sys2Proof.Machine.execMinu a b c s
  | .maxu a b c => Sys2Proof.Machine.execMaxu a b c s
  | .addW a b c => Sys2Proof.Machine.execAddW a b c s
  | .subW a b c => Sys2Proof.Machine.execSubW a b c s
  | .sllW a b c => Sys2Proof.Machine.execSllW a b c s
  | .srlW a b c => Sys2Proof.Machine.execSrlW a b c s
  | .sraW a b c => Sys2Proof.Machine.execSraW a b c s
  | .rorW a b c => Sys2Proof.Machine.execRorW a b c s
  | .addi a b c => Sys2Proof.Machine.execAddi a b c s
  | .andi a b c => Sys2Proof.Machine.execAndi a b c s
  | .ori a b c => Sys2Proof.Machine.execOri a b c s
  | .xori a b c => Sys2Proof.Machine.execXori a b c s
  | .slli a b c d => Sys2Proof.Machine.execSlli a b c d s
  | .srli a b c d => Sys2Proof.Machine.execSrli a b c d s
  | .srai a b c d => Sys2Proof.Machine.execSrai a b c d s
  | .rori a b c d => Sys2Proof.Machine.execRori a b c d s
  | .mul a b c => Sys2Proof.Machine.execMul a b c s
  | .mulh a b c => Sys2Proof.Machine.execMulh a b c s
  | .mulhu a b c => Sys2Proof.Machine.execMulhu a b c s
  | .mulhsu a b c => Sys2Proof.Machine.execMulhsu a b c s
  | .mulW a b c => Sys2Proof.Machine.execMulW a b c s
  | .madd a b c => Sys2Proof.Machine.execMadd a b c s
  | .div a b c => Sys2Proof.Machine.execDiv a b c s
  | .divu a b c => Sys2Proof.Machine.execDivu a b c s
  | .rem a b c => Sys2Proof.Machine.execRem a b c s
  | .remu a b c => Sys2Proof.Machine.execRemu a b c s
  | .divW a b c => Sys2Proof.Machine.execDivW a b c s
  | .divuW a b c => Sys2Proof.Machine.execDivuW a b c s
  | .remW a b c => Sys2Proof.Machine.execRemW a b c s
  | .remuW a b c => Sys2Proof.Machine.execRemuW a b c s
  | .cmp a b c d => Sys2Proof.Machine.execCmp a b c d s
  | .cmpi a b c d => Sys2Proof.Machine.execCmpi a b c d s
  | .sel a b c d => Sys2Proof.Machine.execSel a b c d s
  | .seln a b c d => Sys2Proof.Machine.execSeln a b c d s
  | .extz a b c => Sys2Proof.Machine.execExtz a b c s
  | .exts a b c => Sys2Proof.Machine.execExts a b c s
  | .ins a b c => Sys2Proof.Machine.execIns a b c s
  | .clz a b => Sys2Proof.Machine.execClz a b s
  | .ctz a b => Sys2Proof.Machine.execCtz a b s
  | .popc a b => Sys2Proof.Machine.execPopc a b s
  | .brev a b => Sys2Proof.Machine.execBrev a b s
  | .bswap a b => Sys2Proof.Machine.execBswap a b s
  | .addsh a b c d => Sys2Proof.Machine.execAddsh a b c d s
  | .fadd a b c d => Sys2Proof.Machine.execFadd a b c d s
  | .fsub a b c d => Sys2Proof.Machine.execFsub a b c d s
  | .fmul a b c d => Sys2Proof.Machine.execFmul a b c d s
  | .fdiv a b c d => Sys2Proof.Machine.execFdiv a b c d s
  | .fsqrt a b c => Sys2Proof.Machine.execFsqrt a b c s
  | .fmadd a b c d => Sys2Proof.Machine.execFmadd a b c d s
  | .fmin a b c => Sys2Proof.Machine.execFmin a b c s
  | .fmax a b c => Sys2Proof.Machine.execFmax a b c s
  | .feq a b c => Sys2Proof.Machine.execFeq a b c s
  | .flt a b c => Sys2Proof.Machine.execFlt a b c s
  | .fle a b c => Sys2Proof.Machine.execFle a b c s
  | .fclass a b => Sys2Proof.Machine.execFclass a b s
  | .fneg a b => Sys2Proof.Machine.execFneg a b s
  | .fabs a b => Sys2Proof.Machine.execFabs a b s
  | .fcvti a b c => Sys2Proof.Machine.execFcvti a b c s
  | .fcvtiu a b c => Sys2Proof.Machine.execFcvtiu a b c s
  | .fcvtf a b c => Sys2Proof.Machine.execFcvtf a b c s
  | .fcvtfu a b c => Sys2Proof.Machine.execFcvtfu a b c s
  | .fnarrowBf16 a b c => Sys2Proof.Machine.execFnarrowBf16 a b c s
  | .fnarrowF16 a b c => Sys2Proof.Machine.execFnarrowF16 a b c s
  | .fwidenBf16 a b => Sys2Proof.Machine.execFwidenBf16 a b s
  | .fwidenF16 a b => Sys2Proof.Machine.execFwidenF16 a b s
  | .hint a => Sys2Proof.Machine.execHint a s
  | .beq a b c => Sys2Proof.Machine.execBeq a b c s
  | .bne a b c => Sys2Proof.Machine.execBne a b c s
  | .blt a b c => Sys2Proof.Machine.execBlt a b c s
  | .bge a b c => Sys2Proof.Machine.execBge a b c s
  | .loop a b => Sys2Proof.Machine.execLoop a b s
  | .jr a => Sys2Proof.Machine.execJr a s
  | .jalr a b => Sys2Proof.Machine.execJalr a b s
  | .ret a => Sys2Proof.Machine.execRet a s
  | .j a => Sys2Proof.Machine.execJ a s
  | .call a => Sys2Proof.Machine.execCall a s
  | .mov a b => Sys2Proof.Machine.execMov a b s
  | .movx a b c => Sys2Proof.Machine.execMovx a b c s
  | .movxw a b c => Sys2Proof.Machine.execMovxw a b c s
  | .movaToPointer a b => Sys2Proof.Machine.execMovaToPointer a b s
  | .movaFromPointer a b => Sys2Proof.Machine.execMovaFromPointer a b s
  | .adda a b c => Sys2Proof.Machine.execAdda a b c s
  | .movaPointerPointer a b => Sys2Proof.Machine.execMovaPointerPointer a b s
  | .movqSend a b => Sys2Proof.Machine.execMovqSend a b s
  | .movqReadSend a b => Sys2Proof.Machine.execMovqReadSend a b s
  | .movqReceive a b => Sys2Proof.Machine.execMovqReceive a b s
  | .movs a b => Sys2Proof.Machine.execMovs a b s
  | .movsS a b => Sys2Proof.Machine.execMovsS a b s
  | .li a b c => Sys2Proof.Machine.execLi a b c s
  | .movmToMask a b => Sys2Proof.Machine.execMovmToMask a b s
  | .movmFromMask a b => Sys2Proof.Machine.execMovmFromMask a b s
  | .movmMaskMask a b => Sys2Proof.Machine.execMovmMaskMask a b s
  | .ld a b c d e => Sys2Proof.Machine.execLd a b c d e s
  | .ldx a b c d e => Sys2Proof.Machine.execLdx a b c d e s
  | .lda a b c d e f g => Sys2Proof.Machine.execLda a b c d e f g s
  | .st a b c d => Sys2Proof.Machine.execSt a b c d s
  | .stx a b c d e => Sys2Proof.Machine.execStx a b c d e s
  | .stl a b c d e f g => Sys2Proof.Machine.execStl a b c d e f g s
  | .vld a b c => Sys2Proof.Machine.execVld a b c s
  | .vst a b c => Sys2Proof.Machine.execVst a b c s
  | .amoSwap a b c d e f => Sys2Proof.Machine.execAmoSwap a b c d e f s
  | .amoAdd a b c d e f => Sys2Proof.Machine.execAmoAdd a b c d e f s
  | .amoAnd a b c d e f => Sys2Proof.Machine.execAmoAnd a b c d e f s
  | .amoOr a b c d e f => Sys2Proof.Machine.execAmoOr a b c d e f s
  | .amoXor a b c d e f => Sys2Proof.Machine.execAmoXor a b c d e f s
  | .amoMin a b c d e f => Sys2Proof.Machine.execAmoMin a b c d e f s
  | .amoMax a b c d e f => Sys2Proof.Machine.execAmoMax a b c d e f s
  | .amoMinu a b c d e f => Sys2Proof.Machine.execAmoMinu a b c d e f s
  | .amoMaxu a b c d e f => Sys2Proof.Machine.execAmoMaxu a b c d e f s
  | .amoCas a b c d e f => Sys2Proof.Machine.execAmoCas a b c d e f s
  | .amoFadd a b c d e => Sys2Proof.Machine.execAmoFadd a b c d e s
  | .bkopSumS32 a b c => Sys2Proof.Machine.execBkopSumS32 a b c s
  | .bkopSumF32 a b c => Sys2Proof.Machine.execBkopSumF32 a b c s
  | .bkopMinS32 a b c => Sys2Proof.Machine.execBkopMinS32 a b c s
  | .bkopMaxS32 a b c => Sys2Proof.Machine.execBkopMaxS32 a b c s
  | .bkopMinF32 a b c => Sys2Proof.Machine.execBkopMinF32 a b c s
  | .bkopMaxF32 a b c => Sys2Proof.Machine.execBkopMaxF32 a b c s
  | .bkopArgminS32 a b c => Sys2Proof.Machine.execBkopArgminS32 a b c s
  | .bkopArgmaxS32 a b c => Sys2Proof.Machine.execBkopArgmaxS32 a b c s
  | .bkopFill a b c => Sys2Proof.Machine.execBkopFill a b c s
  | .fenceFull a => Sys2Proof.Machine.execFenceFull a s
  | .fenceAcq a => Sys2Proof.Machine.execFenceAcq a s
  | .fenceRel a => Sys2Proof.Machine.execFenceRel a s
  | .spinw a b c d => Sys2Proof.Machine.execSpinw a b c d s
  | .touch a b c => Sys2Proof.Machine.execTouch a b c s
  | .region => Sys2Proof.Machine.execRegion s
  | .gld a b c d => Sys2Proof.Machine.execGld a b c d s
  | .gst a b c d => Sys2Proof.Machine.execGst a b c d s
  | .copy a b => Sys2Proof.Machine.execCopy a b s
  | .copys a b => Sys2Proof.Machine.execCopys a b s
  | .sbind a b c d => Sys2Proof.Machine.execSbind a b c d s
  | .sctlUnbind a => Sys2Proof.Machine.execSctlUnbind a s
  | .sctlSkip a b => Sys2Proof.Machine.execSctlSkip a b s
  | .sctlPos a b => Sys2Proof.Machine.execSctlPos a b s
  | .sctlLeft a b => Sys2Proof.Machine.execSctlLeft a b s
  | .waitr a => Sys2Proof.Machine.execWaitr a s
  | .waitrAll => Sys2Proof.Machine.execWaitrAll s
  | .rnew a b => Sys2Proof.Machine.execRnew a b s
  | .rpost a b c d e f => Sys2Proof.Machine.execRpost a b c d e f s
  | .rread a b c d => Sys2Proof.Machine.execRread a b c d s
  | .rdelta a b c d => Sys2Proof.Machine.execRdelta a b c d s
  | .rabsent a b => Sys2Proof.Machine.execRabsent a b s
  | .radv a b => Sys2Proof.Machine.execRadv a b s
  | .rfree a => Sys2Proof.Machine.execRfree a s
  | .rstatGen a b => Sys2Proof.Machine.execRstatGen a b s
  | .rstatLanded a b c => Sys2Proof.Machine.execRstatLanded a b c s
  | .rstatAbsent a b c => Sys2Proof.Machine.execRstatAbsent a b c s
  | .rstatLate a b => Sys2Proof.Machine.execRstatLate a b s
  | .rstatCounts a b => Sys2Proof.Machine.execRstatCounts a b s
  | .rstatFlags a b c => Sys2Proof.Machine.execRstatFlags a b c s
  | .rstatClear a b => Sys2Proof.Machine.execRstatClear a b s
  | .vbcast a b => Sys2Proof.Machine.execVbcast a b s
  | .vbcastLane a b c => Sys2Proof.Machine.execVbcastLane a b c s
  | .vmovx a b c => Sys2Proof.Machine.execVmovx a b c s
  | .vmovxS a b c => Sys2Proof.Machine.execVmovxS a b c s
  | .mmam a b c d e f g => Sys2Proof.Machine.execMmam a b c d e f g s
  | .accst a b c d e f g => Sys2Proof.Machine.execAccst a b c d e f g s
  | .accld a b c d e f g => Sys2Proof.Machine.execAccld a b c d e f g s
  | .accswap => Sys2Proof.Machine.execAccswap s
  | .accstat a b => Sys2Proof.Machine.execAccstat a b s
  | .tld a b c => Sys2Proof.Machine.execTld a b c s
  | .tldW a b => Sys2Proof.Machine.execTldW a b s
  | .tst a b c => Sys2Proof.Machine.execTst a b c s
  | .tabld a b => Sys2Proof.Machine.execTabld a b s
  | .tabldPreset a => Sys2Proof.Machine.execTabldPreset a s
  | .enc a b c => Sys2Proof.Machine.execEnc a b c s
  | .dec a b c => Sys2Proof.Machine.execDec a b c s
  | .repf a b c d => Sys2Proof.Machine.execRepf a b c d s
  | .done => Sys2Proof.Machine.execDone s
  | .phaseOr a => Sys2Proof.Machine.execPhaseOr a s
  | .phaseMax a => Sys2Proof.Machine.execPhaseMax a s
  | .yield a => Sys2Proof.Machine.execYield a s
  | .spawn a b => Sys2Proof.Machine.execSpawn a b s
  | .barInit a b c => Sys2Proof.Machine.execBarInit a b c s
  | .barArr a b => Sys2Proof.Machine.execBarArr a b s
  | .barw a b => Sys2Proof.Machine.execBarw a b s
  | .barSync a => Sys2Proof.Machine.execBarSync a s
  | .barRead a b => Sys2Proof.Machine.execBarRead a b s
  | .joinArm a b c => Sys2Proof.Machine.execJoinArm a b c s
  | .joinArr a b => Sys2Proof.Machine.execJoinArr a b s
  | .joinRead a b => Sys2Proof.Machine.execJoinRead a b s
  | .msgPoll a => Sys2Proof.Machine.execMsgPoll a s
  | .msgHdr a => Sys2Proof.Machine.execMsgHdr a s
  | .msgDrop => Sys2Proof.Machine.execMsgDrop s
  | .compose a b => Sys2Proof.Machine.execCompose a b s
  | .decompose => Sys2Proof.Machine.execDecompose s
  | .csetup a b c => Sys2Proof.Machine.execCsetup a b c s
  | .crel a => Sys2Proof.Machine.execCrel a s
  | .cqpost a b c => Sys2Proof.Machine.execCqpost a b c s
  | .trigAdd a b => Sys2Proof.Machine.execTrigAdd a b s
  | .trigSet a b => Sys2Proof.Machine.execTrigSet a b s
  | .trigRead a b => Sys2Proof.Machine.execTrigRead a b s
  | .cqwait a b c => Sys2Proof.Machine.execCqwait a b c s
  | .cabort a => Sys2Proof.Machine.execCabort a s
  | .cabortSeq a b => Sys2Proof.Machine.execCabortSeq a b s
  | .gatek a b => Sys2Proof.Machine.execGatek a b s
  | .gatekOpen a b c => Sys2Proof.Machine.execGatekOpen a b c s
  | .dispatch a b => Sys2Proof.Machine.execDispatch a b s
  | .csrr a b => Sys2Proof.Machine.execCsrr a b s
  | .csrw a b => Sys2Proof.Machine.execCsrw a b s
  | .csrs a b => Sys2Proof.Machine.execCsrs a b s
  | .csrc a b => Sys2Proof.Machine.execCsrc a b s
  | .trap a => Sys2Proof.Machine.execTrap a s
  | .brk a => Sys2Proof.Machine.execBrk a s
  | .eret => Sys2Proof.Machine.execEret s
  | .xinvPage a b => Sys2Proof.Machine.execXinvPage a b s
  | .xinvAsid a => Sys2Proof.Machine.execXinvAsid a s
  | .xinvAll => Sys2Proof.Machine.execXinvAll s
  | .xinvSync => Sys2Proof.Machine.execXinvSync s
  | .gstop a b => Sys2Proof.Machine.execGstop a b s
  | .gstopGo a b => Sys2Proof.Machine.execGstopGo a b s
  | .freeze a b => Sys2Proof.Machine.execFreeze a b s
  | .unfreeze a b => Sys2Proof.Machine.execUnfreeze a b s
  | .lctlSleep a b => Sys2Proof.Machine.execLctlSleep a b s
  | .lctlDrowsy a b => Sys2Proof.Machine.execLctlDrowsy a b s
  | .lctlWake a b => Sys2Proof.Machine.execLctlWake a b s
  | .lctlRetire a b => Sys2Proof.Machine.execLctlRetire a b s

end Sys2Proof.Machine
end

