-- ==== Sys2Proof/Machine/Sched.lean ====
section
/-! DEFINITION. Who moves next (log entry 40). The manual fixes no order among the agents of a package;
the model takes one: what stands in `due` first, else the core whose turn it is, with one of the
machine's own steps in between every second step, the units in turn, and another core's turn every 64. -/

namespace Sys2Proof.Machine

/-! ### What may be done -/

/-- A unit, by a number of its own, and the steps it may take, the oldest first. -/
abbrev Agent := Nat × List Instr

/-- The units of one core. -/
def Core.agents (c : Core) : List Agent :=
  let n := c.num
  [(100 + 8 * n, if c.sb.isEmpty then [] else [.storeBufferDrain n]),
   (101 + 8 * n, if c.frame.act then [.repfPassStep n] else []),
   (102 + 8 * n, if c.rorder.isEmpty then [] else [.remoteLoadWrite n]),
   (103 + 8 * n, ((List.finRange 16).map fun i => match c.locks[i] with
      | none => []
      | some e => (List.range ((e.len + 15) / 16)).map (fun p => Instr.copyEnginePart n i.val p)
          ++ [Instr.copyEngineComplete n i.val]).flatten),
   (104 + 8 * n, match c.wait, c.watch, c.task with
      | .spinw _, some (_, true), some t => [.spinwWake t.id]
      | _, _, _ => []),
   (105 + 8 * n, if c.vmuWait.isSome then [.vmuResourceGrant (n / 4)] else [])]

/-- The cores that a dispatcher may give a task to. -/
def Task.cores (t : Task) : List Nat :=
  match t.bound with
  | some n => [n]
  | none => (List.range 16).map (16 * t.dom + ·)

/-- One step for each member of a list. -/
def eachOf {α : Type} (l : List α) (f : Nat → Instr) : List Instr := (List.range l.length).map f

/-- Steps of equals begin at another one every time. -/
def State.spin (s : State) (l : List Instr) : List Instr := l.rotateLeft (s.tick / 2)

/-- The steps of tasks, messages, memory and links. -/
def State.worksPlain (s : State) : List (List Instr) :=
  [eachOf s.flying .storePerformAtHome, eachOf s.acks .acknowledgementReceive,
   eachOf s.walks .translationWalk,
   eachOf s.requests .remoteRequestReceive, eachOf s.responses .remoteResponseArrival,
   eachOf s.flits .flitDelivery, eachOf s.flits .handlerStart, eachOf s.flits .flitBounceReturn,
   s.spin (((s.queue.map Task.cores).flatten.eraseDups).map .taskStart),
   s.records.filterMap fun r => match r.image.wait, r.image.watch, r.image.task with
     | .spinw _, some (_, true), some t => some (.spinwWake t.id)
     | _, _, _ => none,
   eachOf s.setups .circuitSetupHop, eachOf s.replies .circuitReply,
   eachOf s.teardowns .circuitTeardownAck,
   eachOf s.wire .uePacketReceive,
   (s.power.filter fun p => p.2 == .waking).map fun p => .routerWakeDone p.1,
   s.spin ((s.vmus.filter fun v => v.array.isSome || !v.groups.isEmpty).map fun v =>
     .vmuInstructionComplete v.quad)]

/-- The steps of wells, collectives, gates and experts. -/
def State.worksUnits (s : State) : List (List Instr) :=
  [eachOf s.terms .wellReservationRequest,
   s.terms.filterMap fun t => match t.src with
     | .core n => some (.wellReservationReply n)
     | _ => none,
   ((List.range s.terms.length).map fun k => match s.terms[k]? with
     | some t => (List.range (t.data.length / 64)).map (Instr.wellSegmentStage k)
     | none => []).flatten,
   eachOf s.terms .wellTermClassify,
   s.spin (s.wells.map fun w => match w.well with
     | some x => (List.range x.d).map (Instr.wellBankEvent w.home w.idx)
     | none => []).flatten,
   (s.reads.map fun r => [Instr.wellReadRequest r.core, .wellReadRetry r.core, .wellReadResult r.core]).flatten,
   eachOf s.gateLists .gateListAtRouter, eachOf s.gateLists .gateListAtRoot,
   eachOf s.slotReqs .dispatchSlotRequest,
   s.spin (s.qps.map fun q => .collectiveEntryFire q.num),
   eachOf s.parts .collectivePartArrival, eachOf s.fired .collectiveEntryComplete]

/-- The slots of the present frame that their layer still has stores for, and the next frame once
something waits for it (R249, R252). -/
def State.worksMirror (s : State) : List (List Instr) :=
  let left := (List.range 64).filter fun k => decide (s.slotNow < k) &&
    (let src := (s.frameMap.toList.getD k 15).toNat
     s.sends src && !(s.mirrorQueue src).isEmpty)
  [left.map .mirrorSlotSend
    ++ (if !left.isEmpty then [] else
        if s.sent.isEmpty && s.baseq.isEmpty && !((List.range 12).any fun l => s.sends l && !(s.layer l).mq.isEmpty)
        then [] else [.mirrorFrameApply 0]),
   (List.range 12).filterMap fun l => (s.layer l).waking.map fun w => Instr.wakeChunkMerge l w.next]

/-- The steps of the sequencer, the manager's commands and the security processor. -/
def State.worksPackage (s : State) : List (List Instr) :=
  [(s.queues.map fun q => [Instr.launchSlotStart q.num, .copySlotStart q.num]).flatten,
   s.spin (eachOf s.slots .phaseStart), s.spin (eachOf s.slots .launchTaskEnqueue),
   s.spin (eachOf s.slots .phaseEnd),
   s.spin ((s.slots.map fun x => match x.kind with
     | .copy c => (List.range ((c.len + 15) / 16)).map (Instr.copyEnginePart numCores x.id)
     | _ => []).flatten),
   s.spin (eachOf s.slots .slotCompletion),
   (List.range s.signals.length).map fun j => .slotCompletion (s.slots.length + j),
   s.cmds.map fun c => match c with
     | .gangStop c => Instr.gangStopCommand c
     | .resume c => .resumeCommand c
     | .wake l => .layerWakeCommand l
     | .drowsy l => .layerDrowsyCommand l
     | .sleep l => .layerSleepCommand l
     | .retire l => .layerRetireCommand l,
   s.held.map .gangStopDrainComplete,
   (s.held.filter fun c => s.ctxState c == 3).map .contextFree,
   (s.records.filter (·.go)).map fun r => .recordRestore r.ctx r.dom r.num,
   if s.mig.isSome then [.migrationPinsClear, .migrationDrainDone, .migrationCommit] else [],
   if s.sp.st = 1 then [.quote, .extend, .policy, .frames, .revoke, .report] else []]

/-- What goes on by itself: the units below 100, and the cores' units above. -/
def State.works (s : State) : List Agent :=
  let units := s.worksPlain ++ s.worksUnits ++ s.worksPackage ++ s.worksMirror
  (List.range units.length).zip units ++ (s.allCores.map Core.agents).flatten

/-- What goes on once its time has come: lists of units, and each task's own timers. -/
def State.timers (s : State) : List Agent :=
  let tasks := (s.allCores.filterMap (·.task)).map (·.id) ++ (s.records.filterMap (·.image.task)).map (·.id)
  [(0, s.spin (s.reads.map fun r => .wellReadDeadline r.core)),
   (1, eachOf s.gateHolds .gateListHoldExpiry), (2, eachOf s.terms .wellTermAgeDiscard),
   (3, (s.wells.filter (·.resting)).map fun w => .wellSlotQuarantineEnd w.home w.idx),
   (4, s.queue.map fun q => .taskAgingPromotion q.dom q.id)]
    ++ tasks.map fun t => (5 + t, [.yieldExpiry t, .spinwTimeout t, .remoteXlatRetry t])

/-- The first of these steps that does something, done. -/
def State.firstOf (s : State) : List Instr → Option State
  | [] => none
  | i :: t => match exec i s with
    | .next u => if u = s then s.firstOf t else some u
    | _ => s.firstOf t

/-- The first of these units that can do something does it: its number, and the state after it. -/
def State.firstAgent (s : State) : List Agent → Option (Nat × State)
  | [] => none
  | (k, l) :: t => match s.firstOf l with
    | some u => some (k, u)
    | none => s.firstAgent t

def insertAgent (a : Agent) : List Agent → List Agent
  | [] => [a]
  | b :: t => if a.1 ≤ b.1 then a :: b :: t else b :: insertAgent a t

/-- R202, R234: the units in the order of their numbers, beginning behind the one served last, so that
each that can do something is served before any is served twice. -/
def rotation (last : Nat) (l : List Agent) : List Agent :=
  let l := l.foldr insertAgent []
  l.filter (fun a => decide (last < a.1)) ++ l.filter (fun a => decide (a.1 ≤ last))

/-- A host access that waited is tried again, the first of its function (R322, R326, R328, R363): the
k-th one, of those from the k-th on. -/
def State.retryFrom (s : State) (k : Nat) : List Instr → Option State
  | [] => none
  | i :: t =>
    let before := s.later.take k
    if before.any fun j => s.hostFunc j == s.hostFunc i then s.retryFrom (k + 1) t
    else match exec i { s with later := before } with
      | .next u => if u.later = before then some { u with later := before ++ t } else s.retryFrom (k + 1) t
      | _ => s.retryFrom (k + 1) t

def State.retryHost (s : State) : Option State := if s.hostHeld then none else s.retryFrom 0 s.later

def State.unitStep (s : State) : Option State :=
  (s.firstAgent (rotation s.served s.works)).map fun r => { r.2 with served := r.1 }
def State.work (s : State) : Option State := (s.retryHost <|> s.unitStep).map State.wakeStalls
def State.timer (s : State) : Option State :=
  (s.firstAgent (rotation s.timed s.timers)).map fun r => { r.2 with timed := r.1 }.wakeStalls

/-! ### Whose turn it is -/

/-- The next core in rising order that can go on, round to the present one. -/
def State.nextTurn (s : State) : Option Nat :=
  let ready := (s.others.filter fun c => s.coreRuns c && !c.stalled).map (·.num)
  (ready.find? fun n => decide (s.core.num < n)) <|> ready.head?

/-- Which of the four kinds of step is first at a tick. -/
inductive Turn where
  | core | work | other | timer
  deriving DecidableEq, Repr

def turnAt (tick : Nat) : Turn :=
  if tick % 1024 = 1023 then .timer
  else if tick % 64 = 63 then .other
  else if tick % 2 = 0 then .work
  else .core

/-- What is done when the current core does not go on. -/
def State.elsewhere (s : State) : State :=
  match s.work with
  | some t => t
  | none => match s.nextTurn with
    | some n => s.focus n
    | none => match s.timer with
      | some t => t
      | none => s.wakeStalls

/-- What the turn asks for instead of the current core, if there is such a thing. -/
def State.insteadOf (s : State) : Turn → Option State
  | .core => none
  | .work => s.work
  | .other => s.nextTurn.map s.focus
  | .timer => s.timer

/-! ### Around an instruction -/

/-- Instructions that access no memory and change nothing but x and a registers, and PC. -/
def registersOnly : Instr → Bool
  | .csrr _ _ | .hint _
  | .add _ _ _ | .sub _ _ _ | .and _ _ _ | .or _ _ _ | .xor _ _ _ | .andn _ _ _ | .orn _ _ _ | .xnor _ _ _
  | .sll _ _ _ | .srl _ _ _ | .sra _ _ _ | .ror _ _ _ | .min _ _ _ | .max _ _ _ | .minu _ _ _ | .maxu _ _ _
  | .addW _ _ _ | .subW _ _ _ | .sllW _ _ _ | .srlW _ _ _ | .sraW _ _ _ | .rorW _ _ _
  | .addi _ _ _ | .andi _ _ _ | .ori _ _ _ | .xori _ _ _
  | .slli _ _ _ _ | .srli _ _ _ _ | .srai _ _ _ _ | .rori _ _ _ _
  | .mul _ _ _ | .mulh _ _ _ | .mulhu _ _ _ | .mulhsu _ _ _ | .mulW _ _ _ | .madd _ _ _
  | .div _ _ _ | .divu _ _ _ | .rem _ _ _ | .remu _ _ _ | .divW _ _ _ | .divuW _ _ _ | .remW _ _ _ | .remuW _ _ _
  | .cmp _ _ _ _ | .cmpi _ _ _ _ | .sel _ _ _ _ | .seln _ _ _ _
  | .extz _ _ _ | .exts _ _ _ | .ins _ _ _ | .clz _ _ | .ctz _ _ | .popc _ _ | .brev _ _ | .bswap _ _
  | .addsh _ _ _ _
  | .fadd _ _ _ _ | .fsub _ _ _ _ | .fmul _ _ _ _ | .fdiv _ _ _ _ | .fsqrt _ _ _ | .fmadd _ _ _ _
  | .fmin _ _ _ | .fmax _ _ _ | .feq _ _ _ | .flt _ _ _ | .fle _ _ _ | .fclass _ _ | .fneg _ _ | .fabs _ _
  | .fcvti _ _ _ | .fcvtiu _ _ _ | .fcvtf _ _ _ | .fcvtfu _ _ _ | .fnarrowBf16 _ _ _ | .fnarrowF16 _ _ _
  | .fwidenBf16 _ _ | .fwidenF16 _ _
  | .beq _ _ _ | .bne _ _ _ | .blt _ _ _ | .bge _ _ _ | .loop _ _ | .jr _ | .j _
  | .mov _ _ | .movx _ _ _ | .movxw _ _ _ | .movaToPointer _ _ | .movaFromPointer _ _ | .adda _ _ _
  | .movaPointerPointer _ _ | .movqReadSend _ _ | .li _ _ _ | .movmFromMask _ _ => true
  | _ => false

/-- R350, R352: instructions that may run while remote loads are on their way: they change only what a
fault of such a load puts back. -/
def runsEarly (i : Instr) : Bool :=
  registersOnly i || (match i with
    | .gld _ _ _ _ | .ld _ _ _ _ _ | .ldx _ _ _ _ _ | .lda _ _ _ _ _ _ _ => true
    | _ => false)

/-- Remote loads are on their way, and no other instruction has begun. -/
def State.gated (s : State) : Bool := !s.core.rorder.isEmpty && !s.core.begun

/-- R352: behind a remote load only these instructions run, and only where they complete: a trap, and the
trap of a single step, stand behind the load's own faults. A stall for want of a slot counts (R350). -/
def State.behindGld (s : State) (o : Out) : Out :=
  if s.core.ss && !s.core.p then .next s.stall
  else match o with
    | .next t =>
      if t.core.completed then .next t
      else .next { s.stall with core := { s.stall.core with rstall := t.core.rstall, slotWait := t.core.slotWait } }
    | x => x

/-- R248, R352: the core was resumed, and the response of the remote load that comes next is lost: the
oldest outstanding one, or the one at PC that its restore issues again. -/
def State.loadLost (s : State) : Bool :=
  s.core.progress != .ending && s.core.resumed && (s.headAged s.core.num || s.lost.any fun l => l.core == s.core.num && l.cls == .load)

/-- R248: the instruction, or its fetch, has lost a packet and keeps waiting. A DONE past its first step waits no
longer for what is lost (log entry 103). -/
def State.dataLost (s : State) : Bool :=
  s.core.progress != .ending && s.lost.any fun l => l.core == s.core.num && l.cls == .load

/-- R303: an instruction that could not go on waits, and shows it until it is issued again. -/
def State.noteWait (s : State) : State :=
  if s.core.stalled then { s with core := { s.core with gaveUp := stallKind (bits s.core.iw.toNat 25 7) } } else s

/-- After an instruction: with it done, the core is no longer one that was resumed; where it waits for
what is lost and was resumed, it raises AGED (R248). A DONE past its first step never traps (R167): it waits
no longer for what is lost (log entry 103). -/
def State.settleInstr (s : State) : State :=
  if s.core.completed then { s with core := { s.core with resumed := false, late := none } }
  else if s.core.stalled && s.core.resumed && s.hasLost s.core.num then
    (if s.core.progress == .ending then
      { s with lost := s.lost.filter (·.core != s.core.num), core := { s.core with stalled := false } }
     else s.agedTrap)
  else s.noteWait

end Sys2Proof.Machine
end

