-- ==== Sys2Proof/Machine/Step.lean ====
section
/-! DEFINITION. One step of the machine. -/

namespace Sys2Proof.Machine

/-- What follows an instruction's completion. -/
def settled : Out → Out
  | .next t => .next t.settleInstr.afterInstr
  | .fault r => .fault r
  | .refused r => .refused r

/-- Run a decoded instruction and what follows its completion. -/
def runInstr (i : Instr) (s : State) : Host.Outcome State Fault Refusal := settled (exec i s)

/-- One of the machine's own steps; whoever waited may try again afterwards. -/
def runEvent (i : Instr) (s : State) : Host.Outcome State Fault Refusal :=
  match exec i s with
  | .next t => .next t.wakeStalls
  | .fault r => .fault r
  | .refused r => .refused r

/-- The instruction that a fetch gives: a word that is none raises ILL (R57, R65). -/
noncomputable def fetched (f : Fetched) : Instr :=
  match decodeWord f.w f.l0 f.l1 with
  | .ok i => i
  | .error _ => .illEncoding (BitVec.ofNat 32 f.w)

/-- The instruction that a body word of a repeat frame holds (R60). -/
noncomputable def bodyWord (w : Nat) : Option Instr :=
  match decodeWord w 0 0 with
  | .ok i => some i
  | .error _ => none

/-- The current core's next instruction. -/
noncomputable def runCore (s : State) : Host.Outcome State Fault Refusal :=
  if s.loadLost then .next s.agedTrap
  else if s.dataLost then .next s.stall
  else if s.gated then
    s.behindGld (s.fetch fun f =>
      if runsEarly (fetched f) then exec (fetched f) (s.begin f) else .next s.stall)
  else if s.core.progress == .ending then runInstr .done s
  else match s.boundary with
  | some t => .next { t with core := { t.core with gaveUp := 0, slotWait := none } }
  | none =>
    if s.core.frame.cap then settled (s.capture bodyWord)
    else s.fetch fun f =>
      if s.frameFirst && !registersOnly (fetched f) then .next s.stall else runInstr (fetched f) (s.begin f)

/-- What is due comes first; a package in reset does nothing else (R382); else the turn decides. -/
noncomputable def advance (s : State) : Host.Outcome State Fault Refusal :=
  match s.due with
  | .event i :: t => runEvent i { s with due := t }
  | .turn n :: t =>
    .next (if n < numCores then (({ s with due := t }).focus n).wakeStalls else { s with due := t })
  | [] =>
    if !s.released then .next s
    else match s.insteadOf (turnAt s.tick) with
    | some t => .next t
    | none => if s.canRun && !s.core.stalled then runCore s else .next s.elsewhere

/-- One step. What it sends out of the package goes on its way (R329, R374). -/
noncomputable def step (s : State) : Host.Outcome State Fault Refusal :=
  match advance { s with tick := s.tick + 1 } with
  | .next t => .next (t.seal s.out.length)
  | .fault r => .fault r
  | .refused r => .refused r

/-- The task that runs the placed instruction: 62 registers, all of local memory, and a handler entry. -/
def placedTask : Task :=
  { id := 0, hdr := { handler := 0x1000_0000_0000_0100, localSize := 16384, regs := 62 } }

/-- PROT0 as the placed instruction has it: reads of the whole of space 1. -/
def placedProt : Word := 0x980F_FFFF_F000_0000#64

/-- `s` with the instruction of `w`, of `nbits` bits, at the start of router 0's vault, and core 0 about
to fetch it: its task runs there, as if a launch had started it (log entry 41). Nothing stands before
the fetch. -/
def State.withFetchWord (s : State) (nbits w : Nat) : State :=
  let u := s.focus 0
  let c := u.core
  { u with
    due := [], tick := 0, released := true, held := u.held.filter (· != 0)
    layers := u.layers.set 0 { u.layers[0] with state := .awake, waking := none }
    mmio := u.mmio.clear 0x0053_0000 8
    poison := clearPoison u.poison (.vault 0) 16
    flying := u.flying.filter (·.core != 0)
    power := u.power.filter (·.1 != 0)
    vmus := u.vmus.filter (·.quad != 0)
    vault := u.vault.writeBytes 0 (bytesOf 12 (w % 2 ^ nbits))
    core := { c with
      task := some placedTask, tstate := .running, wait := .none, frozen := false, memberOf := none
      stalled := false, progress := .none, woken := false, rwait := false, rorder := [], bounces := 0
      resumed := false, owed := none, vmuWait := none, brkDue := false
      frame := {}, sb := [], sbOld := 0, locks := Vector.replicate 16 none, rlim := 62
      prot := c.prot.set 0 placedProt, pc := 0x1000_0000_0000_0000 } }

end Sys2Proof.Machine
end

