-- ==== Sys2Proof/Safety.lean ====
section
/-! DEFINITION. What counts as a safe state and a safe outcome, in the terms the claims use. -/

namespace Sys2Proof.Machine

/-- The machine goes on: the outcome is a next state, not a stop. -/
def Goes (o : Out) : Prop := ∃ t, o = .next t

/-- The memories that a core holds are in their canonical form. -/
def Core.memOk (c : Core) : Bool :=
  Memory.wf c.loc && Memory.wf c.share && c.t.toList.all Memory.wf

/-- Every memory of the machine is in its canonical form. -/
def State.memOk (s : State) : Bool :=
  Memory.wf s.vault && Memory.wf s.hbm && Memory.wf s.mirror && Memory.wf s.mmio && Memory.wf s.host
    && s.allCores.all Core.memOk && s.layers.toList.all (fun l => Memory.wf l.mirror)
    && s.records.all (fun r => r.image.memOk)

/-- Slot 0 of the mirrored region's frame belongs to the base die (R250), in the map that stands and
in the map of the current frame. -/
def State.slot0 (s : State) : Prop := s.slotmap[0] = 12#4 ∧ s.frameMap[0] = 12#4

end Sys2Proof.Machine
end

