-- ==== Sys2Proof/Certificates/Slice0/Obligations.lean ====
section
/-! DEFINITION. The statements for the provers, from the spec's numbered rules. -/

open Sys2Proof Sys2Proof.Machine

namespace Sys2Proof.Claims

/-! ### Terms that the statements share -/

/-- The task has the registers with these numbers (R39). -/
abbrev Named (s : State) (fields : List Nat) : Prop := ∀ i ∈ fields, i = 0 ∨ i < s.core.rlim

/-- No check of R39 or R356 stops an instruction that names the registers `fields` and reads the
registers with the cells `cells`, and no remote load has still to write one that it names (R352). -/
abbrev Usable (s : State) (fields cells : List Nat) : Prop :=
  Named s fields ∧ s.awaits fields = false ∧ ∀ c ∈ cells, Place.reg s.core.num c ∉ s.poison

/-- Poison leaves a register that is written (R356). -/
def cleaned (s : State) (cell : Nat) : List Place := s.poison.filter (· != .reg s.core.num cell)

/-- `s` once its instruction is done and the next one stands at `pc`; nothing else changes. -/
def went (s : State) (pc : Word) : State :=
  { s with core := { s.core with pc := pc, npc := pc, completed := true, progress := .none } }

/-- The same, with `v` written to `d`; a write to x0 is discarded (R36, R78). -/
def wrote (s : State) (d : XReg) (v : Word) (pc : Word) : State :=
  { s with
    core := { s.core with
      x := if d.val = 0 then s.core.x else s.core.x.set d.val v
      pc := pc, npc := pc, completed := true, progress := .none }
    poison := if d.val = 0 then s.poison else cleaned s (cellX d.val) }

/-- The target of a branch of the instruction at PC (R53). -/
def dest (s : State) (off : Word) : Word := s.core.pc + off * 4

/-- The word is no instruction, whatever follows it: a step runs it as the encoding that raises ILL with
the word as TVAL (R65, and the statements StepRunsDecoded and Traps). -/
def Ill (w : Nat) : Prop := ∀ x y, ∃ e, decodeWord w x y = .error e

/-- A word of the R format (R53) with the given fields. -/
def wordR (op : Nat) (d s t : BitVec 6) (fn : BitVec 7) : Nat :=
  op * 2 ^ 25 + d.toNat * 2 ^ 19 + s.toNat * 2 ^ 13 + t.toNat * 2 ^ 7 + fn.toNat

/-- A word of the I format (R53) with the given fields. -/
def wordI (op : Nat) (d s : BitVec 6) (i : BitVec 13) : Nat :=
  op * 2 ^ 25 + d.toNat * 2 ^ 19 + s.toNat * 2 ^ 13 + i.toNat

end Sys2Proof.Claims

open Sys2Proof.Claims

/-! ### Integer and bit arithmetic (R78-R88) -/

/-- R80, R83-R85, R88 with R78: the two-source members write their result to rd, go to the next
instruction, and change nothing else. -/
def Sys2Proof.Claims.IntegerTwoSource : Prop :=
  ∀ (s : State) (d : XReg) (a b : XSrc),
    Usable s (d.val :: (a.regs ++ b.regs)) (a.cells ++ b.cells) →
    let x := s.src a
    let y := s.src b
    let n := y.toNat % 64
    let does (i : Instr) (v : Word) := exec i s = .next (wrote s d v s.core.npc)
    does (.add d a b) (x + y) ∧ does (.sub d a b) (x - y)
    ∧ does (.and d a b) (x &&& y) ∧ does (.or d a b) (x ||| y) ∧ does (.xor d a b) (x ^^^ y)
    ∧ does (.andn d a b) (x &&& ~~~y) ∧ does (.orn d a b) (x ||| ~~~y)
    ∧ does (.xnor d a b) (~~~(x ^^^ y))
    ∧ does (.sll d a b) (x <<< n) ∧ does (.srl d a b) (x >>> n)
    ∧ does (.sra d a b) (BitVec.ofInt 64 (x.toInt / 2 ^ n))
    ∧ does (.ror d a b) (x >>> n ||| x <<< (64 - n))
    ∧ does (.min d a b) (if x.toInt < y.toInt then x else y)
    ∧ does (.max d a b) (if x.toInt < y.toInt then y else x)
    ∧ does (.minu d a b) (if x.toNat < y.toNat then x else y)
    ∧ does (.maxu d a b) (if x.toNat < y.toNat then y else x)
    ∧ ∀ k : BitVec 3, does (.addsh d a b k) (x + y * BitVec.ofNat 64 (2 ^ k.toNat))

/-- R80, R83, R84: the members that work on the low 32 bits, their results extended as R14 says. -/
def Sys2Proof.Claims.IntegerTwoSourceW : Prop :=
  ∀ (s : State) (d : XReg) (a b : XSrc),
    Usable s (d.val :: (a.regs ++ b.regs)) (a.cells ++ b.cells) →
    let x := (s.src a).extractLsb' 0 32
    let y := (s.src b).extractLsb' 0 32
    let n := (s.src b).toNat % 64
    let does (i : Instr) (v : Word) := exec i s = .next (wrote s d v s.core.npc)
    does (.addW d a b) ((x + y).signExtend 64) ∧ does (.subW d a b) ((x - y).signExtend 64)
    ∧ does (.mulW d a b) ((x * y).signExtend 64)
    ∧ does (.sllW d a b) (if 32 ≤ n then 0 else (x <<< n).signExtend 64)
    ∧ does (.srlW d a b) (if 32 ≤ n then 0 else (x >>> n).zeroExtend 64)
    ∧ does (.sraW d a b) (BitVec.ofInt 64 (x.toInt / 2 ^ n))
    ∧ does (.rorW d a b) ((x >>> (n % 32) ||| x <<< (32 - n % 32)).zeroExtend 64)
    ∧ does (.divW d a b) (BitVec.ofInt 64
        (if y = 0 then -1 else if x.toInt = -2 ^ 31 ∧ y.toInt = -1 then -2 ^ 31 else x.toInt.tdiv y.toInt))
    ∧ does (.divuW d a b) (BitVec.ofNat 64 (if y = 0 then 2 ^ 32 - 1 else x.toNat / y.toNat))
    ∧ does (.remW d a b) (BitVec.ofInt 64 (if y = 0 then x.toInt else x.toInt.tmod y.toInt))
    ∧ does (.remuW d a b) (BitVec.ofNat 64 (if y = 0 then x.toNat else x.toNat % y.toNat))

/-- R83, R84 with R15: products, quotients and remainders of 64 bits. -/
def Sys2Proof.Claims.MultiplyDivide : Prop :=
  ∀ (s : State) (d : XReg) (a b : XSrc),
    Usable s (d.val :: (a.regs ++ b.regs)) (a.cells ++ b.cells) →
    let x := s.src a
    let y := s.src b
    let does (i : Instr) (v : Word) := exec i s = .next (wrote s d v s.core.npc)
    does (.mul d a b) (x * y)
    ∧ does (.mulh d a b) ((x.signExtend 128 * y.signExtend 128).extractLsb' 64 64)
    ∧ does (.mulhu d a b) ((x.zeroExtend 128 * y.zeroExtend 128).extractLsb' 64 64)
    ∧ does (.mulhsu d a b) ((x.signExtend 128 * y.zeroExtend 128).extractLsb' 64 64)
    ∧ does (.div d a b) (BitVec.ofInt 64
        (if y = 0 then -1 else if x.toInt = -2 ^ 63 ∧ y.toInt = -1 then -2 ^ 63 else x.toInt.tdiv y.toInt))
    ∧ does (.divu d a b) (BitVec.ofNat 64 (if y = 0 then 2 ^ 64 - 1 else x.toNat / y.toNat))
    ∧ does (.rem d a b) (BitVec.ofInt 64 (if y = 0 then x.toInt else x.toInt.tmod y.toInt))
    ∧ does (.remu d a b) (BitVec.ofNat 64 (if y = 0 then x.toNat else x.toNat % y.toNat))
    ∧ (Usable s [] [cellX d.val] → does (.madd d a b) (s.rx d + x * y))

/-- R80, R88: every other sub-code of ALU, and ADDSH with fn7[6:3] not 0, raises ILL. -/
def Sys2Proof.Claims.AluRest : Prop :=
  ∀ (d s t : BitVec 6) (fn : BitVec 7),
    (0x12 ≤ fn.toNat → ¬(0x18 ≤ fn.toNat ∧ fn.toNat ≤ 0x1B) → Ill (wordR 0x01 d s t fn))
    ∧ (8 ≤ fn.toNat → Ill (wordR 0x0D d s t fn))

/-- The integer instructions of two sources, their word forms, and the multiplies and divides of words
and doublewords. -/
def Obligations.IntegerArithmetic : Prop :=
  Claims.IntegerTwoSource ∧
  Claims.IntegerTwoSourceW ∧
  Claims.MultiplyDivide ∧
  Claims.AluRest

/-- R81, R82, R95: the immediate members and the constants. -/
def Sys2Proof.Claims.IntegerImmediate : Prop :=
  ∀ (s : State) (d : XReg) (a : XSrc), Usable s (d.val :: a.regs) a.cells →
    let x := s.src a
    let does (i : Instr) (v : Word) := exec i s = .next (wrote s d v s.core.npc)
    (∀ i : BitVec 13,
      does (.addi d a i) (BitVec.ofInt 64 (x.toInt + i.toInt)) ∧ does (.andi d a i) (x &&& i.signExtend 64)
      ∧ does (.ori d a i) (x ||| i.signExtend 64) ∧ does (.xori d a i) (x ^^^ i.signExtend 64))
    ∧ (∀ n : BitVec 6,
      does (.slli d a false n) (x <<< n.toNat) ∧ does (.srli d a false n) (x >>> n.toNat)
      ∧ does (.srai d a false n) (BitVec.ofInt 64 (x.toInt / 2 ^ n.toNat))
      ∧ does (.rori d a false n) (x >>> n.toNat ||| x <<< (64 - n.toNat)))
    ∧ (∀ n : BitVec 6,
      let y := x.extractLsb' 0 32
      does (.slli d a true n) (if 32 ≤ n.toNat then 0 else (y <<< n.toNat).signExtend 64)
      ∧ does (.srli d a true n) (if 32 ≤ n.toNat then 0 else (y >>> n.toNat).zeroExtend 64)
      ∧ does (.srai d a true n) (BitVec.ofInt 64 (y.toInt / 2 ^ n.toNat))
      ∧ does (.rori d a true n)
          ((y >>> (n.toNat % 32) ||| y <<< (32 - n.toNat % 32)).zeroExtend 64))
    ∧ does (.mov d a) x
    ∧ ∀ (h : BitVec 6) (i : BitVec 13), does (.li d h i) (BitVec.ofInt 64 (i.toInt * 2 ^ h.toNat))

/-- R85: the truth value of a condition, as CMP and CMPI write it. -/
def Sys2Proof.Claims.Comparisons : Prop :=
  ∀ (s : State) (d : XReg) (a b : XSrc) (i : BitVec 9) (c : Cond),
    let holds (x y : Word) : Prop := match c with
      | .eq => x = y | .ne => x ≠ y
      | .lt => x.toInt < y.toInt | .ge => y.toInt ≤ x.toInt
      | .ltu => x.toNat < y.toNat | .geu => y.toNat ≤ x.toNat
      | .le => x.toInt ≤ y.toInt | .gt => y.toInt < x.toInt
      | .leu => x.toNat ≤ y.toNat | .gtu => y.toNat < x.toNat
    (Usable s (d.val :: (a.regs ++ b.regs)) (a.cells ++ b.cells) → ∃ v,
      exec (.cmp d a b c) s = .next (wrote s d v s.core.npc)
        ∧ (holds (s.src a) (s.src b) → v = 1) ∧ (¬holds (s.src a) (s.src b) → v = 0))
    ∧ (Usable s (d.val :: a.regs) a.cells → ∃ v,
      exec (.cmpi d a c i) s = .next (wrote s d v s.core.npc)
        ∧ (holds (s.src a) (i.signExtend 64) → v = 1) ∧ (¬holds (s.src a) (i.signExtend 64) → v = 0))

/-- R86: SEL and SELN choose by the condition register, which R39 checks like any other source. -/
def Sys2Proof.Claims.Selects : Prop :=
  ∀ (s : State) (d c : XReg) (a b : XSrc),
    (Usable s (d.val :: (a.regs ++ b.regs ++ [c.val])) (a.cells ++ b.cells ++ [cellX c.val]) →
      exec (.sel d a b c) s = .next (wrote s d (if s.rx c ≠ 0 then s.src a else s.src b) s.core.npc)
      ∧ exec (.seln d a b c) s = .next (wrote s d (if s.rx c ≠ 0 then s.src b else s.src a) s.core.npc))
    ∧ (Named s (d.val :: (a.regs ++ b.regs)) → ¬Named s [c.val] →
      exec (.sel d a b c) s = .next (s.takeTrap .regidx (BitVec.ofNat 64 c.val))
      ∧ exec (.seln d a b c) s = .next (s.takeTrap .regidx (BitVec.ofNat 64 c.val)))

/-- R87: bit fields and bit counts, bit by bit. -/
def Sys2Proof.Claims.BitFields : Prop :=
  ∀ (s : State) (d : XReg) (a b : XSrc),
    let x := s.src a
    let pos := (s.src b).toNat % 64
    let len := min ((s.src b).toNat / 256 % 128) 64
    let w := min len (64 - pos)
    let does (i : Instr) (p : Word → Prop) := ∃ v, exec i s = .next (wrote s d v s.core.npc) ∧ p v
    (Usable s (d.val :: (a.regs ++ b.regs)) (a.cells ++ b.cells) →
      does (.extz d a b) (fun v => ∀ k, v.getLsbD k = (decide (k < w) && x.getLsbD (pos + k)))
      ∧ does (.exts d a b) (fun v => ∀ k < 64, v.getLsbD k
          = if k < w then x.getLsbD (pos + k) else (decide (0 < w) && x.getLsbD (pos + w - 1)))
      ∧ (Usable s [] [cellX d.val] → does (.ins d a b) (fun v => ∀ k < 64, v.getLsbD k
          = if pos ≤ k ∧ k < pos + w then x.getLsbD (k - pos) else (s.rx d).getLsbD k)))
    ∧ (Usable s (d.val :: a.regs) a.cells →
      does (.clz d a) (fun v => v.toNat ≤ 64 ∧ (∀ k < 64, 64 - v.toNat ≤ k → x.getLsbD k = false)
          ∧ (v.toNat < 64 → x.getLsbD (63 - v.toNat) = true))
      ∧ does (.ctz d a) (fun v => v.toNat ≤ 64 ∧ (∀ k < v.toNat, x.getLsbD k = false)
          ∧ (v.toNat < 64 → x.getLsbD v.toNat = true))
      ∧ does (.popc d a) (fun v => v.toNat = (List.range 64).countP (fun k => x.getLsbD k))
      ∧ does (.brev d a) (fun v => ∀ k < 64, v.getLsbD k = x.getLsbD (63 - k))
      ∧ does (.bswap d a) (fun v => ∀ k < 64, v.getLsbD k = x.getLsbD (8 * (7 - k / 8) + k % 8)))

/-- R85, R87, R95: the sub-codes and the fields that these families reserve raise ILL. -/
def Sys2Proof.Claims.OperandRest : Prop :=
  ∀ (d s t : BitVec 6) (fn : BitVec 7) (i : BitVec 9) (c : BitVec 4),
    (10 ≤ fn.toNat → Ill (wordR 0x09 d s t fn))
    ∧ (10 ≤ c.toNat → Ill (wordI 0x0A d s (c ++ i)))
    ∧ ((8 ≤ fn.toNat ∨ 3 ≤ fn.toNat ∧ t ≠ 0) → Ill (wordR 0x0C d s t fn))
    ∧ ((fn ≠ 0 ∨ t ≠ 0) → Ill (wordR 0x18 d s t fn))

/-- The integer instructions with an immediate, the comparisons, the selects and the bit-field
instructions. -/
def Obligations.IntegerOperands : Prop :=
  Claims.IntegerImmediate ∧
  Claims.Comparisons ∧
  Claims.Selects ∧
  Claims.BitFields ∧
  Claims.OperandRest

/-! ### Scalar floating point (R89) -/

/-- R89: each member writes the exact result rounded once under rm, with zeros above it. -/
def Sys2Proof.Claims.ScalarFloat : Prop :=
  ∀ (s : State) (d : XReg) (a b : XSrc) (r : Rm),
    let ca := (s.src a).toNat % 2 ^ 32
    let cb := (s.src b).toNat % 2 ^ 32
    let x := fmtF32.value ca
    let y := fmtF32.value cb
    let once (v : FV) : Word := BitVec.ofNat 64 (fmtF32.ofFV r v).code
    let does (i : Instr) (v : Word) := exec i s = .next (wrote s d v s.core.npc)
    (Usable s (d.val :: (a.regs ++ b.regs)) (a.cells ++ b.cells) →
      does (.fadd d a b r) (once (FV.add r x y)) ∧ does (.fsub d a b r) (once (FV.add r x y.neg))
      ∧ does (.fmul d a b r) (once (FV.mul x y))
      ∧ does (.fdiv d a b r) (BitVec.ofNat 64 (fmtF32.divC r ca cb))
      ∧ (Usable s [] [cellX d.val] → does (.fmadd d a b r)
          (once (FV.add r (fmtF32.value ((s.rx d).toNat % 2 ^ 32)) (FV.mul x y))))
      ∧ does (.fmin d a b) (BitVec.ofNat 64 (fmtF32.minC ca cb))
      ∧ does (.fmax d a b) (BitVec.ofNat 64 (fmtF32.maxC ca cb))
      ∧ does (.feq d a b) (if x.isNan || y.isNan || x.lt y || y.lt x then 0 else 1)
      ∧ does (.flt d a b) (if x.lt y then 1 else 0)
      ∧ does (.fle d a b) (if x.isNan || y.isNan || y.lt x then 0 else 1))
    ∧ (Usable s (d.val :: a.regs) a.cells →
      does (.fsqrt d a r) (BitVec.ofNat 64 (fmtF32.sqrtC r ca))
      ∧ does (.fclass d a) (BitVec.ofNat 64 (fmtF32.classC ca))
      ∧ does (.fneg d a) (if x.isNan then 0x7FC0_0000 else BitVec.ofNat 64 ca ^^^ 0x8000_0000)
      ∧ does (.fabs d a) (if x.isNan then 0x7FC0_0000 else BitVec.ofNat 64 ca &&& 0x7FFF_FFFF)
      ∧ does (.fcvti d a r) (BitVec.ofInt 64 (match x with
          | .nan => 0 | .inf n => if n then -2 ^ 63 else 2 ^ 63 - 1
          | .fin n m e => max (-2 ^ 63) (min (2 ^ 63 - 1) (roundInt r n m e))))
      ∧ does (.fcvtiu d a r) (BitVec.ofInt 64 (match x with
          | .nan => 0 | .inf n => if n then 0 else 2 ^ 64 - 1
          | .fin n m e => max 0 (min (2 ^ 64 - 1) (roundInt r n m e))))
      ∧ does (.fcvtf d a r) (once (FV.ofInt (s.src a).toInt 0 false))
      ∧ does (.fcvtfu d a r) (once (FV.ofInt (s.src a).toNat 0 false))
      ∧ does (.fnarrowBf16 d a r) (BitVec.ofNat 64 (fmtBf16.ofFV r x).code)
      ∧ does (.fnarrowF16 d a r) (BitVec.ofNat 64 (fmtF16.ofFV r x).code)
      ∧ does (.fwidenBf16 d a) (BitVec.ofNat 64 (fmtF32.ofFV .rne (fmtBf16.value ((s.src a).toNat % 2 ^ 16))).code)
      ∧ does (.fwidenF16 d a) (BitVec.ofNat 64 (fmtF32.ofFV .rne (fmtF16.value ((s.src a).toNat % 2 ^ 16))).code))

/-- R21: rounding a fraction to an integer under each mode: the nearest with ties to even, toward
zero, up and down, and exactly where the fraction is whole. -/
def Sys2Proof.Claims.RoundingModes : Prop :=
  ∀ (rm : Rm) (neg : Bool) (num den : Nat), 0 < den →
    let r := (roundNat rm neg num den).1
    (num % den = 0 → r * den = num)
    ∧ (rm = .rne → 2 * r * den ≤ 2 * num + den ∧ 2 * num ≤ 2 * r * den + den
        ∧ (2 * r * den = 2 * num + den ∨ 2 * num = 2 * r * den + den → r % 2 = 0))
    ∧ ((rm = .rtz ∨ rm = .rup ∧ neg = true ∨ rm = .rdn ∧ neg = false) → r = num / den)
    ∧ ((rm = .rup ∧ neg = false ∨ rm = .rdn ∧ neg = true) → num ≤ r * den ∧ r * den < num + den)
    ∧ ((roundNat rm neg num den).2 = true ↔ num % den ≠ 0)

/-- R18-R20, R89, R139: on the codes of FP32, the quotient, the square root, the reciprocals, the minimum and
maximum, the class, the negation and the magnitude. A root is pinned by 63 or more of its leading bits and by
whether it is exact, which no rounding boundary can part. -/
def Sys2Proof.Claims.FloatValues : Prop :=
  ∀ (a b : Nat) (r : Rm), a < 2 ^ 32 → b < 2 ^ 32 →
    let inf := 0x7F80_0000
    let nan := 0x7FC0_0000
    let neg (c : Nat) : Bool := decide (2 ^ 31 ≤ c)
    let mag (c : Nat) : Nat := c % 2 ^ 31
    -- a finite number is sig * 2^exp, and -0 stands below +0
    let sig (c : Nat) : Nat := if mag c < 2 ^ 23 then mag c else 2 ^ 23 + c % 2 ^ 23
    let exp (c : Nat) : Int := (max 1 (c / 2 ^ 23 % 256) : Nat) - 150
    let key (c : Nat) : Int := if neg c then -(mag c : Int) - 1 else c
    let zero (n : Bool) : Nat := if n then 2 ^ 31 else 0
    let root (num den : Nat) (e : Int) (c : Nat) : Prop := ∃ (q k : Nat) (d : Int), e - k = 2 * d ∧ 2 ^ 62 ≤ q
      ∧ q * q * den ≤ num * 2 ^ k ∧ num * 2 ^ k < (q + 1) * (q + 1) * den
      ∧ c = (fmtF32.round r false (2 * q + if q * q * den = num * 2 ^ k then 0 else 1) 1 (d - 1)).code
    fmtF32.divC r a b = (let n := neg a != neg b
        if inf < mag a ∨ inf < mag b ∨ mag a = inf ∧ mag b = inf ∨ mag a = 0 ∧ mag b = 0 then nan
        else if mag a = inf ∨ mag b = 0 then zero n + inf
        else if mag a = 0 ∨ mag b = inf then zero n
        else (fmtF32.round r n (sig a) (sig b) (exp a - exp b)).code)
    ∧ fmtF32.minC a b = (if inf < mag a ∨ inf < mag b then nan else if key a ≤ key b then a else b)
    ∧ fmtF32.maxC a b = (if inf < mag a ∨ inf < mag b then nan else if key a ≤ key b then b else a)
    ∧ fmtF32.negC a = (if inf < mag a then nan else zero (!neg a) + mag a)
    ∧ fmtF32.absC a = (if inf < mag a then nan else mag a)
    ∧ fmtF32.classC a = 2 ^ (if inf < mag a then (if a % 2 ^ 23 < 2 ^ 22 then 8 else 9)
        else if mag a = inf then (if neg a then 0 else 7) else if mag a = 0 then (if neg a then 3 else 4)
        else if mag a < 2 ^ 23 then (if neg a then 2 else 5) else (if neg a then 1 else 6))
    ∧ fmtF32.recipC r a = (if inf < mag a then nan else if mag a = inf then zero (neg a)
        else if mag a = 0 then a + inf else (fmtF32.round r (neg a) 1 (sig a) (-exp a)).code)
    ∧ (inf < mag a ∨ neg a = true ∧ mag a ≠ 0 → fmtF32.sqrtC r a = nan ∧ fmtF32.rsqrtC r a = nan)
    ∧ (mag a = 0 → fmtF32.sqrtC r a = a ∧ fmtF32.rsqrtC r a = a + inf)
    ∧ (a = inf → fmtF32.sqrtC r a = inf ∧ fmtF32.rsqrtC r a = 0)
    ∧ (0 < a → a < inf → root (sig a) 1 (exp a) (fmtF32.sqrtC r a)
        ∧ root 1 (sig a) (-exp a) (fmtF32.rsqrtC r a))

/-- The scalar floating-point instructions, the rounding modes, and the values of the operations on
codes. -/
def Obligations.ScalarFloats : Prop :=
  Claims.ScalarFloat ∧
  Claims.RoundingModes ∧
  Claims.FloatValues

/-! ### Control flow (R90-R94) -/

/-- R90, R92-R94: branches, jumps, calls and the no-ops go where the rules say and write nothing but
the link register and the link shadow. -/
def Sys2Proof.Claims.Jumps : Prop :=
  ∀ (s : State) (d : XReg) (a b : XSrc),
    (Usable s (a.regs ++ b.regs) (a.cells ++ b.cells) → ∀ o : BitVec 13,
      let t := dest s (o.signExtend 64)
      let n := s.core.npc
      exec (.beq a b o) s = .next (went s (if s.src a = s.src b then t else n))
      ∧ exec (.bne a b o) s = .next (went s (if s.src a = s.src b then n else t))
      ∧ exec (.blt a b o) s = .next (went s (if (s.src a).toInt < (s.src b).toInt then t else n))
      ∧ exec (.bge a b o) s = .next (went s (if (s.src a).toInt < (s.src b).toInt then n else t)))
    ∧ (∀ o : BitVec 25,
      exec (.j o) s = .next (went s (dest s (o.signExtend 64)))
      ∧ exec (.hint o) s = .next (went s s.core.npc)
      ∧ (Usable s [1] [] → exec (.call o) s
          = .next { wrote s 1 (s.core.pc + 4) (dest s (o.signExtend 64)) with
              core := { (wrote s 1 (s.core.pc + 4) (dest s (o.signExtend 64))).core with
                link := s.core.pc + 4 } })
      ∧ (s.core.rlim ≤ 1 → exec (.call o) s = .next (s.takeTrap .regidx 1)))
    ∧ (Usable s a.regs a.cells →
      ((s.src a).toNat % 4 = 0 →
        exec (.jr a) s = .next (went s (s.src a)) ∧ exec (.ret a) s = .next (went s (s.src a)))
      ∧ ((s.src a).toNat % 4 ≠ 0 →
        exec (.jr a) s = .next (s.takeTrap .align (s.src a))
        ∧ exec (.ret a) s = .next (s.takeTrap .align (s.src a))))
    ∧ (Usable s (d.val :: a.regs) a.cells →
      ((s.src a).toNat % 4 = 0 → exec (.jalr d a) s
        = .next { wrote s d s.core.npc (s.src a) with
            core := { (wrote s d s.core.npc (s.src a)).core with link := s.core.npc } })
      ∧ ((s.src a).toNat % 4 ≠ 0 → exec (.jalr d a) s = .next (s.takeTrap .align (s.src a))))

/-- R93, R94: every word of major 0x0F is a hint, and the words that R93 rules out raise ILL. -/
def Sys2Proof.Claims.JumpWords : Prop :=
  (∀ (o : BitVec 25) (x y : Nat), decodeWord (0x0F * 2 ^ 25 + o.toNat) x y = .ok (.hint o))
  ∧ decodeWord 0x1E000000 0 0 = .ok (.hint 0)
  ∧ ∀ (d s t : BitVec 6) (fn : BitVec 7), 3 ≤ fn.toNat ∨ t ≠ 0 ∨ (fn ≠ 1 ∧ d ≠ 0) → Ill (wordR 0x15 d s t fn)

/-- Branches, jumps, calls and no-ops: where they go and what they write. -/
def Obligations.ControlFlow : Prop :=
  Claims.Jumps ∧
  Claims.JumpWords

/-- R91: LOOP decrements its counter, which wraps, and branches while it is not zero. -/
def Sys2Proof.Claims.CountedLoop : Prop :=
  ∀ (s : State) (c : XReg) (o : BitVec 13), c.val ≠ 0 → Usable s [c.val] [cellX c.val] →
    exec (.loop c o) s = .next (wrote s c (s.rx c - 1)
      (if s.rx c = 1 then s.core.npc else dest s (o.signExtend 64)))

/-- R91: a LOOP with a nonzero rt, or on x0, raises ILL. -/
def Sys2Proof.Claims.LoopRest : Prop :=
  ∀ (c t : BitVec 6) (o : BitVec 13), t ≠ 0 ∨ c = 0 → Ill (wordI 0x14 c t o)

/-- LOOP counts its register down and branches while the result is not zero. -/
def Obligations.CountedLoops : Prop :=
  Claims.CountedLoop ∧
  Claims.LoopRest

/-! ### Moves (R95-R102) -/

/-- R40, R97: MOVX and MOVXW reach the register that the index names, and an index outside the task's
registers traps with TVAL = j. -/
def Sys2Proof.Claims.RelativeRegisters : Prop :=
  ∀ (s : State) (d : XReg) (a b : XSrc) (k : BitVec 13),
    let j := s.src a + k.signExtend 64
    (Usable s (d.val :: a.regs) a.cells →
      (∀ r : XReg, j = BitVec.ofNat 64 r.val → Usable s [r.val] [cellX r.val] →
        exec (.movx d a k) s = .next (wrote s d (s.rx r) s.core.npc))
      ∧ (j.toInt < 0 ∨ (j ≠ 0 ∧ s.core.rlim ≤ j.toNat) →
        exec (.movx d a k) s = .next (s.takeTrap .regidx j)))
    ∧ (Usable s (b.regs ++ a.regs) (b.cells ++ a.cells) →
      (∀ r : XReg, j = BitVec.ofNat 64 r.val → Usable s [r.val] [] →
        exec (.movxw b a k) s = .next (wrote s r (s.src b) s.core.npc))
      ∧ (j.toInt < 0 ∨ (j ≠ 0 ∧ s.core.rlim ≤ j.toNat) →
        exec (.movxw b a k) s = .next (s.takeTrap .regidx j)))

/-- R98, R99, R101: moves between scalar, pointer, mask and send registers; the mask register's wait
for a repeat frame's passes. -/
def Sys2Proof.Claims.ClassMoves : Prop :=
  ∀ (s : State) (d : XReg) (a : XSrc) (p q : AReg) (m n : MReg) (e : QReg),
    let toA (v : Word) : Out := .next (went { s with
      core := { s.core with a := s.core.a.set p.val v }, poison := cleaned s (cellA p.val) } s.core.npc)
    let toM (v : Word) : Out := .next (went { s with
      core := { s.core with m := s.core.m.set m.val v }, poison := cleaned s (cellM m.val) } s.core.npc)
    (Usable s a.regs a.cells →
      exec (.movaToPointer p a) s = toA (s.src a)
      ∧ (e.val ≠ 7 → exec (.movqSend e a) s = .next (went { s with
          core := { s.core with qs := s.core.qs.set e.val (s.src a) }
          poison := cleaned s (cellQs e.val) } s.core.npc))
      ∧ (s.vmuBusy = false → exec (.movmToMask m a) s = toM (s.src a)))
    ∧ (Usable s a.regs (cellA q.val :: a.cells) → exec (.adda p q a) s = toA (s.core.a[q] + s.src a))
    ∧ (Usable s [] [cellA q.val] → exec (.movaPointerPointer p q) s = toA s.core.a[q])
    ∧ (Usable s [d.val] [cellA q.val] →
      exec (.movaFromPointer d q) s = .next (wrote s d s.core.a[q] s.core.npc))
    ∧ (Usable s [d.val] [cellQs e.val] →
      exec (.movqReadSend d e) s = .next (wrote s d s.core.qs[e] s.core.npc))
    ∧ (s.vmuBusy = false →
      (Usable s [d.val] [cellM n.val] →
        exec (.movmFromMask d n) s = .next (wrote s d s.core.m[n] s.core.npc))
      ∧ (Usable s [] [cellM n.val] → exec (.movmMaskMask m n) s = toM s.core.m[n]))

/-- The moves by relative register number and the moves between register classes. -/
def Obligations.RegisterMoves : Prop :=
  Claims.RelativeRegisters ∧
  Claims.ClassMoves

/-- R43, R109, R173: a write to qs7 sends qs0-qs7 to the core that QDST names, as a non-idempotent
operation after which a new region begins, and to another package if QDST names one; a core number that
names no core raises ADDR. -/
def Sys2Proof.Claims.SendFlit : Prop :=
  ∀ (s : State) (a : XSrc), Usable s a.regs a.cells →
    let q := s.core.csrs.qdst
    let words := (s.core.qs.set 7 (s.src a)).toList
    let u := { s with core := { s.core with qs := s.core.qs.set 7 (s.src a) }, poison := cleaned s (cellQs 7) }
    let f : Flit := { words := words, qdst := q, src := some (s.core.num, (s.core.task.map (·.id)).getD 0)
                      srcPkg := s.pkg, wid := s.core.wid, ctx := s.core.ctx
                      launch := (s.core.task.map (·.launch)).getD 0 }
    let far : Prop := q.getLsbD 63 = true ∧ q.toNat / 2 ^ 53 % 1024 ≠ s.pkg
    (q.toNat % 8192 < 6144 → (∀ k < 7, Place.reg s.core.num (cellQs k) ∉ s.poison) →
      (¬far → s.msgBlocked (q.toNat % 8192) = false →
        (∀ c ∈ s.core.circuits.toList, c = none) →
        exec (.movqSend 7 a) s = .next (went { u with flits := s.flits ++ [f] } s.core.npc).newRegion)
      ∧ (far → exec (.movqSend 7 a) s = .next (went { u with
          out := s.out ++ [.flit (q.toNat / 2 ^ 53 % 1024) f] } s.core.npc).newRegion))
    ∧ (6144 ≤ q.toNat % 8192 → exec (.movqSend 7 a) s = .next (s.takeTrap .addr q))

/-- R42, R43, R57, R102: the registers that are consumed when read: the words of the latched flit, and the
next element of a stream. A stream that is unbound or at its end raises ILL, whatever register is named. -/
def Sys2Proof.Claims.ConsumingReads : Prop :=
  ∀ (s : State) (d : XReg) (e : QReg) (i : SReg),
    (Usable s [d.val] [] →
     (∀ f, s.core.latched = some f → f.bad = false →
      (e.val ≠ 7 → exec (.movqReceive d e) s = .next (wrote s d (f.words.getD e.val 0) s.core.npc))
      ∧ exec (.movqReceive d 7) s = .next (went { wrote s d (f.words.getD 7 0) s.core.npc with
          core := { (wrote s d (f.words.getD 7 0) s.core.npc).core with
            latched := none, snap := { s.core.snap with popped := s.core.snap.popped ++ [f] } } } s.core.npc))
    ∧ (∀ t v rest, s.core.s[i] = some t → t.entry.isSome → t.pos < t.count → t.buf = some v :: rest →
      let taken (w : Word) : Out := .next (went { wrote s d w s.core.npc with
        core := { (wrote s d w s.core.npc).core with
          s := s.core.s.set i.val (some { t with
            pos := t.pos + 1, buf := rest, back := t.back ++ [some v] }) } } s.core.npc)
      exec (.movs d i) s = taken (BitVec.ofNat 64 v)
      ∧ exec (.movsS d i) s = taken (BitVec.ofInt 64 (toS (8 * t.width) v))))
    ∧ ((∀ t, s.core.s[i] = some t → t.count ≤ t.pos) →
      exec (.movs d i) s = s.ill ∧ exec (.movsS d i) s = s.ill)

/-- Sends of flits through the send registers, and the reads that consume from a receive queue or a
stream register. The model's own choice in it: log entry 17. -/
def Obligations.FlitMoves : Prop :=
  Claims.SendFlit ∧
  Claims.ConsumingReads

/-! ### Loads, stores and what they check (R104-R115) -/

namespace Sys2Proof.Claims

/-- Homes in this package's memory: vaults, HBM and the second tier, local memory, the mirrored region. -/
def InMemory (segs : List (Home × Nat)) : Prop := ∀ g ∈ segs, match g.1 with
  | .global _ _ => False
  | .mmio _ => False
  | _ => True

/-- The same without the mirrored region: stores to these homes are no region marks (R109). -/
def Plain (segs : List (Home × Nat)) : Prop := InMemory segs ∧ ∀ g ∈ segs, ∀ off, g.1 ≠ .mirror off

/-- `s` once an instruction that only stored is done: its bytes stand in the store buffer. -/
def stored (s : State) (a : Word) (segs : List (Home × Nat)) (bs : List Byte) : State :=
  went { s with core := { s.core with
    sb := s.core.sb ++ sbEntries (s.ctxAsid s.core.ctx) a segs bs } } s.core.npc

/-- The bytes of homes that a store of `bs` to `segs` writes, in order. -/
def places (segs : List (Home × Nat)) : List Home :=
  segs.flatMap fun g => (List.range g.2).map g.1.plus

end Sys2Proof.Claims

/-- R105, R111, R113: a load whose access passes the checks of R104 writes the bytes it reads, least
significant byte first and extended as its type says, and changes nothing else. LDA is aligned in local
memory too. -/
def Sys2Proof.Claims.Loads : Prop :=
  ∀ (s : State) (d : XReg) (a b : XSrc) (t : LdType) (addr : Word) (al : Nat) (segs : List (Home × Nat)),
    s.orderedBack = false → s.check { align := al } addr (loadSize t) = .ok segs → InMemory segs →
    s.mustWait segs = false → s.gldHolds segs = false →
    let v := ofBytes (s.loadSegs segs)
    let loads (i : Instr) : Prop := match t with
      | .s8 => exec i s = .next (wrote s d ((BitVec.ofNat 8 v).signExtend 64) s.core.npc)
      | .s16 => exec i s = .next (wrote s d ((BitVec.ofNat 16 v).signExtend 64) s.core.npc)
      | .s32 => exec i s = .next (wrote s d ((BitVec.ofNat 32 v).signExtend 64) s.core.npc)
      | .p => exec i s = .next (wrote (wrote s d (BitVec.ofNat 64 v) s.core.npc) (nextReg d)
          (BitVec.ofNat 64 (v / 2 ^ 64)) s.core.npc)
      | _ => exec i s = .next (wrote s d (BitVec.ofNat 64 v) s.core.npc)
    (Usable s (loadRegs d t ++ a.regs) a.cells →
      (∀ la o, addr = s.src a + BitVec.signExtend 64 (o : BitVec 6) * BitVec.ofNat 64 (loadSize t) →
        al = s.loadAlign addr (loadSize t) false → loads (.ld d a la t o))
      ∧ (∀ c q r o, addr = s.src a + BitVec.signExtend 64 (o : BitVec 4) * BitVec.ofNat 64 (loadSize t) →
        al = s.loadAlign addr (loadSize t) true → loads (.lda d a c t q r o)))
    ∧ (Usable s (loadRegs d t ++ a.regs ++ b.regs) (a.cells ++ b.cells) →
      al = s.loadAlign addr (loadSize t) false →
      (addr = s.src a + s.src b * BitVec.ofNat 64 (loadSize t) → loads (.ldx d a b true t))
      ∧ (addr = s.src a + s.src b → loads (.ldx d a b false t)))

/-- R105, R112, R113: a store whose access passes the checks enters the store buffer with its bytes, least
significant first; to the mirrored region it is a non-idempotent operation (R109). STL is aligned in local
memory too. -/
def Sys2Proof.Claims.Stores : Prop :=
  ∀ (s : State) (d a b : XSrc) (w : StWidth) (addr : Word) (al : Bool) (segs : List (Home × Nat)),
    s.check (s.storeAccess addr (storeSize w) al) addr (storeSize w) = .ok segs → InMemory segs →
    let bs : List Byte := match w, d with
      | .p, .reg x => bytesOf 8 (s.rx x).toNat ++ bytesOf 8 (s.rx (nextReg x)).toNat
      | _, _ => bytesOf (storeSize w) (s.src d).toNat
    let stores (i : Instr) : Prop :=
      (Plain segs → exec i s = .next (stored s addr segs bs))
      ∧ ((∃ g ∈ segs, ∃ off, g.1 = .mirror off) → exec i s = .next (stored s addr segs bs).newRegion)
    (Usable s (storeRegs d w ++ a.regs) (storeCells d w ++ a.cells) →
      (∀ o, addr = s.src a + BitVec.signExtend 64 (o : BitVec 10) * BitVec.ofNat 64 (storeSize w) →
        al = false → stores (.st d a w o))
      ∧ (∀ c q r o, addr = s.src a + BitVec.signExtend 64 (o : BitVec 4) * BitVec.ofNat 64 (storeSize w) →
        al = true → (q = true → s.settled c = true) → stores (.stl d a c w q r o)))
    ∧ (Usable s (storeRegs d w ++ a.regs ++ b.regs) (storeCells d w ++ a.cells ++ b.cells) → al = false →
      (addr = s.src a + s.src b * BitVec.ofNat 64 (storeSize w) → stores (.stx d a b true w))
      ∧ (addr = s.src a + s.src b → stores (.stx d a b false w)))

/-- R112: a core's loads see its own buffered stores: after a store the bytes stored read as stored,
and every other byte of vaults, HBM and local memory reads as before. -/
def Sys2Proof.Claims.StoreThenLoad : Prop :=
  ∀ (s : State) (a : Word) (segs : List (Home × Nat)) (bs : List Byte), Plain segs →
    bs.length = (segs.map (·.2)).sum → (places segs).Nodup →
    (∀ (k : Nat) (h : Home) (b : Byte), (places segs)[k]? = some h → bs[k]? = some b →
      (stored s a segs bs).loadByte h = b)
    ∧ ∀ h, h ∉ places segs → (∀ off, h ≠ .mmio off) → (stored s a segs bs).loadByte h = s.loadByte h

/-- Scalar loads and stores, and a load of what a store has just stored. -/
def Obligations.LoadsAndStores : Prop :=
  Claims.Loads ∧
  Claims.Stores ∧
  Claims.StoreThenLoad

/-- R104, R105, R218, R222: the checks of a load of the current core's local memory, in their order:
past 16 KiB ADDR, outside what one protection region grants or the launch header allows PROT at the
first byte denied, then the range locks and poison; otherwise the bytes are those of local memory. -/
def Sys2Proof.Claims.LocalChecks : Prop :=
  ∀ (s : State) (off n : Nat), off < 16384 → 0 < n →
    let a : Word := BitVec.ofNat 64 (2 ^ 61 + off)
    let reach := Nat.min (s.core.protReach 2 .load off n) (s.core.localSize - off)
    (16384 < off + n → s.check {} a n = .trap .addr (BitVec.ofNat 64 (2 ^ 61 + 16384)))
    ∧ (off + n ≤ 16384 → reach < n → s.check {} a n = .trap .prot (a + BitVec.ofNat 64 reach))
    ∧ (off + n ≤ 16384 → n ≤ reach →
      (∀ i : Fin 16, s.core.locks[i] = none) → s.poison = [] →
      s.check {} a n = .ok [(.loc s.core.num off, n)])

/-- R218, R104 steps 1 and 2, R105, R329, R50: an address of no space, a global one whose package no route
reaches, or one of space 4 with STATUS.P = 0, is denied, and a misaligned one in the vaults or of another
package raises ALIGN before the protection unit, or that package, is asked. -/
def Sys2Proof.Claims.AddressChecks : Prop :=
  ∀ (s : State) (d : XReg) (a : XSrc) (la : BitVec 4) (t : LdType), Usable s (loadRegs d t ++ a.regs) a.cells →
    s.orderedBack = false →
    let v := (s.src a).toNat
    let traps (c : Cause) := exec (.ld d a la t 0) s = .next (s.takeTrap c (s.src a))
    (5 * 2 ^ 60 ≤ v → v < 2 ^ 63 → traps .addr)
    ∧ (2 ^ 63 ≤ v → s.route (v / 2 ^ 53 % 1024) = 0 → traps .addr)
    ∧ (2 ^ 63 ≤ v → s.route (v / 2 ^ 53 % 1024) ≠ 0 → v % loadSize t ≠ 0 → traps .align)
    ∧ (2 ^ 60 + 2 ^ 30 ≤ v → v < 2 ^ 61 → traps .addr)
    ∧ (2 ^ 61 + 2 ^ 14 ≤ v → v < 3 * 2 ^ 60 → traps .addr)
    ∧ (3 * 2 ^ 60 + 2 ^ 22 ≤ v → v < 2 ^ 62 → traps .addr)
    ∧ (2 ^ 62 ≤ v → v + loadSize t ≤ 2 ^ 62 + 2 ^ 32 → v % loadSize t = 0 → s.core.p = false → traps .prot)
    ∧ (2 ^ 60 ≤ v → v < 2 ^ 60 + 2 ^ 30 → v / 2 ^ 21 % 512 < 384 →
        (s.layer (v / 2 ^ 26 % 16)).state ≠ .retired → v % 2 ^ 20 + loadSize t ≤ 2 ^ 20 →
        v % loadSize t ≠ 0 → s.wellArea (v / 2 ^ 20 % 1024) = 2 ^ 20 → traps .align)

/-- When a scalar access traps: the checks of local and global addresses, and of those of no space. The
model's own choices in it: log entries 8, 9 and 75. -/
def Obligations.AccessChecks : Prop :=
  Claims.LocalChecks ∧
  Claims.AddressChecks

/-- R114, R138: VLD writes the active lanes, each from its own address, and VST stores them; neither
touches a lane that its mask leaves out. -/
def Sys2Proof.Claims.VectorMemory : Prop :=
  ∀ (s : State) (d : VReg) (m : VMode) (k : Mask) (g : Nat → List (Home × Nat)), s.vmuBusy = false →
    (∀ i < 64, InMemory (g i)) →
    let on (i : Nat) : Prop := i < 64 ∧ (s.mask k).getLsbD i = true
    let lanes := (List.range 64).filter fun i => (s.mask k).getLsbD i
    (Usable s (modeRegs m) (modeCells m ++ maskCells k) →
      (∀ i, on i → s.check { allow := .noGlobal, align := 4 } (s.laneAddr m i) 4 = .ok (g i)) →
      (∀ i, on i → s.mustWait (g i) = false) →
      ∃ v : Vector Lane 64, exec (.vld d m k) s = .next (went { s with
          core := { s.core with v := s.core.v.set d.val v }, poison := cleaned s (cellV d.val) } s.core.npc)
        ∧ ∀ i (h : i < 64), v[i] = if (s.mask k).getLsbD i
            then BitVec.ofNat 32 (ofBytes (s.loadSegs (g i))) else s.core.v[d][i])
    ∧ (Usable s (modeRegs m) (cellV d.val :: (modeCells m ++ maskCells k)) →
      (∀ i, on i → s.check { kind := .store, allow := .noGlobal, align := 4 } (s.laneAddr m i) 4 = .ok (g i)) →
      (∀ i, on i → Plain (g i) ∧ ((g i).map (·.2)).sum = 4) →
      ∃ es : List SbEntry, exec (.vst d m k) s = .next (went { s with
          core := { s.core with sb := s.core.sb ++ es } } s.core.npc)
        ∧ (es.flatMap fun e => (List.range e.bytes.length).map fun j => (e.home.plus j, e.bytes[j]?))
          = lanes.flatMap fun i => (places (g i)).zip
              ((bytesOf 4 ((s.core.v[d].toList.getD i 0)).toNat).map some))

/-- R115: GLD and GST move a block of 16, 32, 64 or 128 bytes between local memory and this package's
memory as one copy: the bytes read enter the store buffer for the other side. -/
def Sys2Proof.Claims.BlockMoves : Prop :=
  ∀ (s : State) (a b : XSrc) (la : BitVec 4) (z : BitVec 2) (r : Bool) (off : Nat) (gs gd : List (Home × Nat)),
    Usable s (a.regs ++ b.regs) (a.cells ++ b.cells) → InMemory gs → Plain gd → s.mustWait gs = false →
    let n := 16 * 2 ^ z.toNat
    (s.orderedBack = false → s.gldHolds (gs ++ gd) = false → s.spaceOf (s.src a).toNat = .loc off → s.check { align := n } (s.src b) n = .ok gs →
      s.check { kind := .store, align := n } (s.src a) n = .ok gd →
      exec (.gld a b la z) s = .next (stored s (s.src a) gd (s.loadSegs gs)))
    ∧ (s.spaceOf (s.src b).toNat = .loc off → s.check { align := n } (s.src b) n = .ok gs →
      s.check { kind := .store, align := n } (s.src a) n = .ok gd → (r = true → s.settled .system = true) →
      exec (.gst a b z r) s = .next (stored s (s.src a) gd (s.loadSegs gs)))

/-- The vector loads and stores and the block moves between memory and registers. The model's own
choices in it: log entries 9 and 68. -/
def Obligations.VectorAndBlockMemory : Prop :=
  Claims.VectorMemory ∧
  Claims.BlockMoves

/-! ### Atomics, bank operations and ordering (R116-R121) -/

/-- R116, R227, R109: an atomic reads its word, writes the new one at its home in the same step, and
returns the old one, sign-extended but for MINU, MAXU and FADD; a new region begins after it. -/
def Sys2Proof.Claims.Atomics : Prop :=
  ∀ (s : State) (d : XReg) (a b : XSrc) (w q r : Bool) (h : Home) (m : Nat),
    Usable s (d.val :: (a.regs ++ b.regs)) (cellX d.val :: (a.cells ++ b.cells)) →
    let n := if w then 8 else 4
    s.check { kind := .atomic, allow := .noMirrorMmio, align := n } (s.src a) n = .ok [(h, m)] → Plain [(h, m)] →
    s.performed = true → s.mustWait [(h, m)] = false → (r = true → s.settled .system = true) →
    s.poisonHit [] h n = none →
    let old := ofBytes ((List.range n).map fun i => s.homeByte (layerOf s.core.num) (h.plus i))
    let y := (s.src b).toNat % 2 ^ (8 * n)
    let sold := toS (8 * n) old
    let sy := toS (8 * n) y
    let does (i : Instr) (new : Nat) (ret : Word) :=
      let u := s.storeHome h (bytesOf n new)
      exec i s = .next (wrote u d ret u.core.npc).newRegion
    does (.amoSwap d a b w q r) y (BitVec.ofInt 64 sold)
    ∧ does (.amoAdd d a b w q r) ((old + y) % 2 ^ (8 * n)) (BitVec.ofInt 64 sold)
    ∧ does (.amoAnd d a b w q r) (old &&& y) (BitVec.ofInt 64 sold)
    ∧ does (.amoOr d a b w q r) (old ||| y) (BitVec.ofInt 64 sold)
    ∧ does (.amoXor d a b w q r) (old ^^^ y) (BitVec.ofInt 64 sold)
    ∧ does (.amoMin d a b w q r) (if sold ≤ sy then old else y) (BitVec.ofInt 64 sold)
    ∧ does (.amoMax d a b w q r) (if sold ≤ sy then y else old) (BitVec.ofInt 64 sold)
    ∧ does (.amoMinu d a b w q r) (min old y) (BitVec.ofNat 64 old)
    ∧ does (.amoMaxu d a b w q r) (max old y) (BitVec.ofNat 64 old)
    ∧ does (.amoCas d a b w q r) (if old = (s.rx d).toNat % 2 ^ (8 * n) then y else old) (BitVec.ofInt 64 sold)
    ∧ (w = false → does (.amoFadd d a b q r) (fmtF32.addC .rne old y) (BitVec.ofNat 64 old))

/-- R117, R278: the bank operations over n words of one vault, once every earlier store of the core is
performed. A fill stands in the vault when it is done, and changes no other byte. -/
def Sys2Proof.Claims.BankOperations : Prop :=
  ∀ (s : State) (d : XReg) (e a b : XSrc) (segs : List (Home × Nat)),
    s.bankOk (s.src a) (s.src b) = true → s.performed = true → s.mustWait segs = false →
    let n := (s.src b).toNat
    let ws := (List.range n).map fun i => ofBytes (((s.loadSegs segs).drop (4 * i)).take 4)
    let si := ws.map (toS 32)
    let does (i : Instr) (v : Word) := exec i s = .next (wrote s d v s.core.npc)
    (Usable s (d.val :: (a.regs ++ b.regs)) (a.cells ++ b.cells) → s.check {} (s.src a) (4 * n) = .ok segs →
      does (.bkopSumS32 d a b) (BitVec.ofInt 64 si.sum)
      ∧ (0 < n → does (.bkopSumF32 d a b)
          (BitVec.ofNat 64 (fmtF32.ofFV .rne (ws.foldl (fun v w => FV.add .rne v (fmtF32.value w)) (.fin false 0 0))).code))
      ∧ (∀ x, x ∈ si → (∀ y ∈ si, x ≤ y) → does (.bkopMinS32 d a b) (BitVec.ofInt 64 x))
      ∧ (∀ x, x ∈ si → (∀ y ∈ si, y ≤ x) → does (.bkopMaxS32 d a b) (BitVec.ofInt 64 x))
      ∧ does (.bkopMinF32 d a b) (BitVec.ofNat 64 (ws.foldl fmtF32.minC 0x7F80_0000))
      ∧ does (.bkopMaxF32 d a b) (BitVec.ofNat 64 (ws.foldl fmtF32.maxC 0xFF80_0000))
      ∧ (∀ i x, si[i]? = some x → (∀ y ∈ si, x ≤ y) → (∀ j < i, si[j]? ≠ some x) →
          does (.bkopArgminS32 d a b) (BitVec.ofNat 64 i))
      ∧ (∀ i x, si[i]? = some x → (∀ y ∈ si, y ≤ x) → (∀ j < i, si[j]? ≠ some x) →
          does (.bkopArgmaxS32 d a b) (BitVec.ofNat 64 i)))
    ∧ (Usable s (e.regs ++ a.regs ++ b.regs) (e.cells ++ a.cells ++ b.cells) →
      s.check { kind := .store } (s.src a) (4 * n) = .ok segs →
      ∃ u, exec (.bkopFill e a b) s = .next (went u s.core.npc)
        ∧ (Plain segs → (segs.map (·.2)).sum = 4 * n → (places segs).Nodup →
          ∀ h, (∀ off, h ≠ .mmio off) → u.homeByte (layerOf s.core.num) h
            = match (places segs).findIdx? (· = h) with
              | some k => (bytesOf 4 (s.src e).toNat).getD (k % 4) 0
              | none => s.homeByte (layerOf s.core.num) h)
        ∧ u.core.x = s.core.x ∧ u.core.sb = s.core.sb ∧ u.mmio = s.mmio)

/-- The atomic operations and the operations a bank carries out on a word. The model's own choice in it:
log entry 10. -/
def Obligations.AtomicOperations : Prop :=
  Claims.Atomics ∧
  Claims.BankOperations

/-- R118-R121: a fence goes on once every earlier store of its scope is acknowledged; SPINW
returns a changed value at once and parks on an unchanged one; REGION begins a region; TOUCH of
an untranslated space only checks. The model's own choice in it: log entry 11. -/
def Obligations.Ordering : Prop :=
  ∀ (s : State) (c : Scope),
    (s.settled c = true → exec (.fenceFull c) s = .next (went s s.core.npc)
      ∧ exec (.fenceRel c) s = .next (went s s.core.npc))
    ∧ (s.settled c = false → exec (.fenceFull c) s = .next s.stall ∧ exec (.fenceRel c) s = .next s.stall)
    ∧ exec (.fenceAcq c) s = .next (went s s.core.npc)
    ∧ exec .region s = .next (went s s.core.npc).newRegion
    ∧ (∀ (d : XReg) (a : XSrc) (l : BitVec 4) (e : BitVec 5) (h : Home) (n : Nat),
        Usable s (d.val :: a.regs) (cellX d.val :: a.cells) → s.core.rwait = false → s.frameWait = false →
        s.check { allow := .noLocMmio, align := 8 } (s.src a) 8 = .ok [(h, n)] → InMemory [(h, n)] →
        s.mustWait [(h, n)] = false →
        let v := BitVec.ofNat 64 (ofBytes (s.loadSegs [(h, n)]))
        (v ≠ s.rx d ∨ s.core.woken = true → exec (.spinw d a l e) s = .next
          { wrote s d v s.core.npc with core := { (wrote s d v s.core.npc).core with woken := false } })
        ∧ (v = s.rx d → s.core.woken = false → ∃ t, exec (.spinw d a l e) s = .next t
            ∧ t.core.tstate = .parked ∧ t.core.wait = .spinw e.toNat ∧ t.core.pc = s.core.pc
            ∧ t.core.x = s.core.x ∧ t.core.watch = some (h.line, false)))
    ∧ ∀ (a : XSrc) (w : Bool) (o : BitVec 12) (segs : List (Home × Nat)), Usable s a.regs a.cells →
        let addr := s.src a + o.signExtend 64
        s.check { kind := if w then .store else .load, locks := false, data := false } addr 1 = .ok segs →
        2 ^ 60 ≤ addr.toNat → addr.toNat < 2 ^ 63 → exec (.touch a w o) s = .next (went s s.core.npc)

/-! ### Copies and streams (R122-R126) -/

/-- No copy delivers to a stream. -/
def Sys2Proof.Claims.Unheard (s : State) : Prop :=
  ∀ k, some k ∈ s.core.locks.toList → ∀ j w, k.kind ≠ .stream (some j) w

/-- R122, R126: COPY and COPYS read their control block, check both ranges, and hold the lowest free
range-lock entry; COPY returns its number, COPYS binds the stream. -/
def Sys2Proof.Claims.Copies : Prop :=
  ∀ (s : State) (d : XReg) (e : SReg) (a : XSrc) (off : Nat) (gb gs gd : List (Home × Nat)) (f : Fin 16),
    s.spaceOf (s.src a).toNat = .loc off → (s.src a).toNat % 32 = 0 → s.check {} (s.src a) 32 = .ok gb →
    let bs := s.loadSegs gb
    let dst := ofBytes (bs.take 8)
    let src := ofBytes ((bs.drop 8).take 8)
    let len := ofBytes ((bs.drop 16).take 4)
    let flg := ofBytes ((bs.drop 20).take 4)
    ofBytes (bs.drop 24) = 0 → flg < 4 → 0 < len → len ≤ 2 ^ 24 →
    s.check { kind := .load, locks := false, data := false } (BitVec.ofNat 64 src) len = .ok gs → InMemory gs →
    s.core.locks[f] = none → (∀ i : Fin 16, i < f → s.core.locks[i] ≠ none) →
    (Usable s (d.val :: a.regs) a.cells →
      (src + len ≤ dst ∨ dst + len ≤ src) →
      s.check { kind := .store, locks := false, data := false } (BitVec.ofNat 64 dst) len = .ok gd → InMemory gd →
      exec (.copy d a) s = .next (wrote { s with core := { s.core with
        locks := s.core.locks.set f.val (some { kind := .copy, src := BitVec.ofNat 64 src
                                                dst := BitVec.ofNat 64 dst, len := len }) } }
        d (BitVec.ofNat 64 f.val) s.core.npc))
    ∧ (Usable s a.regs a.cells → dst = 0 → len % 2 ^ flg = 0 → s.core.s[e] = none →
      Unheard s →
      exec (.copys e a) s = .next (went { s with core := { s.core with
        locks := s.core.locks.set f.val (some { kind := .stream (some e) (2 ^ flg)
                                                src := BitVec.ofNat 64 src, dst := 0, len := len })
        s := s.core.s.set e.val (some { entry := some f, start := src, width := 2 ^ flg
                                        count := len / 2 ^ flg }) } } s.core.npc))

/-- R123-R125: binding a range of local memory, unbinding, skipping, asking where a stream stands, and
waiting for a copy. -/
def Sys2Proof.Claims.Streams : Prop :=
  ∀ (s : State) (d : XReg) (e : SReg) (a b : XSrc),
    (Usable s (a.regs ++ b.regs) (a.cells ++ b.cells) → ∀ w segs, s.core.s[e] = none →
      Unheard s →
      s.check { allow := .onlyLoc, align := 2 ^ BitVec.toNat w, data := false } (s.src a)
        ((s.src b).toNat * 2 ^ BitVec.toNat w) = .ok segs ∧ (s.src b).toNat ≠ 0
      ∨ (∃ off, s.spaceOf (s.src a).toNat = .loc off) ∧ (s.src a).toNat % 2 ^ BitVec.toNat w = 0
        ∧ (s.src b).toNat = 0 →
      exec (.sbind e a b w) s = .next (went { s with core := { s.core with
        s := s.core.s.set e.val (some { entry := none, start := (s.src a).toNat, width := 2 ^ BitVec.toNat w
                                        count := (s.src b).toNat }) } } s.core.npc))
    ∧ (∀ t, s.core.s[e] = some t → ∃ u, exec (.sctlUnbind e) s = .next u ∧ u.core.s[e] = none
        ∧ u.core.pc = s.core.npc ∧ u.core.x = s.core.x ∧ u.vault = s.vault ∧ u.hbm = s.hbm)
    ∧ (s.core.s[e] = none → exec (.sctlUnbind e) s = s.ill)
    ∧ (Usable s a.regs a.cells → ∀ t, s.core.s[e] = some t → t.entry = none →
      exec (.sctlSkip e a) s = .next (went { s with core := { s.core with
        s := s.core.s.set e.val (some { t with pos := t.pos + min (s.src a).toNat (t.count - t.pos) }) } }
        s.core.npc))
    ∧ (Usable s [d.val] [] →
      exec (.sctlPos d e) s = .next (wrote s d (BitVec.ofNat 64 ((s.core.s[e].map (·.pos)).getD 0)) s.core.npc)
      ∧ exec (.sctlLeft d e) s = .next (wrote s d
          (BitVec.ofNat 64 ((s.core.s[e].map fun t => t.count - t.pos).getD 0)) s.core.npc))
    ∧ (Usable s a.regs a.cells → ∀ f : Fin 16, (s.src a).toNat % 16 = f.val →
      (s.core.locks[f] = none → exec (.waitr a) s = .next (went s s.core.npc))
      ∧ (s.core.locks[f] ≠ none → exec (.waitr a) s = .next s.stall))
    ∧ ((∀ f : Fin 16, s.core.locks[f] = none) → exec .waitrAll s = .next (went s s.core.npc))

/-- The copy engine's commands and the stream instructions. The model's own choices in it: log entries
9, 23, 81 and 104. -/
def Obligations.CopiesAndStreams : Prop :=
  Claims.Copies ∧
  Claims.Streams

/-! ### Vectors (R138-R146)

An instruction of the vector and matrix unit goes on once the unit's arbiter has granted it a lane group, or
the array (R203): `s.vmuTake array = some u` says so of the state alone, with `u` the state behind the grant.
The statement VmuArbiter says that `u` differs from `s` in the arbiter alone. -/

namespace Sys2Proof.Claims

/-- `s` once a VMU instruction that writes vector register `d` is done. -/
def wroteV (s : State) (d : VReg) (v : Vector Lane 64) : State :=
  went { s with core := { s.core with v := s.core.v.set d.val v }, poison := cleaned s (cellV d.val) }
    s.core.npc

/-- The same for a mask register. -/
def wroteM (s : State) (d : MReg) (v : Word) : State :=
  went { s with core := { s.core with m := s.core.m.set d.val v }, poison := cleaned s (cellM d.val) }
    s.core.npc

/-- R138: active lanes take their result and the others keep their value. -/
def merged (s : State) (d : VReg) (m : Mask) (f : Fin 64 → Lane) : Vector Lane 64 :=
  Vector.ofFn fun i => if (s.mask m).getLsbD i.val then f i else s.core.v[d][i]

/-- The active lanes of a register, in rising order, with their numbers. -/
def activeLanes (s : State) (a : VReg) (m : Mask) : List (Nat × Lane) :=
  ((List.finRange 64).filter fun i => (s.mask m).getLsbD i.val).map fun i => (i.val, s.core.v[a][i])

/-- A vector of the given first lanes, its other lanes zero. -/
def padded (l : List Lane) : Vector Lane 64 := Vector.ofFn fun i => l.getD i.val 0

/-- x holds a NaN. -/
def nanLane (x : Lane) : Bool := (fmtF32.value x.toNat).isNan

end Sys2Proof.Claims

/-- R138, R139: integer and logical work in every active lane. -/
def Sys2Proof.Claims.VectorIntegers : Prop :=
  ∀ (s u : State) (d a b : VReg) (m : Mask) (n : BitVec 5), s.vmuTake false = some u →
    let x (i : Fin 64) := s.core.v[a][i]
    let y (i : Fin 64) := s.core.v[b][i]
    let z (i : Fin 64) := s.core.v[d][i]
    let sh (i : Fin 64) := (y i).toNat % 64
    let sat (lo hi v : Int) : Lane := BitVec.ofInt 32 (max lo (min hi v))
    let byte (v : Lane) (q : Nat) : Int := (v.extractLsb' (8 * q) 8).toInt
    let does (i : Instr) (f : Fin 64 → Lane) := exec i s = .next (wroteV u d (merged s d m f))
    (Usable s [] ([cellV a.val, cellV b.val] ++ maskCells m) →
      does (.vadd d a b m) (fun i => x i + y i) ∧ does (.vsub d a b m) (fun i => x i - y i)
      ∧ does (.vadds d a b m) (fun i => sat (-2 ^ 31) (2 ^ 31 - 1) ((x i).toInt + (y i).toInt))
      ∧ does (.vsubs d a b m) (fun i => sat (-2 ^ 31) (2 ^ 31 - 1) ((x i).toInt - (y i).toInt))
      ∧ does (.vaddus d a b m) (fun i => sat 0 (2 ^ 32 - 1) ((x i).toNat + (y i).toNat : Nat))
      ∧ does (.vsubus d a b m) (fun i => BitVec.ofNat 32 ((x i).toNat - (y i).toNat))
      ∧ does (.vmul d a b m) (fun i => x i * y i)
      ∧ does (.vmulh d a b m) (fun i => ((x i).signExtend 64 * (y i).signExtend 64).extractLsb' 32 32)
      ∧ does (.vmulhu d a b m) (fun i => ((x i).zeroExtend 64 * (y i).zeroExtend 64).extractLsb' 32 32)
      ∧ does (.vand d a b m) (fun i => x i &&& y i) ∧ does (.vor d a b m) (fun i => x i ||| y i)
      ∧ does (.vxor d a b m) (fun i => x i ^^^ y i) ∧ does (.vandn d a b m) (fun i => x i &&& ~~~y i)
      ∧ does (.vsll d a b m) (fun i => x i <<< sh i) ∧ does (.vsrl d a b m) (fun i => x i >>> sh i)
      ∧ does (.vsra d a b m) (fun i => BitVec.ofInt 32 ((x i).toInt / 2 ^ sh i))
      ∧ does (.vror d a b m) (fun i => x i >>> (sh i % 32) ||| x i <<< (32 - sh i % 32))
      ∧ does (.vmin d a b m) (fun i => if (x i).toInt < (y i).toInt then x i else y i)
      ∧ does (.vmax d a b m) (fun i => if (x i).toInt < (y i).toInt then y i else x i)
      ∧ does (.vminu d a b m) (fun i => if (x i).toNat < (y i).toNat then x i else y i)
      ∧ does (.vmaxu d a b m) (fun i => if (x i).toNat < (y i).toNat then y i else x i)
      ∧ (Usable s [] [cellV d.val] →
        does (.vmac d a b m) (fun i => z i + x i * y i)
        ∧ does (.vdot4 d a b m) (fun i => BitVec.ofInt 32 ((z i).toInt
            + ((List.range 4).map fun q => byte (x i) q * byte (y i) q).sum))))
    ∧ (Usable s [] (cellV a.val :: maskCells m) →
      does (.vnot d a m) (fun i => ~~~x i)
      ∧ does (.vslli d a n m) (fun i => x i <<< n.toNat) ∧ does (.vsrli d a n m) (fun i => x i >>> n.toNat)
      ∧ does (.vsrai d a n m) (fun i => BitVec.ofInt 32 ((x i).toInt / 2 ^ n.toNat))
      ∧ does (.vrori d a n m) (fun i => x i >>> n.toNat ||| x i <<< (32 - n.toNat))
      ∧ does (.vabs d a m) (fun i => if (x i).toInt < 0 then -(x i) else x i))

/-- R139, R140: FP32 work and conversions in every active lane, each exact result rounded once. -/
def Sys2Proof.Claims.VectorFloats : Prop :=
  ∀ (s u : State) (d a b : VReg) (m : Mask) (r : Rm), s.vmuTake false = some u →
    let x (i : Fin 64) := s.core.v[a][i].toNat
    let y (i : Fin 64) := s.core.v[b][i].toNat
    let val (c : Nat) := fmtF32.value c
    let z (i : Fin 64) := val s.core.v[d][i].toNat
    let code (c : Nat) : Lane := BitVec.ofNat 32 c
    let once (v : FV) : Lane := code (fmtF32.ofFV r v).code
    let half (v : VReg) (e : Nat) : Nat := (s.core.v[v].toList.getD (e / 2) 0).toNat / 2 ^ (16 * (e % 2)) % 2 ^ 16
    let packed (f : Fmt) (e : Nat) : Nat := (f.ofFV r (val
      (if e < 64 then (s.core.v[a].toList.getD e 0).toNat else (s.core.v[b].toList.getD (e - 64) 0).toNat))).code
    let pairs (f : Fmt) : Vector Lane 64 :=
      Vector.ofFn fun i => code (packed f (2 * i.val) + 2 ^ 16 * packed f (2 * i.val + 1))
    let wide (f : Fmt) (e : Nat) : Lane := code (fmtF32.ofFV .rne (f.value (half a e))).code
    let does (i : Instr) (f : Fin 64 → Lane) := exec i s = .next (wroteV u d (merged s d m f))
    (Usable s [] ([cellV a.val, cellV b.val] ++ maskCells m) →
      does (.vfadd d a b m r) (fun i => once (FV.add r (val (x i)) (val (y i))))
      ∧ does (.vfsub d a b m r) (fun i => once (FV.add r (val (x i)) (val (y i)).neg))
      ∧ does (.vfmul d a b m r) (fun i => once (FV.mul (val (x i)) (val (y i))))
      ∧ does (.vfdiv d a b m r) (fun i => code (fmtF32.divC r (x i) (y i)))
      ∧ does (.vfmin d a b m) (fun i => code (fmtF32.minC (x i) (y i)))
      ∧ does (.vfmax d a b m) (fun i => code (fmtF32.maxC (x i) (y i)))
      ∧ (Usable s [] [cellV d.val] →
        does (.vfma d a b m r) (fun i => once (FV.add r (z i) (FV.mul (val (x i)) (val (y i)))))
        ∧ does (.vfms d a b m r) (fun i => once (FV.add r (z i).neg (FV.mul (val (x i)) (val (y i)))))
        ∧ does (.vfnma d a b m r) (fun i => once (FV.add r (z i) (FV.mul (val (x i)).neg (val (y i)))))))
    ∧ (Usable s [] (cellV a.val :: maskCells m) →
      does (.vfabs d a m) (fun i => code (fmtF32.absC (x i)))
      ∧ does (.vfneg d a m) (fun i => code (fmtF32.negC (x i)))
      ∧ does (.vfsqrt d a m r) (fun i => code (fmtF32.sqrtC r (x i)))
      ∧ does (.vfrecip d a m r) (fun i => code (fmtF32.recipC r (x i)))
      ∧ does (.vfrsqrt d a m r) (fun i => code (fmtF32.rsqrtC r (x i)))
      ∧ does (.vcvtS32 d a m r) (fun i => BitVec.ofInt 32 (fmtF32.toInt r (-2 ^ 31) (2 ^ 31 - 1) (x i)))
      ∧ does (.vcvtZ32 d a m r) (fun i => BitVec.ofInt 32 (fmtF32.toInt r 0 (2 ^ 32 - 1) (x i)))
      ∧ does (.vcvtF32S32 d a m r) (fun i => once (FV.ofInt s.core.v[a][i].toInt 0 false))
      ∧ does (.vcvtF32Z32 d a m r) (fun i => once (FV.ofInt (x i) 0 false))
      ∧ does (.vcvtUbf16Lo d a m) (fun i => wide fmtBf16 i.val)
      ∧ does (.vcvtUbf16Hi d a m) (fun i => wide fmtBf16 (64 + i.val))
      ∧ does (.vcvtUf16Lo d a m) (fun i => wide fmtF16 i.val)
      ∧ does (.vcvtUf16Hi d a m) (fun i => wide fmtF16 (64 + i.val)))
    ∧ (Usable s [] [cellV a.val, cellV b.val] →
      exec (.vcvtPbf16 d a b r) s = .next (wroteV u d (pairs fmtBf16))
      ∧ exec (.vcvtPf16 d a b r) s = .next (wroteV u d (pairs fmtF16)))

/-- Vector integer and vector floating-point arithmetic, lane by lane under a mask, and the values of
the operations on codes. -/
def Obligations.VectorArithmetic : Prop :=
  Claims.VectorIntegers ∧
  Claims.VectorFloats ∧
  Claims.FloatValues

/-- R141-R143, R146: comparisons into masks, work on masks, selection, moving lanes, and crossing to
scalar registers. -/
def Sys2Proof.Claims.MasksAndLanes : Prop :=
  ∀ (s u : State) (d a b : VReg) (m : Mask) (p q r : MReg) (e : XReg) (t : XSrc),
    s.vmuTake false = some u →
    let x (i : Nat) : Lane := s.core.v[a].toList.getD i 0
    let y (i : Nat) : Lane := s.core.v[b].toList.getD i 0
    let does (i : Instr) (f : Fin 64 → Lane) := exec i s = .next (wroteV u d (merged s d m f))
    let mask (i : Instr) (v : Word) := exec i s = .next (wroteM u p v)
    (Usable s [] ([cellV a.val, cellV b.val] ++ maskCells m) →
      (∀ c : VCond, ∃ v, exec (.vcmp p a b m c) s = .next (wroteM u p v) ∧ ∀ i < 64, v.getLsbD i
        = ((s.mask m).getLsbD i && match c with
          | .eq => x i == y i | .ne => x i != y i
          | .lt => decide ((x i).toInt < (y i).toInt) | .le => decide ((x i).toInt ≤ (y i).toInt)
          | .ltu => decide ((x i).toNat < (y i).toNat) | .leu => decide ((x i).toNat ≤ (y i).toNat)
          | .feq => (fmtF32.value (x i).toNat).eqv (fmtF32.value (y i).toNat)
          | .fne => !(fmtF32.value (x i).toNat).eqv (fmtF32.value (y i).toNat)
          | .flt => (fmtF32.value (x i).toNat).lt (fmtF32.value (y i).toNat)
          | .fle => (fmtF32.value (x i).toNat).lt (fmtF32.value (y i).toNat)
              || (fmtF32.value (x i).toNat).eqv (fmtF32.value (y i).toNat)
          | .unord => nanLane (x i) || nanLane (y i)))
      ∧ does (.vperm d a b m) (fun i => x ((y i.val).toNat % 64))
      ∧ ∀ k : BitVec 6, does (.vslide d a b m k)
          (fun i => if i.val + k.toNat < 64 then x (i.val + k.toNat) else y (i.val + k.toNat - 64)))
    ∧ (Usable s [] (cellV a.val :: maskCells m) →
      does (.vrev d a m) (fun i => x (63 - i.val))
      ∧ exec (.vlaneCompress d a m) s = .next (wroteV u d (padded ((activeLanes s a m).map (·.2)))))
    ∧ (Usable s [] (maskCells m) → does (.vlaneIota d m) (fun i => BitVec.ofNat 32 i.val))
    ∧ (Usable s [] [cellM q.val, cellM r.val] →
      mask (.vmaskAnd p q r) (s.core.m[q] &&& s.core.m[r]) ∧ mask (.vmaskOr p q r) (s.core.m[q] ||| s.core.m[r])
      ∧ mask (.vmaskXor p q r) (s.core.m[q] ^^^ s.core.m[r])
      ∧ mask (.vmaskAndn p q r) (s.core.m[q] &&& ~~~s.core.m[r]))
    ∧ (Usable s [] [cellM q.val] → mask (.vmaskNot p q) (~~~s.core.m[q]))
    ∧ mask (.vmaskSet p) (BitVec.allOnes 64) ∧ mask (.vmaskClr p) 0
    ∧ (Usable s [] [cellV a.val, cellV b.val, cellM q.val] → exec (.vsel d a b q) s
        = .next (wroteV u d (Vector.ofFn fun i => if s.core.m[q].getLsbD i.val then x i.val else y i.val)))
    ∧ (Usable s t.regs t.cells →
        exec (.vbcast d t) s = .next (wroteV u d (Vector.replicate 64 ((s.src t).extractLsb' 0 32))))
    ∧ (Usable s t.regs (cellV a.val :: t.cells) →
        exec (.vbcastLane d a t) s = .next (wroteV u d (Vector.replicate 64 (x ((s.src t).toNat % 64)))))
    ∧ (Usable s (e.val :: t.regs) (cellV a.val :: t.cells) →
        exec (.vmovx e a t) s = .next (wrote u e ((x ((s.src t).toNat % 64)).zeroExtend 64) s.core.npc)
        ∧ exec (.vmovxS e a t) s = .next (wrote u e ((x ((s.src t).toNat % 64)).signExtend 64) s.core.npc))

/-- R144, R145: reductions to lane 0 and the k largest lanes. -/
def Sys2Proof.Claims.Reductions : Prop :=
  ∀ (s u : State) (d a : VReg) (m : Mask) (r : Rm), s.vmuTake false = some u →
    Usable s [] (cellV a.val :: maskCells m) →
    let l := activeLanes s a m
    let vs := l.map fun p => fmtF32.value p.2.toNat
    let does (i : Instr) (p : Lane → Prop) := ∃ v, exec i s = .next (wroteV u d (padded [v])) ∧ p v
    -- a finite value in units of 2^-149, the smallest of FP32
    let units (x : FV) : Int := match x with
      | .fin n k e => (if n then -(k : Int) else k) * 2 ^ (e + 149).toNat
      | _ => 0
    -- the order of R145: NaN lowest, then by value, -0 below +0
    let key (w : Lane) : Int := if nanLane w then -2 ^ 40
      else if w.getLsbD 31 then -(w.toNat % 2 ^ 31 : Nat) - 1 else w.toNat
    does (.vredSumS32 d a m) (fun v => v = BitVec.ofInt 32 (l.map fun p => p.2.toInt).sum)
    ∧ does (.vredSumF32 d a m r) (fun v =>
        (vs.any FV.isNan ∨ FV.inf false ∈ vs ∧ FV.inf true ∈ vs → v = 0x7FC0_0000)
        ∧ (vs.any FV.isNan = false → ∀ n, FV.inf n ∈ vs → FV.inf (!n) ∉ vs →
            v = if n then 0xFF80_0000 else 0x7F80_0000)
        ∧ (vs.all FV.isZero → v = if l ≠ [] ∧ vs.all FV.signNeg then 0x8000_0000 else 0)
        ∧ (vs.any FV.isNan = false → (∀ n, FV.inf n ∉ vs) → vs.all FV.isZero = false →
            v = BitVec.ofNat 32 (fmtF32.ofFV r (FV.ofInt (vs.map units).sum (-149) (r == .rdn))).code))
    ∧ does (.vredMinS32 d a m) (fun v => (l = [] → v = 0x7FFF_FFFF) ∧ (l ≠ [] → v ∈ l.map (·.2))
        ∧ ∀ p ∈ l, v.toInt ≤ p.2.toInt)
    ∧ does (.vredMaxS32 d a m) (fun v => (l = [] → v = 0x8000_0000) ∧ (l ≠ [] → v ∈ l.map (·.2))
        ∧ ∀ p ∈ l, p.2.toInt ≤ v.toInt)
    ∧ does (.vredMinF32 d a m) (fun v => v = BitVec.ofNat 32 ((l.map (·.2.toNat)).foldl fmtF32.minC 0x7F80_0000))
    ∧ does (.vredMaxF32 d a m) (fun v => v = BitVec.ofNat 32 ((l.map (·.2.toNat)).foldl fmtF32.maxC 0xFF80_0000))
    ∧ does (.vredArgminF32 d a m) (fun v => (l = [] → v = 0xFFFF_FFFF) ∧ (l ≠ [] → ∃ p ∈ l, v.toNat = p.1)
        ∧ ∀ p ∈ l, v.toNat = p.1 →
            if l.any (fun q => nanLane q.2) then nanLane p.2 ∧ ∀ q ∈ l, nanLane q.2 → p.1 ≤ q.1
            else ∀ q ∈ l, key p.2 ≤ key q.2 ∧ (key p.2 = key q.2 → p.1 ≤ q.1))
    ∧ does (.vredArgmaxF32 d a m) (fun v => (l = [] → v = 0xFFFF_FFFF) ∧ (l ≠ [] → ∃ p ∈ l, v.toNat = p.1)
        ∧ ∀ p ∈ l, v.toNat = p.1 →
            if l.any (fun q => nanLane q.2) then nanLane p.2 ∧ ∀ q ∈ l, nanLane q.2 → p.1 ≤ q.1
            else ∀ q ∈ l, key q.2 ≤ key p.2 ∧ (key p.2 = key q.2 → p.1 ≤ q.1))
    ∧ ∀ k : BitVec 5, 1 ≤ k.toNat → k.toNat ≤ 8 → ∃ best : List (Nat × Lane),
        best.length = min k.toNat l.length ∧ best.Nodup ∧ (∀ p ∈ best, p ∈ l)
        ∧ best.Pairwise (fun p q => key q.2 < key p.2 ∨ (key p.2 = key q.2 ∧ p.1 < q.1))
        ∧ (∀ p ∈ l, p ∉ best → ∀ q ∈ best, key p.2 < key q.2 ∨ (key p.2 = key q.2 ∧ q.1 < p.1))
        ∧ exec (.vtopk d a k m) s = .next (wroteV u d (padded
            ((best.flatMap fun p => [if nanLane p.2 then 0x7FC0_0000 else p.2, BitVec.ofNat 32 p.1])
              ++ (List.replicate (k.toNat - best.length) [(0xFF80_0000 : Lane), 0xFFFF_FFFF]).flatten)))

/-- The mask operations, the lane moves and the reductions. -/
def Obligations.VectorLanes : Prop :=
  Claims.MasksAndLanes ∧
  Claims.Reductions

/-! ### Tiles, tables, the matrix array and the accumulators (R24-R33, R147-R162) -/

namespace Sys2Proof.Claims

/-- `s` once an instruction that writes tile register `d` is done, as a region mark (R137). -/
def wroteT (s : State) (d : TReg) (b : Memory) : State :=
  (went { s with core := { s.core with t := s.core.t.set d.val b }, poison := cleaned s (cellT d.val) }
    s.core.npc).newRegion

/-- `s` once an instruction that writes accumulator `c` is done, as a region mark. -/
def wroteC (s : State) (c : CReg) (a : Acc) : State :=
  (went { s with core := { s.core with c := s.core.c.set c.val a } } s.core.npc).newRegion

/-- The address of part i of row r of a tile transfer (R147). -/
def tileAt (base stride : Word) (r i : Nat) : Word := base + BitVec.ofNat 64 r * stride + BitVec.ofNat 64 (16 * i)

/-- The rows of a tile transfer pass their checks, each with homes `g r` (R147). -/
abbrev rowsPass (s : State) (kind : Kind) (base stride : Word) (g : Nat → List (Home × Nat)) : Prop :=
  ∀ r < 64, s.check { kind := kind, allow := .mem0123 } (base + BitVec.ofNat 64 r * stride) 128 = .ok (g r)

/-- Every page of a range of space 0 is there, and none migrates (R121, R137, R322). -/
abbrev PagesStay (s : State) (a : Word) (n : Nat) : Prop :=
  ∀ va, s.spaceOf a.toNat = .virt va → ∀ q, va / 2 ^ 21 ≤ q → q ≤ (va + n - 1) / 2 ^ 21 →
    ∃ b f, s.walk (s.ctxAsid s.core.ctx) q = .hit b f ∧ pteMig (s.pte b f) = false

end Sys2Proof.Claims

/-- R147, R149: tile loads and stores move 64 rows of 128 bytes, the stores in parts of 16 bytes; a base or a
stride that is no multiple of 16 raises ALIGN before any row is checked. The TMOV members move bytes between
tiles and vectors; what writes a tile is a region mark. -/
def Sys2Proof.Claims.TileMoves : Prop :=
  ∀ (s : State) (d a : TReg) (v : VReg) (b : Fin 32) (x y : X5Reg) (g : Nat → List (Home × Nat))
    (h : Nat → Nat → List (Home × Nat)),
    (∀ u, s.vmuTake false = some u →
      (Usable s [] [cellT a.val] →
        exec (.tmov d a) s = .next (wroteT u d s.core.t[a])
        ∧ (Memory.wf s.core.t[a] = true → (∀ p ∈ s.core.t[a], p.1 < 8192) →
          (∃ m, exec (.tmovT16 d a) s = .next (wroteT u d m) ∧ ∀ i < 64, ∀ k < 64, ∀ h < 2,
            m.read (128 * i + 2 * k + h) = s.core.t[a].read (128 * k + 2 * i + h))
          ∧ (∃ m, exec (.tmovT8 d a) s = .next (wroteT u d m) ∧ ∀ i < 64, ∀ k < 64, ∀ h < 2,
            m.read (128 * i + 64 * h + k) = s.core.t[a].read (128 * k + 64 * h + i)))
        ∧ exec (.tmovRv v a b) s = .next (wroteV u v (Vector.ofFn fun i =>
            BitVec.ofNat 32 (ofBytes (s.core.t[a].readBytes (256 * b.val + 4 * i.val) 4)))))
      ∧ (Usable s [] [cellV v.val] → exec (.tmovVr d v b) s = .next (wroteT u d
          (s.core.t[d].writeBytes (256 * b.val) (s.core.v[v].toList.flatMap fun z => bytesOf 4 z.toNat))))
      ∧ exec (.tmovZero d) s = .next (wroteT u d []))
    ∧ (s.vmuBusy = false → ∀ base stride : Word, base = s.rx (x5 x) →
      stride = (if s.rx (x5 y) = 0 then 128 else s.rx (x5 y)) →
      (Usable s [x.val, y.val] [cellX x.val, cellX y.val] →
        (base.toNat % 16 ≠ 0 → exec (.tld d x y) s = .next (s.takeTrap .align base))
        ∧ (base.toNat % 16 = 0 → stride.toNat % 16 ≠ 0 →
            exec (.tld d x y) s = .next (s.takeTrap .align (base + stride)))
        ∧ (base.toNat % 16 = 0 → stride.toNat % 16 = 0 → (∀ r < 64, InMemory (g r)) →
            rowsPass s .load base stride g → (∀ r < 64, s.mustWait (g r) = false) →
            exec (.tld d x y) s = .next (wroteT s d
              (Memory.writeBytes [] 0 ((List.range 64).flatMap fun r => s.loadSegs (g r))))))
      ∧ (Usable s [x.val, y.val] [cellT d.val, cellX x.val, cellX y.val] →
        (base.toNat % 16 ≠ 0 → exec (.tst d x y) s = .next (s.takeTrap .align base))
        ∧ (base.toNat % 16 = 0 → stride.toNat % 16 ≠ 0 →
            exec (.tst d x y) s = .next (s.takeTrap .align (base + stride)))
        ∧ (base.toNat % 16 = 0 → stride.toNat % 16 = 0 → rowsPass s .store base stride g →
            (∀ r < 64, ∀ i < 8, Plain (h r i)
              ∧ s.check { kind := .store, allow := .mem0123 } (tileAt base stride r i) 16 = .ok (h r i)) →
            let es := (List.range 64).flatMap fun r => (List.range 8).flatMap fun i =>
              sbEntries (s.ctxAsid s.core.ctx) (tileAt base stride r i) (h r i)
                (s.core.t[d].readBytes (128 * r + 16 * i) 16)
            exec (.tst d x y) s
              = .next (went { s with core := { s.core with sb := s.core.sb ++ es } } s.core.npc))))

/-- R148, R137: TLD.W reads a compressed image, whose presence map gives its length, into the core's weight
share, as a region mark, which clears the poison of every 16-byte part that it writes whole; an image that would
pass the share's end raises FMT and writes nothing. From space 0 the pages are pinned until the mark. -/
def Sys2Proof.Claims.ShareLoads : Prop :=
  ∀ (s : State) (w : Fin 32) (x : X5Reg) (g0 g1 : List (Home × Nat)),
    s.vmuBusy = false → Usable s [x.val] [cellX x.val] →
    let acc : Access := { allow := .mem0123, align := 16 }
    s.check acc (s.rx (x5 x)) 128 = .ok g0 → InMemory g0 → s.mustWait g0 = false →
    let len := 128 + 8 * ((s.loadSegs g0).map fun b => (List.range 8).countP b.getLsbD).sum
    (16384 < 512 * w.val + len → exec (.tldW w x) s = .next (s.takeTrap .fmt 0))
    ∧ (512 * w.val + len ≤ 16384 → s.check acc (s.rx (x5 x)) len = .ok g1 → InMemory g1 → s.mustWait g1 = false →
      let share := s.core.share.writeBytes (512 * w.val) (s.loadSegs g1)
      let clean (p : List Place) : List Place := p.filter fun q =>
        !(List.range (len / 16)).any fun i => q == .reg s.core.num (cellPart (32 * w.val + i))
      ((∀ va, s.spaceOf (s.rx (x5 x)).toNat ≠ .virt va) → exec (.tldW w x) s = .next (went { s with
          core := { s.core with share := share }, poison := clean s.poison } s.core.npc).newRegion)
      ∧ (PagesStay s (s.rx (x5 x)) len → ∃ t, exec (.tldW w x) s = .next t ∧ t.core.share = share
          ∧ t.core.pins = [] ∧ t.core.pc = s.core.npc ∧ t.core.x = s.core.x ∧ t.vault = s.vault))

/-- R150-R152, R25, R27: decode tables are loaded whole or preset; an entry of more than 19 bits raises
FMT; ENC writes the lanes of its quarter and DEC reads the codes of its quarter. -/
def Sys2Proof.Claims.DecodeTables : Prop :=
  ∀ (s : State) (x : X5Reg) (o : Bool) (p q : Fin 4) (d a : VReg) (g : List (Home × Nat)),
    let es := (List.range 256).map fun i => ofBytes (((s.loadSegs g).drop (4 * i)).take 4)
    let table (u : State) (t : DTable) : Out := .next (went { u with
      core := { u.core with table := t }, poison := cleaned s cellTab } s.core.npc).newRegion
    (s.vmuBusy = false → Usable s [x.val] [cellX x.val] → s.check { allow := .mem0123, align := 4 } (s.rx (x5 x)) 1024 = .ok g →
      s.mustWait g = false →
      ((∀ e ∈ es, e < 2 ^ 19) → exec (.tabld x o) s = table s (.loaded (es.map (BitVec.ofNat 19)) o))
      ∧ ((∃ e ∈ es, 2 ^ 19 ≤ e) → exec (.tabld x o) s = .next (s.takeTrap .fmt 0)))
    ∧ ∀ u, s.vmuTake false = some u → exec (.tabldPreset p) s = table u (.preset p)
    ∧ (Usable s [] [cellV a.val, cellTab] →
      (s.core.table.encOk = false → exec (.enc d a q) s = .next (u.takeTrap .fmt 0))
      ∧ (s.core.table.encOk = true → ∃ v, exec (.enc d a q) s = .next (wroteV u d v)
        ∧ ∀ i : Fin 64, if i.val / 16 = q.val then ∀ k < 4, ∀ e, s.core.v[a].toList[4 * (i.val % 16) + k]? = some e →
              v[i].toNat / 256 ^ k % 256 = s.core.table.encode e.toNat
            else v[i] = s.core.v[d][i])
      ∧ exec (.dec d a q) s = .next (wroteV u d (Vector.ofFn fun i =>
          let e := 64 * q.val + i.val
          let c := (s.core.v[a].toList.getD (e / 4) 0).toNat / 2 ^ (8 * (e % 4)) % 256
          BitVec.ofNat 32 (fmtF32.ofFV .rne (fmtE8m10.value (s.core.table.entry c))).code)))

/-- The tile loads, stores and clears, the weight share, and the decode tables. The model's own choices
in it: log entries 24 and 85. -/
def Obligations.TilesAndTables : Prop :=
  Claims.TileMoves ∧
  Claims.ShareLoads ∧
  Claims.DecodeTables

namespace Sys2Proof.Claims

/-- R26, R153: the scales of an operand: none but for a scaled format, whose 64 signed bytes stand in local
memory at the place that SCLA or SCLB names. -/
def ScalesAre (s : State) (fmt : BitVec 4) (off : BitVec 8) (l : List Int) : Prop :=
  (fmt ≠ 11 ∧ l = [])
  ∨ fmt = 11 ∧ ∃ g, s.check {} (BitVec.ofNat 64 (2 ^ 61 + 64 * off.toNat)) 64 = .ok g ∧ l = (s.loadSegs g).map (·.toInt)

/-- R153, R154: the formats of FMTA and FMTB pair, the type of the instruction is A's, and the accumulator is in
the mode that they need; `k` is how many elements a row holds. -/
def Paired (s : State) (c : CReg) (y : Ty) (imode : Bool) (k : Nat) : Prop :=
  mmaPair (s.core.csrs.fmta.toNat % 8) (s.core.csrs.fmtb.toNat % 8) = some (imode, k)
  ∧ (y = .any ∨ y.code = s.core.csrs.fmta.toNat % 8) ∧ s.core.c[c].imode = imode

/-- What a step of the array takes beside its operands (R154). -/
def stepOf (s : State) (imode : Bool) (k : Nat) (sa sb : List Int) (e : Bool) : MmaSetup :=
  { imode := imode, k := k, fa := s.core.csrs.fmta.toNat % 8, fb := s.core.csrs.fmtb.toNat % 8
    table := s.core.table, sa := sa, sb := sb, rows := if e then s.core.erow.toNat else 64
    cols := if e then s.core.ecol.toNat else 64 }

/-- The image at a slot lies in the share, and no 16-byte part of it is poisoned (R155, R356). -/
def ImageIn (s : State) (w : Fin 32) : Prop :=
  512 * w.val + 128 ≤ 16384 ∧ 512 * w.val + imageLen (s.core.share.readBytes (512 * w.val) 128) ≤ 16384
  ∧ ∀ i, 16 * i < imageLen (s.core.share.readBytes (512 * w.val) 128) →
      Place.reg s.core.num (cellPart (32 * w.val + i)) ∉ s.poison

end Sys2Proof.Claims

/-- R26, R153-R156: the three matrix forms apply one step to the accumulator, of the operands that the tile
registers, the weight share or memory give, in the formats that FMTA and FMTB name and with the scales of a
scaled one; formats that do not pair, a type that is not A's, or an accumulator in the other mode, raise FMT. -/
def Sys2Proof.Claims.MatrixForms : Prop :=
  ∀ (s u : State) (c : CReg) (a b : TReg) (w : Fin 32) (x : XSrc) (e dir : Bool) (y : Ty) (g : List (Home × Nat)),
    s.vmuTake true = some u → Usable s [] ([cellT a.val, cellT b.val, cellTab] ++ (List.range 8).map fun i => cellPart (32 * w.val + i)) →
    let image := Memory.writeBytes [] 0 (imageBytes s.core.share (512 * w.val))
    let whole := Memory.writeBytes [] 0 (u.loadSegs g)
    let reads := Usable s x.regs x.cells ∧ s.check { allow := .mem0123, align := 128 } (s.src x) 8192 = .ok g
      ∧ s.mustWait g = false
    (∀ imode k sa sb, Paired s c y imode k → ScalesAre u s.core.csrs.fmta s.core.csrs.scla sa →
      ScalesAre u s.core.csrs.fmtb s.core.csrs.sclb sb →
      let step (ma mb : Memory) : Out := .next (wroteC u c (s.core.c[c].mma (stepOf s imode k sa sb e) ma mb))
      exec (.mma c a b false e y) s = step s.core.t[a] s.core.t[b]
      ∧ (ImageIn s w → exec (.mmaw c a w false e y) s = step s.core.t[a] image)
      ∧ (reads → exec (.mmam c x a dir false e y) s
          = if dir then step s.core.t[a] whole else step whole s.core.t[a]))
    ∧ ((∀ imode k, ¬Paired s c y imode k) → ∀ k,
      exec (.mma c a b k e y) s = .next (u.takeTrap .fmt 0)
      ∧ (ImageIn s w → exec (.mmaw c a w k e y) s = .next (u.takeTrap .fmt 0))
      ∧ (reads → exec (.mmam c x a dir k e y) s = .next (u.takeTrap .fmt 0)))

/-- R33, R46: an MMA with .SKIP. Under SKREP it takes its decision from the next bit of the log; else it is
skipped if every element of the rows of A that it computes is zero or lies below the threshold, TH and, but for
SKDET, the layer's derate D, and its decision is stored in the log. A skipped one sets SKIP and leaves the
elements; a computed one is the same MMA without .SKIP. At the log's end it raises FMT, with TVAL 1. -/
def Sys2Proof.Claims.MatrixSkips : Prop :=
  ∀ (s u : State) (c : CReg) (a b : TReg) (e : Bool) (y : Ty) (imode : Bool) (k : Nat) (sa sb : List Int)
    (g : List (Home × Nat)),
    s.vmuTake true = some u → Usable s [] [cellT a.val, cellT b.val, cellTab] → Paired s c y imode k →
    ScalesAre u s.core.csrs.fmta s.core.csrs.scla sa → ScalesAre u s.core.csrs.fmtb s.core.csrs.sclb sb →
    let q := s.core.csrs
    let addr : Word := BitVec.ofNat 64 (2 ^ 61 + (q.skbase.toNat + q.skpos.toNat / 8))
    let bit := q.skpos.toNat % 8
    let step := stepOf s imode k sa sb e
    let low : Prop := ∀ i < step.rows, ∀ p ∈ mRow step.fa k step.table sa s.core.t[a] i,
      match (if imode then FV.ofInt p.int 0 false else p.v) with
      | .fin _ m x => m = 0 ∨ (Nat.log2 m : Int) + x
          < q.skth.toInt + if q.skctl.getLsbD 0 then 0 else (s.derate (layerOf s.core.num) : Int)
      | _ => False
    let old := ofBytes (u.loadSegs g)
    -- the accumulator behind it, skipped or computed
    let out (skip : Bool) : Acc := if skip then { s.core.c[c] with status := s.core.c[c].status ||| 64 }
      else s.core.c[c].mma step s.core.t[a] s.core.t[b]
    let moved : State := { u with core := { u.core with csrs := { q with skpos := q.skpos + 1 } } }
    (q.skpos = q.sklen → exec (.mma c a b true e y) s = .next (u.takeTrap .fmt 1))
    ∧ (q.skpos ≠ q.sklen → q.skctl.getLsbD 1 = true → u.check {} addr 1 = .ok g →
        exec (.mma c a b true e y) s = .next (wroteC moved c (out (old.testBit bit))))
    ∧ (q.skpos ≠ q.sklen → q.skctl.getLsbD 1 = false → u.check { kind := .store } addr 1 = .ok g →
        ∀ skip : Bool, (skip = true ↔ low) →
        let byte : Byte := if skip then BitVec.ofNat 8 old ||| BitVec.ofNat 8 (2 ^ bit)
          else BitVec.ofNat 8 old &&& ~~~BitVec.ofNat 8 (2 ^ bit)
        exec (.mma c a b true e y) s = .next (wroteC { moved with core := { moved.core with
          sb := s.core.sb ++ sbEntries (s.ctxAsid s.core.ctx) addr g [byte] } } c (out skip)))

namespace Sys2Proof.Claims

/-- R30: the code that one step in float mode gives an element, `ps` its old value and its products. -/
def StepGives (ps : List FV) (c : Nat) : Prop :=
  let finite : Prop := FV.nan ∉ ps ∧ ∀ n, FV.inf n ∉ ps
  (FV.nan ∈ ps ∨ FV.inf true ∈ ps ∧ FV.inf false ∈ ps → c = 0x7_FC00_0000)
  ∧ (∀ n, FV.nan ∉ ps → FV.inf n ∈ ps → FV.inf (!n) ∉ ps → c = 0x7_F800_0000 + if n then 2 ^ 35 else 0)
  ∧ (finite → ps.all FV.isZero → c = if ps.all FV.signNeg then 2 ^ 35 else 0)
  ∧ ∀ emax : Int, finite → (∃ n m e, FV.fin n m e ∈ ps ∧ m ≠ 0 ∧ Nat.log2 m + e = emax) →
      (∀ n m e, FV.fin n m e ∈ ps → m ≠ 0 → Nat.log2 m + e ≤ emax) →
      -- each term in units of the cut, cut toward zero
      let units (p : FV) : Int := match p with
        | .fin n m e =>
          (if n then -1 else 1) * (m * 2 ^ (e - (emax - 64)).toNat / 2 ^ (emax - 64 - e).toNat : Nat)
        | _ => 0
      let t := (ps.map units).sum
      c = if t = 0 then 0 else (fmtA36.round .rne (decide (t < 0)) t.natAbs 1 (emax - 64)).code

end Sys2Proof.Claims

/-- R30, R154: the step of the matrix array, element by element: the exact integer sum, or the rounded
sum of the old element and the products, each cut at 64 bits below the largest; elements outside the rows
and columns keep their value, and status bits only ever become set. -/
def Sys2Proof.Claims.MatrixElements : Prop :=
  ∀ (c : Acc) (u : MmaSetup) (ma mb : Memory), c.elems.Pairwise (fun p q => p.1 < q.1) →
    u.rows ≤ 64 → u.cols ≤ 64 →
    let row (i : Nat) := mRow u.fa u.k u.table u.sa ma i
    let col (j : Nat) := mRow u.fb u.k u.table u.sb mb j
    let r := c.mma u ma mb
    r.imode = c.imode ∧ r.elems.Pairwise (fun p q => p.1 < q.1) ∧ c.status &&& r.status = c.status
    ∧ (∀ i < 64, ∀ j < 64, u.rows ≤ i ∨ u.cols ≤ j → r.elem (64 * i + j) = c.elem (64 * i + j))
    ∧ (u.imode = true → ∀ i < u.rows, ∀ j < u.cols, r.elem (64 * i + j)
        = c.elem (64 * i + j) + BitVec.ofInt 80 (((row i).zip (col j)).map fun p => p.1.int * p.2.int).sum)
    ∧ (u.imode = false → ∀ i < u.rows, ∀ j < u.cols, ∃ q, r.elem (64 * i + j) = BitVec.ofNat 80 q
        ∧ StepGives (fmtA36.value (c.elem (64 * i + j)).toNat
          :: ((row i).zip (col j)).flatMap fun p => mProds p.1 p.2) q)

/-- The matrix multiplications: when they execute, when they are skipped, and what each element becomes.
The model's own choices in it: log entries 71, 86 and 87. -/
def Obligations.MatrixMultiply : Prop :=
  Claims.MatrixForms ∧
  Claims.MatrixSkips ∧
  Claims.MatrixElements

namespace Sys2Proof.Claims

/-- R157: the formats that a float accumulator is read out in, each with its bytes an element. -/
def floatTps : List (Tp × Fmt × Nat) := [(.f32, fmtF32, 4), (.bf16, fmtBf16, 2), (.f16, fmtF16, 2)]

/-- Element k of a float accumulator, rounded once to a format (R32, R157). -/
def elemCode (t : Acc) (f : Fmt) (r : Rm) (k : Nat) : Nat := (f.ofFV r (fmtA36.value (t.elem k).toNat)).code

/-- Some element of an integer accumulator lies outside 36 bits (R31). -/
def Wide (t : Acc) : Prop := t.imode = true ∧ ∃ p ∈ t.elems, p.2.toInt < -2 ^ 35 ∨ 2 ^ 35 - 1 < p.2.toInt

/-- R31, R44: the accumulator once a readout has looked for IOVF, with the bits `k` set as well. -/
def Seen (t u : Acc) (k : BitVec 7) : Prop :=
  u = { t with status := u.status } ∧ (Wide t → u.status = t.status ||| k ||| 1) ∧ (¬Wide t → u.status = t.status ||| k)

/-- Element k of an integer accumulator clamped to 32 bits (R31, R157). -/
def cut (t : Acc) (k : Nat) : Int := max (-2 ^ 31) (min (2 ^ 31 - 1) (t.elem k).toInt)

end Sys2Proof.Claims

/-- R31, R32, R44, R157-R159, R162: clearing, swapping, reading the status and reading out a row of an
accumulator: a float one rounded once, an integer one cut to its low 32 bits, or clamped under SAT, which sets
SAT where an element of the row is out of range. A TP of the other mode raises FMT. -/
def Sys2Proof.Claims.AccumulatorReads : Prop :=
  ∀ (s u : State) (c : CReg) (i sat : Bool) (d : VReg) (x : XReg) (row : BitVec 6) (r : Rm),
    s.vmuTake false = some u →
    let t := s.core.c[c]
    let at_ (j : Nat) : Nat := 64 * row.toNat + j
    let withC (n : Acc) : State := { u with core := { u.core with c := s.core.c.set c.val n } }
    exec (.accclr c i) s = .next (wroteC u c { imode := i })
    ∧ exec .accswap s = .next (went { u with core := { u.core with
        c := (s.core.c.set 0 s.core.c[1]).set 1 s.core.c[0] } } s.core.npc).newRegion
    ∧ (Usable s [x.val] [] → ∃ n, Seen t n 0 ∧ exec (.accstat x c) s
        = .next (wrote (withC n) x (BitVec.ofNat 64 (n.status.toNat + 256 * t.imode.toNat)) s.core.npc))
    ∧ (∀ p ∈ floatTps,
        (t.imode = false → exec (.accrd d c row sat r p.1) s = .next (wroteV (withC t) d
          (Vector.ofFn fun j => BitVec.ofNat 32 (elemCode t p.2.1 r (at_ j.val)))))
        ∧ (t.imode = true → exec (.accrd d c row sat r p.1) s = .next (u.takeTrap .fmt 0)))
    ∧ (t.imode = false → exec (.accrd d c row sat r .s32) s = .next (u.takeTrap .fmt 0))
    ∧ (t.imode = true → ∃ n m, Seen t n 0
        ∧ Seen t m (if (List.range 64).all (fun j => cut t (at_ j) == (t.elem (at_ j)).toInt) then 0 else 32)
        ∧ exec (.accrd d c row false r .s32) s = .next (wroteV (withC n) d
            (Vector.ofFn fun j => (t.elem (at_ j.val)).setWidth 32))
        ∧ exec (.accrd d c row true r .s32) s = .next (wroteV (withC m) d
            (Vector.ofFn fun j => BitVec.ofInt 32 (cut t (at_ j.val)))))

/-- R158, R160, R161: storing and loading accumulators. An element store converts as a readout does and puts
element (i, j) at its row's address plus j elements, under EDGE only the task's rows and columns; an image store
writes the image in parts of 16 bytes; loads replace the elements, or all that an image holds, as a region mark. -/
def Sys2Proof.Claims.AccumulatorTransfers : Prop :=
  ∀ (s : State) (c : CReg) (e sat : Bool) (r : Rm) (a b : X5Reg) (g : List (Home × Nat))
    (h : Nat → Nat → List (Home × Nat)),
    s.vmuBusy = false → Usable s [a.val, b.val] [cellX a.val, cellX b.val] →
    let t := s.core.c[c]
    let base := s.rx (x5 a)
    let asid := s.ctxAsid s.core.ctx
    let rows := if e then s.core.erow.toNat else 64
    let cols := if e then s.core.ecol.toNat else 64
    let plainSpace := ∀ va, s.spaceOf base.toNat ≠ .virt va
    let stride (n : Nat) : Word := if s.rx (x5 b) = 0 then BitVec.ofNat 64 (64 * n) else s.rx (x5 b)
    let place (n i j : Nat) : Word := base + BitVec.ofNat 64 i * stride n + BitVec.ofNat 64 (j * n)
    -- the stores of elements of n bytes pass their checks, with homes `h i j`
    let stored (n : Nat) : Prop := base.toNat % n = 0 ∧ (stride n).toNat % n = 0 ∧ ∀ i < rows, ∀ j < cols,
      Plain (h i j) ∧ s.check { kind := .store, allow := .mem012 } (place n i j) n = .ok (h i j)
    let entries (n : Nat) (v : Nat → Nat) : List SbEntry := (List.range rows).flatMap fun i =>
      (List.range cols).flatMap fun j => sbEntries asid (place n i j) (h i j) (bytesOf n (v (64 * i + j)))
    let after (n : Acc) (es : List SbEntry) : Out := .next (went { s with core := { s.core with
      c := s.core.c.set c.val n, sb := s.core.sb ++ es } } s.core.npc)
    (∀ p ∈ floatTps, t.imode = false → stored p.2.2 → exec (.accst c a b e sat r p.1) s
        = after t (entries p.2.2 (elemCode t p.2.1 r)))
    ∧ (t.imode = true → stored 4 → ∃ n m, Seen t n 0
        ∧ Seen t m (if ∃ i < rows, ∃ j < cols, cut t (64 * i + j) ≠ (t.elem (64 * i + j)).toInt then 32 else 0)
        ∧ exec (.accst c a b e false r .s32) s = after n (entries 4 fun k => (t.elem k).toNat % 2 ^ 32)
        ∧ exec (.accst c a b e true r .s32) s = after m (entries 4 fun k => (BitVec.ofInt 32 (cut t k)).toNat))
    ∧ (s.check { kind := .store, allow := .mem01, align := 64 } base 65600 = .ok g →
        (∀ i < 4100, Plain (h i 0) ∧ s.check { kind := .store, allow := .mem01 } (base + BitVec.ofNat 64 (16 * i)) 16
          = .ok (h i 0)) →
        ∃ n, Seen t n 0 ∧ exec (.accst c a b e sat r .img) s = after n ((List.range 4100).flatMap fun i =>
          sbEntries asid (base + BitVec.ofNat 64 (16 * i)) (h i 0) (n.image.readBytes (16 * i) 16)))
    ∧ (s.check { allow := .mem012, align := 4 } base 16384 = .ok g → InMemory g → s.mustWait g = false →
        t.imode = false → ∃ n : Acc, n.imode = false ∧ n.status = t.status
          ∧ (∀ k < 4096, n.elem k = BitVec.ofNat 80
              (fmtA36.ofFV .rne (fmtF32.value (ofBytes (((s.loadSegs g).drop (4 * k)).take 4)))).code)
          ∧ (plainSpace → exec (.accld c a b e sat r .f32) s = .next (wroteC s c n))
          ∧ (PagesStay s base 16384 → ∃ v, exec (.accld c a b e sat r .f32) s = .next v ∧ v.core.c = s.core.c.set c.val n
              ∧ v.core.pins = [] ∧ v.core.pc = s.core.npc ∧ v.core.x = s.core.x))
    ∧ (t.imode = true → exec (.accld c a b e sat r .f32) s = .next (s.takeTrap .fmt 0))
    ∧ (s.check { allow := .mem01, align := 64 } base 65600 = .ok g → InMemory g → s.mustWait g = false →
        let m := Memory.writeBytes [] 0 (s.loadSegs g)
        (imageOk m = false → exec (.accld c a b e sat r .img) s = .next (s.takeTrap .fmt 0))
        ∧ (imageOk m = true →
          (plainSpace → exec (.accld c a b e sat r .img) s = .next (wroteC s c (accOfImage m)))
          ∧ (PagesStay s base 65600 → ∃ v, exec (.accld c a b e sat r .img) s = .next v
              ∧ v.core.c = s.core.c.set c.val (accOfImage m) ∧ v.core.pins = [] ∧ v.core.pc = s.core.npc
              ∧ v.core.x = s.core.x)))

/-- Clearing, swapping, reading, storing and loading accumulators. -/
def Obligations.Accumulators : Prop :=
  Claims.AccumulatorReads ∧
  Claims.AccumulatorTransfers

/-! ### Control registers, traps and returns (R46-R50, R185-R189) -/

/-- R46, R47, R185 with the maps of R44, R48-R50, R151 and R350: CSRR writes the register's value, and a read
of ACCSTAT0 or ACCSTAT1 looks for IOVF; the checks of the number come before REGIDX, in their order. -/
def Sys2Proof.Claims.ControlReads : Prop :=
  ∀ (s : State) (d : XReg) (n : BitVec 12), Usable s [d.val] [cellTab] → s.vmuBusy = false →
    let c := s.core
    let r := c.csrs
    let slots (j : Nat) : Word := BitVec.ofNat 64 ((List.range 16).map fun i =>
      (s.slotmap.toList.getD (16 * j + i) 0).toNat * 2 ^ (4 * i)).sum
    let unpriv : List (Nat × Word) := [(0x001, r.astr), (0x002, r.qdst), (0x003, r.qwgt.zeroExtend 64),
      (0x005, r.fmta.zeroExtend 64), (0x006, r.fmtb.zeroExtend 64),
      (0x007, BitVec.ofNat 64 (64 * r.scla.toNat)), (0x008, BitVec.ofNat 64 (64 * r.sclb.toNat)),
      (0x009, BitVec.ofNat 64 (r.skth.toNat + 2 ^ 8 * s.derate (c.num / 512))),
      (0x00A, BitVec.ofNat 64 (r.skbase.toNat + 2 ^ 16 * r.skpos.toNat + 2 ^ 32 * r.sklen.toNat)),
      (0x00B, r.skctl.zeroExtend 64), (0x400, c.wid),
      (0x401, BitVec.ofNat 64 (c.num + 2 ^ 16 * c.erow.toNat + 2 ^ 24 * c.ecol.toNat
        + 2 ^ 32 * (c.members.length + 1).log2)),
      (0x402, BitVec.ofNat 64 (c.rlim + 2 ^ 8 * (8 * ((c.rlim + 2 + 7) / 8)))),
      (0x405, c.rlktab), (0x406, c.frs), (0x407, c.table.tblst), (0x408, c.rslot)]
    let priv : List (Nat × Word) := [
      (0x800, BitVec.ofNat 64 (c.p.toNat + 2 * c.pp.toNat + 8 * (!c.members.isEmpty).toNat + 16 * c.ss.toNat)),
      (0x801, c.epc), (0x802, c.cause.zeroExtend 64), (0x803, c.tval),
      (0x804, (s.layer (c.num / 512)).lbal.zeroExtend 64),
      (0x808, slots 0), (0x809, slots 1), (0x80A, slots 2), (0x80B, slots 3),
      (0xC00, BitVec.ofNat 64 ((List.range 12).map fun l => (s.layer l).state.code * 4 ^ l).sum)]
      ++ (List.range 16).map fun k => (0x810 + k, c.prot.toList.getD k 0)
    let reads (v : Word) := exec (.csrr d n) s = .next (wrote s d v c.npc)
    (c.members.length ∈ [0, 1, 3, 7, 15] → ∀ p ∈ unpriv, n.toNat = p.1 → reads p.2)
    ∧ (c.p = true → ∀ p ∈ priv, n.toNat = p.1 → reads p.2)
    ∧ (∀ k : CReg, n.toNat = 0x403 + k.val → ∃ t, Seen c.c[k] t 0 ∧
        exec (.csrr d n) s = .next (wrote { s with core := { c with c := c.c.set k.val t } } d
          (BitVec.ofNat 64 (t.status.toNat + 256 * c.c[k].imode.toNat)) c.npc))
    ∧ (c.p = false → 0x800 ≤ n.toNat → ∀ e : XReg,
        exec (.csrr e n) s = .next (s.takeTrap .priv 0))
    ∧ (c.p = true ∨ n.toNat < 0x800 → (∀ p ∈ unpriv ++ priv, n.toNat ≠ p.1) → n.toNat ≠ 0x403 → n.toNat ≠ 0x404 → ∀ e : XReg,
        exec (.csrr e n) s = .next (s.takeTrap .ill (c.iw.zeroExtend 64)))

/-- R46, R48, R50, R185: CSRW replaces a read-write register field by field, CSRS and CSRC set and clear
the bits of the source, and reserved and read-only fields ignore the write; a read-only register, and a
number of no register, raises ILL. -/
def Sys2Proof.Claims.ControlWrites : Prop :=
  ∀ (s : State) (a : XSrc) (n : BitVec 12), Usable s a.regs a.cells → s.vmuBusy = false →
    let c := s.core
    let r := c.csrs
    let goes (u : State) : Out := .next (went u c.npc)
    let sets (f : Word → Csrs) (v : Word) : Out := goes { s with core := { c with csrs := f v } }
    let slots (j : Nat) : Word := BitVec.ofNat 64 ((List.range 16).map fun i =>
      (s.slotmap.toList.getD (16 * j + i) 0).toNat * 2 ^ (4 * i)).sum
    let layer := fun (v : Word) (h : c.num / 512 < 12) => { s with
      layers := s.layers.set (c.num / 512) { s.layers[c.num / 512] with lbal := v.extractLsb' 0 8 } }
    let prot (k : Nat) (v : Word) : Out := goes { s with core := { c with
      prot := c.prot.setIfInBounds k (v &&& 0xFE3F_FFFF_FFFF_FFFC) } }
    let rows : List (Nat × Word × (Word → Out)) := [
      (0x001, r.astr, sets fun v => { r with astr := v }),
      (0x002, r.qdst, sets fun v => { r with qdst := v &&& 0xFFE0_07FF_FF01_1FFF }),
      (0x003, r.qwgt.zeroExtend 64, sets fun v => { r with
        qwgt := if v.extractLsb' 0 4 = 0 then 1 else v.extractLsb' 0 4 }),
      (0x005, r.fmta.zeroExtend 64, sets fun v => { r with fmta := v.extractLsb' 0 4 }),
      (0x006, r.fmtb.zeroExtend 64, sets fun v => { r with fmtb := v.extractLsb' 0 4 }),
      (0x007, BitVec.ofNat 64 (r.scla.toNat * 64), sets fun v => { r with scla := v.extractLsb' 6 8 }),
      (0x008, BitVec.ofNat 64 (r.sclb.toNat * 64), sets fun v => { r with sclb := v.extractLsb' 6 8 }),
      (0x009, BitVec.ofNat 64 (r.skth.toNat + 256 * s.derate (c.num / 512)),
        sets fun v => { r with skth := v.extractLsb' 0 8 }),
      (0x00A, r.sklog, sets fun v => { r with
        skbase := v.extractLsb' 0 14, skpos := v.extractLsb' 16 16, sklen := v.extractLsb' 32 16 }),
      (0x00B, r.skctl.zeroExtend 64, sets fun v => { r with skctl := v.extractLsb' 0 2 })]
    let privRows : List (Nat × Word × (Word → Out)) := [
      (0x800, c.status, fun v => goes { s with core := { c with
        p := v.getLsbD 0, pp := v.getLsbD 1, ss := v.getLsbD 4 } }),
      (0x801, c.epc, fun v => goes { s with core := { c with epc := v &&& ~~~3 } }),
      (0x802, c.cause.zeroExtend 64, fun v => goes { s with core := { c with cause := v.extractLsb' 0 5 } }),
      (0x803, c.tval, fun v => goes { s with core := { c with tval := v } })]
      ++ (List.range 16).map fun k => (0x810 + k, c.prot.toList.getD k 0, prot k)
    let x := s.src a
    let does (p : Nat × Word × (Word → Out)) := exec (.csrw a n) s = p.2.2 x
      ∧ exec (.csrs a n) s = p.2.2 (p.2.1 ||| x) ∧ exec (.csrc a n) s = p.2.2 (p.2.1 &&& ~~~x)
    (∀ p ∈ rows, n.toNat = p.1 → does p)
    ∧ (c.p = true → ∀ p ∈ privRows, n.toNat = p.1 → does p)
    ∧ (c.p = true → ∀ h : c.num / 512 < 12, n.toNat = 0x804 →
        does (0x804, s.layers[c.num / 512].lbal.zeroExtend 64, fun v => goes (layer v h)))
    ∧ (c.p = true → ∀ j < 4, n.toNat = 0x808 + j → does (0x808 + j, slots j, fun v => goes { s with
        slotmap := Vector.ofFn fun k =>
          if k.val / 16 = j ∧ k.val ≠ 0 then v.extractLsb' (4 * (k.val % 16)) 4 else s.slotmap[k] }))
    ∧ (c.p = true ∨ n.toNat < 0x800 → (∀ p ∈ rows ++ privRows, n.toNat ≠ p.1) → n.toNat ≠ 0x804 →
        (n.toNat < 0x808 ∨ 0x80B < n.toNat) → ∀ b : XSrc,
        exec (.csrw b n) s = s.ill ∧ exec (.csrs b n) s = s.ill ∧ exec (.csrc b n) s = s.ill)
    ∧ (c.p = false → 0x800 ≤ n.toNat → ∀ b : XSrc, exec (.csrw b n) s = .next (s.takeTrap .priv 0)
        ∧ exec (.csrs b n) s = .next (s.takeTrap .priv 0) ∧ exec (.csrc b n) s = .next (s.takeTrap .priv 0))

/-- The reads and the writes of control registers. The model's own choice in it: log entry 111. -/
def Obligations.ControlRegisters : Prop :=
  Claims.ControlReads ∧
  Claims.ControlWrites

namespace Sys2Proof.Claims

/-- The current core runs with P = 0, a handler entry, and no debugger (R186, R188). -/
def Heard (s : State) : Prop :=
  s.core.p = false ∧ s.dbgEn s.core.ctx = false ∧ ∃ t, s.core.task = some t ∧ t.hdr.handler ≠ 0

/-- R186: `s` with a trap of the instruction at `epc` delivered. -/
def entered (s : State) (cause : Nat) (tval epc : Word) : State :=
  { s with core := { s.core with
      epc := epc &&& ~~~3, cause := BitVec.ofNat 5 cause, tval := tval, pp := s.core.p, p := true
      pc := ((s.core.task.map (·.hdr.handler)).getD 0)
      frame := { s.core.frame with suspended := s.core.frame.act }
      stalled := false, woken := false, progress := .none } }

end Sys2Proof.Claims

/-- R50, R186: every cause is delivered with its code as CAUSE, the address of the instruction as
EPC and its TVAL, and nothing but those, STATUS, the frame and the PC changes. The model's own
choice in it: log entry 108. -/
def Obligations.TrapDelivery : Prop :=
  ∀ (s : State) (tval : Word), Heard s → ∀ p ∈ [(Cause.ill, 1), (.regidx, 2), (.align, 3), (.prot, 4), (.rlock, 6),
      (.msgdone, 7), (.fmt, 8), (.poison, 9), (.priv, 10), (.addr, 11), (.rao, 12), (.frame, 13), (.brk, 14),
      (.trapi, 15), (.compose, 16), (.aged, 17), (.late, 18)],
    s.takeTrap p.1 tval = entered s p.2 tval s.core.pc

/-- R64, R65, R187, R189: TRAP and BRK enter the handler with their immediate as TVAL, a word that is
no instruction raises ILL with itself as TVAL, and ERET returns, in privileged mode alone. -/
def Sys2Proof.Claims.TrapsAndReturn : Prop :=
  ∀ (s : State) (i : BitVec 13) (w : BitVec 32),
    (Heard s →
      exec (.trap i) s = .next (entered s 15 (i.zeroExtend 64) s.core.pc)
      ∧ exec (.brk i) s = .next (entered s 14 (i.zeroExtend 64) s.core.pc)
      ∧ exec (.illEncoding w) s = .next (entered s 1 (w.zeroExtend 64) s.core.pc)
      ∧ exec .eret s = .next (entered s 10 0 s.core.pc))
    ∧ (s.core.p = true → exec .eret s = .next { s with core := { s.core with
        pc := s.core.epc, p := s.core.pp, pp := false, completed := true, progress := .none
        frame := { s.core.frame with suspended := false } } })

/-- R189: ERET with a nonzero bit below its major raises ILL. -/
def Sys2Proof.Claims.EretWords : Prop :=
  decodeWord 0xF4000000 0 0 = .ok .eret ∧ ∀ o : BitVec 25, o ≠ 0 → Ill (0x7A * 2 ^ 25 + o.toNat)

/-- R50, R276, R362: a trap raised in the handler, or in a task without a handler, freezes the core
instead: it enters no handler and saves nothing, and a record with code 0x10 says so. -/
def Sys2Proof.Claims.TrapFreeze : Prop :=
  ∀ (s : State) (cause : Cause) (tval : Word) (t : Task), s.core.task = some t →
    s.dbgEn s.core.ctx = false → s.core.memberOf = none → s.core.members = [] → s.walks = [] →
    s.reads = [] → s.terms = [] → s.core.num < 6144 → s.core.ctx ∉ s.held →
    (s.core.p = true ∨ t.hdr.handler = 0) →
    let v := if s.core.p then 1 else 2
    s.takeTrap cause tval = ({ s with core := { s.core.abandon with frozen := true, tstate := .frozen } }).postError
      { code := 0x10, frozen := true, ctx := some t.ctx, layer := s.core.num / 512, master := s.core.num
        cause := cause.code, addr := s.core.pc.toNat, detail := v }

/-- The instructions that take or leave a trap, and the trap taken while one is being handled. The
model's own choice in it: log entry 83. -/
def Obligations.Traps : Prop :=
  Claims.TrapsAndReturn ∧
  Claims.EretWords ∧
  Claims.TrapFreeze

/-! ### Repeat frames (R59-R62, R203) -/

/-- R59-R61: REPF starts the capture of KM1 + 1 words; a replaying frame is waited for, and a suspended
one makes it raise FRAME. -/
def Sys2Proof.Claims.FrameStart : Prop :=
  ∀ (s : State) (k : BitVec 4) (n : BitVec 8) (t : BitVec 5) (e : BitVec 3),
    (s.core.frame.suspended = false → s.core.frame.act = false → exec (.repf k n t e) s
      = .next { s with core := { s.core with
          frame := { cap := true, sel := e, stride := t, nm1 := n, km1 := k, bodyPc := s.core.npc, here := true }
          pc := s.core.npc, progress := .none } })
    ∧ (s.core.frame.suspended = false → s.core.frame.act = true →
      exec (.repf k n t e) s = .next { s with core := { s.core with stalled := true } })
    ∧ (s.core.frame.suspended = true →
      exec (.repf k n t e) s = .next (s.takeTrap .frame (s.core.iw.zeroExtend 64)))

/-- R59, R61, R163: a pass step runs the next body word with its fields moved on by the pass number
times the stride where SEL says so (said of VADD, masked or not: inactive lanes keep their value), and the
frame goes on to the next word, the next pass, or its end. A word that reads what it has just written
sees it. -/
def Sys2Proof.Claims.FramePasses : Prop :=
  ∀ (s : State) (f : Frame) (w : IWord) (d a b : VReg) (m : Mask) (v : Vmu), s.core.frame = f → f.act = true →
    f.suspended = false → f.fault = none → f.here = true → s.core.frozen = false → s.core.task ≠ none →
    s.core.ctx ∉ s.held → f.body[f.idx]? = some w → decodeV w.toNat = .ok (.vadd d a b m) →
    -- its quad's arbiter gives this core a lane group (VmuArbiter), and is v behind the grant
    (let q := s.vmuOf (s.core.num / 4)
     s.arbiter q false (s.heads q false) = some (s.core.num % 4, v)) →
    let move (bit : Nat) (r : VReg) : VReg :=
      if f.sel.getLsbD bit then ⟨(r.val + f.pass * f.stride.toNat) % 32, Nat.mod_lt _ (by decide)⟩ else r
    let d' := move 2 d
    let x := s.core.v[move 1 a]
    let y := s.core.v[move 0 b]
    Usable s [] ([cellV (move 1 a).val, cellV (move 0 b).val] ++ maskCells m) →
    let next : Frame := if f.idx < f.km1.toNat then { f with idx := f.idx + 1, since := s.tick }
      else if f.pass < f.nm1.toNat then { f with idx := 0, pass := f.pass + 1, since := s.tick } else {}
    exec (.repfPassStep s.core.num) s = .next (({ s with
      core := { s.core with v := s.core.v.set d'.val (merged s d' m fun i => x[i] + y[i]), frame := next }
      poison := cleaned s (cellV d'.val) }).setVmu (if next.act then v else v.forget (s.core.num % 4)))

namespace Sys2Proof.Claims

/-- R203: a grant goes to the head of core c's queue in quad q: the next body instruction of its frame is
carried out, or its ordinary instruction holds the resource. -/
def granted (s u : State) (q c : Nat) : State :=
  if s.frameReady (s.getCore (4 * q + c)) then u.onCore (4 * q + c) State.passStep
  else u.modCore (4 * q + c) fun k => { k with
    stalled := false, vmuWait := k.vmuWait.map fun w => { w with granted := true } }

end Sys2Proof.Claims

/-- R203: the array goes to its waiting heads in turn. A lane group goes to the oldest head that has waited
for 128 cycles, else to the one with the most credit, each head's credit having grown by its QWGT.W, and the
winner pays them all. A completion frees what it held, and an empty queue has no credit. An instruction alone
in its quad has its resource at once, and having it changes nothing else; one without it waits. -/
def Sys2Proof.Claims.VmuArbiter : Prop :=
  ∀ (s : State) (q : Nat) (v : Vmu), v = s.vmuOf q →
    let late (i : Nat) : Prop := (Config.cycle i).toNat + 128 ≤ (Config.cycle s.tick).toNat
    let weight (c : Nat) : Int := (s.getCore (4 * q + c)).csrs.qwgt.toNat
    let grants (u : Vmu) (c : Nat) : Prop := exec (.vmuResourceGrant q) s = .next (granted s (s.setVmu u) q c)
    (v.array = none → v.last < 4 → ∀ c < 4, c ∈ (s.heads v true).map (·.1) →
      (∀ k, k < (c + 3 - v.last) % 4 → (v.last + 1 + k) % 4 ∉ (s.heads v true).map (·.1)) →
      grants { v with array := some c, last := c } c)
    ∧ (s.heads v true = [] → v.groups.length < 4 →
      (∀ c i, s.heads v false = [(c, i)] → grants { v with groups := v.groups ++ [c] } c)
      ∧ (2 ≤ (s.heads v false).length → ∀ c i, (c, i) ∈ s.heads v false → late i →
          (∀ k j, (k, j) ∈ s.heads v false → late j → i < j ∨ i = j ∧ c ≤ k) →
          grants { v with groups := v.groups ++ [c] } c)
      ∧ ∀ a b i j, s.heads v false = [(a, i), (b, j)] → ¬late i → ¬late j →
          let ca := v.credits.toList.getD a 0 + weight a
          let cb := v.credits.toList.getD b 0 + weight b
          let c := if ca < cb then b else a
          grants { v with
            credits := Vector.ofFn fun k => (if k.val = a then ca else if k.val = b then cb else v.credits[k])
              - (if k.val = c then weight a + weight b else 0)
            groups := v.groups ++ [c] } c)
    ∧ ((∀ c < 4, s.vmuHead (s.getCore (4 * q + c)) = none) →
      let left (c : Nat) (u : Vmu) : Vmu := if (s.getCore (4 * q + c)).frame.act then u else u.forget c
      (∀ c < 4, v.array = some c →
        exec (.vmuInstructionComplete q) s = .next (s.setVmu (left c { v with array := none })))
      ∧ ∀ c < 4, ∀ g, v.array = none → v.groups = c :: g →
        exec (.vmuInstructionComplete q) s = .next (s.setVmu (left c { v with groups := g })))
    ∧ (q = s.core.num / 4 → ∀ array : Bool, s.vmuBusy = false →
      (∀ u, s.vmuTake array = some u →
        { u with vmus := s.vmus, core := { u.core with vmuWait := s.core.vmuWait } } = s)
      ∧ ((if array then v.array = none else v.groups.length < 4) →
          (∀ k, k ≠ s.core.num % 4 → k ∉ (s.heads v array).map (·.1)) → ∃ u, s.vmuTake array = some u))
    ∧ (∀ d a b : VReg, s.vmuBusy = false → s.vmuTake false = none → Usable s [] [cellV a.val, cellV b.val] →
        ∃ w, exec (.vadd d a b none) s = .next { s with core := { s.core with stalled := true, vmuWait := some w } }
          ∧ w.array = false)

/-- The repeat frame: the start of its capture, and a pass step of a vector addition; and the arbiter of
the vector unit. The model's own choices in it: log entries 3, 22, 25, 40 and 82. -/
def Obligations.Frames : Prop :=
  Claims.FrameStart ∧
  Claims.FramePasses ∧
  Claims.VmuArbiter

/-! ### Tasks: phases, barriers, joins, messages, spawns and ligatures (R165-R176) -/

namespace Sys2Proof.Claims

/-- A launch of the current context that is in flight grants the number (R165). -/
def Granted (s : State) (mask : Grants → Nat) (num : Nat) : Prop :=
  ∃ k ∈ s.slots, k.ctx = s.core.ctx ∧ ∃ l, k.kind = .launch l ∧ (mask l.grants).testBit num = true

/-- `s` with its task parked at the instruction at PC. -/
def parked (s : State) (w : Wait) : State :=
  { s with core := { s.core with tstate := .parked, wait := w, stalled := false } }

/-- `s` once a non-idempotent instruction that writes `d` is done: a new region begins (R109, R110). -/
def marked (s : State) (d : XReg) (v : Word) : State := (wrote s d v s.core.npc).newRegion

/-- Nobody waits for the barrier. -/
abbrev NoWaiter (s : State) (b : Barrier) : Prop :=
  ∀ w ∈ s.parkedTasks, w.1.ctx = b.ctx → w.2.onBarrier b.unit b.num = false

end Sys2Proof.Claims

/-- R171, R172: what each member does at its unit: the count, the arrivals and the phase; an arrival
that is not the last leaves the phase, the last one changes it; a wait returns once the phase is not
the one named, and parks before. No packet of the core is about to be found too old (R248). -/
def Sys2Proof.Claims.Barriers : Prop :=
  ∀ (s : State) (d : XReg) (a b : XSrc),
    let x := s.src a
    let n := (s.src b).toNat
    let unit := if 64 ≤ x.toNat then 12 else s.core.num / 512
    let num := x.toNat % 64
    let bar := s.barrier unit s.core.ctx num
    let last := { bar with a := 0, p := (bar.p + 1) % 65536 }
    let more := { bar with a := bar.a + 1 }
    let settled := s.settled (if 64 ≤ x.toNat then .package else .layer) = true
    x.toNat < 128 → Granted s (if 64 ≤ x.toNat then (·.barp) else (·.barl)) num →
    s.core.late = none → s.core.progress = .none → s.core.woken = false → s.frameWait = false →
    (Usable s (d.val :: (a.regs ++ b.regs)) (a.cells ++ b.cells) →
      (bar.a = 0 ∧ 1 ≤ n ∧ n ≤ 65535 → exec (.barInit d a b) s = .next (marked (s.setBarrier { bar with n := n }) d 1))
      ∧ (¬(bar.a = 0 ∧ 1 ≤ n ∧ n ≤ 65535) → exec (.barInit d a b) s = .next (marked s d 0)))
    ∧ (Usable s (d.val :: a.regs) a.cells →
      (bar.n ≠ 0 → settled →
        (bar.a + 1 ≠ bar.n → exec (.barArr d a) s = .next (marked (s.setBarrier more) d (BitVec.ofNat 64 bar.p)))
        ∧ (bar.a + 1 = bar.n → NoWaiter s bar →
          exec (.barArr d a) s = .next (marked (s.setBarrier last) d (BitVec.ofNat 64 bar.p))))
      ∧ (bar.n = 0 → exec (.barArr d a) s = .next (s.takeTrap .prot x))
      ∧ exec (.barRead d a) s = .next (wrote s d
          (BitVec.ofNat 64 (bar.p + bar.a * 2 ^ 16 + bar.n * 2 ^ 32)) s.core.npc))
    ∧ (Usable s (a.regs ++ b.regs) (a.cells ++ b.cells) →
      (bar.p ≠ n % 65536 → exec (.barw a b) s = .next (went s s.core.npc))
      ∧ (bar.p = n % 65536 → exec (.barw a b) s = .next (parked s (.barw unit num bar.p))))
    ∧ (Usable s a.regs a.cells → bar.n ≠ 0 → settled →
      (bar.a + 1 = bar.n → NoWaiter s bar → bar.p < 65536 →
        exec (.barSync a) s = .next (went (s.setBarrier last) s.core.npc).newRegion)
      ∧ (bar.a + 1 ≠ bar.n → exec (.barSync a) s = .next (parked { s.setBarrier more with
          core := { s.core with progress := .arrived (bar.p + x.toNat * 2 ^ 16) } } (.barSync unit num bar.p))))

/-- R165: every member of BAR and JOIN raises PROT for a number with a reserved bit or one that the
context does not hold, before it does anything else. -/
def Sys2Proof.Claims.NumbersNotHeld : Prop :=
  ∀ (s : State) (d : XReg) (a b : XSrc),
    let x := s.src a
    let mask (l p : Grants → Nat) := if x.getLsbD 6 then p else l
    let prot : Out := .next (s.takeTrap .prot x)
    Usable s (d.val :: (a.regs ++ b.regs)) (a.cells ++ b.cells ++ (List.range 8).map cellQs) →
    (128 ≤ x.toNat ∨ ¬Granted s (mask (·.barl) (·.barp)) (x.toNat % 64) →
      exec (.barInit d a b) s = prot ∧ exec (.barArr d a) s = prot ∧ exec (.barw a b) s = prot
      ∧ exec (.barSync a) s = prot ∧ exec (.barRead d a) s = prot)
    ∧ (128 ≤ x.toNat ∨ ¬Granted s (mask (·.jnl) (·.jnp)) (x.toNat % 64) →
      exec (.joinArm d a b) s = prot ∧ exec (.joinArr d a) s = prot ∧ exec (.joinRead d a) s = prot)

/-- R173: arming, counting down and reading a join; the arrival that reaches zero sends the stored
flit, and for a flit that starts a handler raises the handler's counter first. No packet of the core is about
to be found too old (R248). -/
def Sys2Proof.Claims.Joins : Prop :=
  ∀ (s : State) (d : XReg) (a b : XSrc),
    let x := s.src a
    let n := (s.src b).toNat
    let num := x.toNat % 64
    let j := s.join (if 64 ≤ x.toNat then 12 else s.core.num / 512) s.core.ctx num
    let stored : Flit := { words := s.core.qs.toList, qdst := s.core.csrs.qdst, srcPkg := s.pkg
                           ctx := s.core.ctx, launch := (s.core.task.map (·.launch)).getD 0 }
    x.toNat < 128 → Granted s (if 64 ≤ x.toNat then (·.jnp) else (·.jnl)) num → s.core.late = none →
    (Usable s (d.val :: (a.regs ++ b.regs)) (a.cells ++ b.cells ++ (List.range 8).map cellQs) →
      (j.c = 0 ∧ 1 ≤ n ∧ n < 2 ^ 32 →
        exec (.joinArm d a b) s = .next (marked (s.setJoin { j with c := n, flit := stored }) d 1))
      ∧ (¬(j.c = 0 ∧ 1 ≤ n ∧ n < 2 ^ 32) → exec (.joinArm d a b) s = .next (marked s d 0)))
    ∧ (Usable s (d.val :: a.regs) a.cells →
      (s.settled (if 64 ≤ x.toNat then .package else .layer) = true →
        let down := s.setJoin { j with c := j.c - 1 }
        (j.c = 0 → exec (.joinArr d a) s = .next (marked s d (BitVec.allOnes 64)))
        ∧ (1 < j.c → exec (.joinArr d a) s = .next (marked down d (BitVec.ofNat 64 (j.c - 1))))
        ∧ (j.c = 1 → j.flit.qdst.toNat % 8192 < 6144 → j.flit.qdst.getLsbD 63 = false →
          (j.flit.qdst.getLsbD 16 = false → exec (.joinArr d a) s = .next (marked { down with
            flits := s.flits ++ [{ j.flit with raised := false, phase := s.phaseOf j.flit.launch }] } d 0))
          ∧ ∀ h, j.flit.qdst.getLsbD 16 = true → s.hdr? j.flit.launch (j.flit.qdst.toNat / 2 ^ 24 % 256) = some h →
            exec (.joinArr d a) s = .next (marked { down.raise j.flit.launch h.comp with
              flits := s.flits ++ [{ j.flit with raised := true, phase := s.phaseOf j.flit.launch }] } d 0)))
      ∧ exec (.joinRead d a) s = .next (wrote s d (BitVec.ofNat 64 j.c) s.core.npc))

/-- Barriers, joins, and the numbers a task may not use. The model's own choices in it: log entries 73
and 91. -/
def Obligations.BarriersAndJoins : Prop :=
  Claims.Barriers ∧
  Claims.NumbersNotHeld ∧
  Claims.Joins

/-- R174: MSG.POLL counts the flits that wait for the task, MSG.HDR reads the latched flit's header, and
MSG.DROP pops it; none of them waits. -/
def Sys2Proof.Claims.Messages : Prop :=
  ∀ (s : State) (d : XReg) (t : Task), s.core.task = some t →
    let mine := (s.core.inbox.filter (·.task == t.id)).length
      + (s.overflow.filter fun o => o.core == s.core.num && o.entry.task == t.id).length
    (Usable s [d.val] [] →
      exec (.msgPoll d) s = .next (wrote s d (BitVec.ofNat 64 (min 65535 mine)) s.core.npc)
      ∧ (s.core.latched = none → exec (.msgHdr d) s = .next (wrote s d 0 s.core.npc))
      ∧ ∀ f, s.core.latched = some f → f.bad = false → exec (.msgHdr d) s = .next (wrote s d f.header s.core.npc))
    ∧ (s.core.latched = none → exec .msgDrop s = .next (went s s.core.npc))
    ∧ ∀ f, s.core.latched = some f → exec .msgDrop s = .next (went { s with core := { s.core with
        latched := none, snap := { s.core.snap with popped := s.core.snap.popped ++ [f] } } } s.core.npc)

/-- R168: PHASE.OR and PHASE.MAX change the word of the task's own phase while it runs, and nothing
once it is over. -/
def Sys2Proof.Claims.PhaseWords : Prop :=
  ∀ (s : State) (a : XSrc) (t : Task), Usable s a.regs a.cells → s.core.task = some t →
    let with_ (f : Launch → Launch) : State := { s with slots := s.slots.map fun k =>
      if k.id = t.launch then (match k.kind with | .launch l => { k with kind := .launch (f l) } | _ => k) else k }
    let running (l : Launch) : Prop := l.phases = t.phase ∧ l.state = .running
    ((∀ k ∈ s.slots, ∀ l, k.id = t.launch → k.kind = .launch l → running l) →
      exec (.phaseOr a) s = .next (went (with_ fun l => { l with word := l.word ||| s.src a }) s.core.npc)
      ∧ exec (.phaseMax a) s = .next (went (with_ fun l => { l with
          word := if l.word.toNat < (s.src a).toNat then s.src a else l.word }) s.core.npc))
    ∧ ((∀ k ∈ s.slots, ∀ l, k.id = t.launch → k.kind = .launch l → ¬running l) →
      exec (.phaseOr a) s = .next (went s s.core.npc) ∧ exec (.phaseMax a) s = .next (went s s.core.npc))

/-- R169, R119: YIELD parks for min(X[rs], 2^26) cycles, and for 0 the task is ready at once; it is done
once its task has been woken. -/
def Sys2Proof.Claims.Yield : Prop :=
  ∀ (s : State) (a : XSrc), Usable s a.regs a.cells →
    (s.core.woken = false → s.frameWait = false → s.src a ≠ 0 →
      exec (.yield a) s = .next (parked s (.yield (min (s.src a).toNat (2 ^ 26)))))
    ∧ (∀ t, s.core.task = some t → s.core.members = [] → s.core.ctx ∉ s.held → s.core.woken = false →
      s.frameWait = false → s.src a = 0 → exec (.yield a) s = .next { s with
        core := { s.core with tstate := .queued, wait := .none, stalled := false, woken := true, watch := none }
        queue := s.queue ++ [{ t with bound := some s.core.num, resident := true, saved := false, level := t.pri }] })
    ∧ (s.core.woken = true → exec (.yield a) s = .next (went { s with
        core := { s.core with woken := false } } s.core.npc))

/-- Message polls and waits, the phase word, and giving way to another task. -/
def Obligations.MessagesAndPhases : Prop :=
  Claims.Messages ∧
  Claims.PhaseWords ∧
  Claims.Yield

/-- R170: SPAWN raises the counter that the entry's header names and hands the dispatcher a task with
the entry, the work identifier, the priority and the edges given. -/
def Sys2Proof.Claims.Spawns : Prop :=
  ∀ (s : State) (a b : XSrc) (t : Task) (h : TaskHdr), Usable s (a.regs ++ b.regs) (a.cells ++ b.cells) →
    s.core.task = some t →
    let v := (s.src a).toNat
    let f (lo n : Nat) := v / 2 ^ lo % 2 ^ n
    let router := if f 0 9 = 0x1FF then s.core.num / 16 else f 0 9
    f 40 24 = 0 → f 27 5 = 0 → f 9 3 = 0 → router < 384 → (s.layer (router / 32)).state = .awake →
    (s.layer (router / 32)).closed = false → s.hdr? t.launch (f 32 8) = some h →
    s.spawns = [] → s.dispatcherFull router = false → s.settled .package = true →
    let edge (e : Nat) := if e = 0 then 64 else e
    let k : Task := { id := s.nextTask, ctx := t.ctx, launch := t.launch, phase := s.phaseOf t.launch
                      entry := f 32 8, hdr := h, wid := s.src b, pri := f 24 3, level := f 24 3
                      erow := edge (f 12 6), ecol := edge (f 18 6), dom := router }
    exec (.spawn a b) s = .next (went { s.raise t.launch h.comp with
      nextTask := s.nextTask + 1, queue := s.queue ++ [k] } s.core.npc).newRegion

/-- R175, R176: COMPOSE takes the idle cores of the domain with the lowest numbers, as many as make the
largest size of 2, 4, 8 and 16 that the request and the idle cores allow; in the handler, or alone, it
answers 1; DECOMPOSE hands the members back; a request that is none of the sizes raises COMPOSE. -/
def Obligations.Ligatures : Prop :=
  ∀ (s : State) (d : XReg) (a : XSrc),
    let req := (s.src a).toNat
    let idle := s.idleCores s.core.num
    let sizes := [2, 4, 8, 16]
    (Usable s (d.val :: a.regs) a.cells →
      (req ∉ sizes ∨ s.core.members ≠ [] → exec (.compose d a) s = .next (s.takeTrap .compose (s.src a)))
      ∧ (req ∈ sizes → s.core.members = [] →
        (s.core.p = true → exec (.compose d a) s = .next (marked s d 1))
        ∧ (s.core.p = false → s.frameWait = false → ∀ g,
          (idle = [] → exec (.compose d a) s = .next (marked s d 1))
          ∧ (g ∈ sizes → g ≤ req → g ≤ idle.length + 1 →
              (∀ k ∈ sizes, k ≤ req → k ≤ idle.length + 1 → k ≤ g) →
            ∃ u, exec (.compose d a) s = .next (marked u d (BitVec.ofNat 64 g))
              ∧ u.core.members = idle.take (g - 1) ∧ ∀ m ∈ u.core.members, (u.getCore m).memberOf = some s.core.num))))
    ∧ (s.frameWait = false → s.core.members = [] → exec .decompose s = .next (went s s.core.npc).newRegion)
    ∧ (s.frameWait = false → s.core.members ≠ [] → s.core.sb = [] → s.core.rorder = [] →
      s.core.num ∉ s.core.members → s.core.members.Nodup → (s.ligature s.core.num).all s.slotsFree = true →
      ∃ u, exec .decompose s = .next (went u s.core.npc).newRegion ∧ u.core = { s.core with members := [] }
        ∧ ∀ m ∈ s.core.members, (u.getCore m).memberOf = none)

namespace Sys2Proof.Claims

/-- The flits that still wait for the task of the current core: the one it has latched, those of its inbox and those
of its overflow area, in this order (R207). -/
def waiting (s : State) (t : Task) : List Flit :=
  s.core.latched.toList ++ (s.core.inbox.filter (·.task == t.id)).map (·.flit)
    ++ (s.overflow.filter fun o => o.core == s.core.num && o.entry.task == t.id).map s.overFlit

/-- The flit as it goes back to its sender at core n (R209), on the RSP classes (R241). -/
def returning (s : State) (f : Flit) (n : Nat) : Flit :=
  { f with bounce := true, via := s.backVia (f.qdst.toNat % 8192 / 16) n }

/-- The flits of a list that go back to tasks of this package, and the messages that take the others to theirs. -/
def backHere (s : State) (l : List Flit) : List Flit :=
  l.filterMap fun f => match f.src with
    | some (n, _) => if f.srcPkg = s.pkg then some (returning s f n) else none
    | none => none
def backThere (s : State) (l : List Flit) : List OutMsg :=
  (l.filter fun f => f.srcPkg ≠ s.pkg).map fun f => .flit f.srcPkg { f with bounce := true }

end Sys2Proof.Claims

/-- R167, R209: DONE of a task with nothing outstanding ends it: its completion counter goes down, the
core is empty and its dispatcher's, and the flits that still wait for it go back to their senders; with a range
lock held or a store not acknowledged it waits, past its first step, where it takes no trap. -/
def Sys2Proof.Claims.Done : Prop :=
  ∀ (s : State) (t : Task), s.core.task = some t → s.frameWait = false → s.core.members = [] →
    (s.core.locks.toList.any (·.isSome) = true ∨ s.settled .system = false → exec .done s
      = .next { s with core := { s.core with stalled := true, progress := .ending } })
    ∧ (s.core.locks.toList.any (·.isSome) = false → s.core.rorder = [] → s.settled .system = true →
      s.core.pins = [] → s.core.circuits.toList.all (·.isNone) = true →
      -- each flit that waits for the task is no returned one, and its sender is of another package or still there
      (∀ f ∈ waiting s t, f.bounce = false ∧ ∃ n r, f.src = some (n, r)
        ∧ (f.srcPkg ≠ s.pkg ∨ r ≠ t.id ∧ (s.task? r).isSome)) →
      ∀ l, s.launch? t.launch = some l → s.core.num / 16 < 384 →
      ∃ u, exec .done s = .next u
        ∧ u.core = { s.core.vacate with inbox := s.core.inbox.filter (·.task != t.id) }
        ∧ u.overflow = s.overflow.filter (fun o => !(o.core == s.core.num && o.entry.task == t.id))
        ∧ u.flits = s.flits ++ backHere s (waiting s t) ∧ u.out = s.out ++ backThere s (waiting s t)
        ∧ (t.hdr.comp < 64 → (u.launch? t.launch).map (fun m => m.counters.toList.getD t.hdr.comp 0)
          = some (l.counters.toList.getD t.hdr.comp 0 - 1))
        ∧ (∀ c, c ≠ t.hdr.comp → (u.launch? t.launch).map (fun m => m.counters.toList.getD c 0)
          = some (l.counters.toList.getD c 0))
        ∧ { u with core := s.core, slots := s.slots, flits := s.flits, overflow := s.overflow, out := s.out } = s)

/-- Spawning a task and ending one. The model's own choices in it: log entries 40 and 90. -/
def Obligations.SpawnsAndDone : Prop :=
  Claims.Spawns ∧
  Claims.Done

/-! ### Dispatchers, wakes and flits (R196-R201, R207-R210) -/

/-- R196, R199: a dispatcher gives an eligible core the oldest task at the highest level: one that
waits on the core goes on, a new one starts at the code address of its header with every register
zero, its header's register count, edges, work identifier and protection image, unprivileged; what
local memory held stays. With no core or no task for it nothing changes, nor while the dispatcher could
serve a core of a lower number. -/
def Sys2Proof.Claims.TaskStarts : Prop :=
  ∀ (s : State) (n : Nat),
    (s.eligible n = false ∨ s.nextTaskFor n = none
        ∨ (∃ m < n, m / 16 = n / 16 ∧ s.canStart m = true) → exec (.taskStart n) s = .next s)
    ∧ ∀ t, s.eligible n = true → s.nextTaskFor n = some t → (∀ m < n, m / 16 = n / 16 → s.canStart m = false) →
      (t ∈ s.queue ∧ (t.bound = some n ∨ t.bound = none ∧ t.dom = n / 16) ∧ ∀ q ∈ s.queue, s.mayStart n q = true → q.level ≤ t.level)
      ∧ (t.resident = true → ∃ u, exec (.taskStart n) s = .next u
        ∧ u.getCore n = { s.getCore n with tstate := .running, stalled := false }
        ∧ ∀ q ∈ u.queue, q.id ≠ t.id ∨ q ∈ s.spawns.map fun k => { k with level := k.pri })
      ∧ (t.resident = false → t.saved = false → (s.getCore n).task = none → ∃ u, exec (.taskStart n) s = .next u
        ∧ (let c := u.getCore n
          c.task = some { t with bound := some n, started := s.tick } ∧ c.tstate = .running
          ∧ c.pc = t.hdr.code ∧ c.rlim = t.hdr.regs ∧ c.wid = t.wid ∧ c.p = false ∧ c.latched = t.handler
          ∧ c.erow.toNat = t.erow % 128 ∧ c.ecol.toNat = t.ecol % 128
          ∧ c.x = Vector.replicate 62 0 ∧ c.a = Vector.replicate 8 0
          ∧ c.v = Vector.replicate 32 (Vector.replicate 64 0) ∧ c.m = Vector.replicate 4 0
          ∧ c.t = Vector.replicate 4 [] ∧ c.c = Vector.replicate 2 {} ∧ c.csrs = {}
          ∧ c.loc = (s.getCore n).loc
          ∧ ∀ k (h : k < 16), c.prot[k] = BitVec.ofNat 64 (s.reg (0x0010_0000 + 0x400 * t.ctx + 0x80 + 8 * k) 8)
              &&& 0xFE3F_FFFF_FFFF_FFFC)
        ∧ ∀ k, k ≠ n → u.getCore k = s.getCore k)

/-- R201: a task that ages moves to the tail of the next level, once, and none beyond level 7. -/
def Sys2Proof.Claims.Aging : Prop :=
  ∀ (s : State) (r t : Nat) (q : Task), (∀ k ∈ s.queue, k.id = t → k = q) →
    (q ∈ s.queue → q.id = t → q.dom = r → q.level < 7 → exec (.taskAgingPromotion r t) s
      = .next { s with queue := s.queue.filter (·.id != t) ++ [{ q with level := q.level + 1 }] })
    ∧ (q ∉ s.queue ∨ q.id ≠ t ∨ q.dom ≠ r ∨ 7 ≤ q.level →
      (∀ k ∈ s.queue, k.id ≠ t ∨ k.dom ≠ r ∨ 7 ≤ k.level) → exec (.taskAgingPromotion r t) s = .next s)

/-- R119, R169, R197: what wakes a parked task: its line has been written (of a line of another package the
event is the word), its timeout, its time is up; a timeout of 0 never does. A woken task of a core stands at the
tail of its priority. -/
def Sys2Proof.Claims.Wakes : Prop :=
  ∀ (s : State) (t : Task) (e n : Nat), s.core.task = some t → s.core.tstate = .parked →
    s.core.members = [] → s.core.ctx ∉ s.held →
    let woken : Out := .next { s with
      core := { s.core with tstate := .queued, wait := .none, watch := none, woken := true }
      queue := s.queue ++ [{ t with bound := some s.core.num, resident := true, saved := false, level := t.pri }] }
    (s.core.wait = .spinw e →
      (∀ h, s.core.watch = some (h, true) → exec (.spinwWake t.id) s = woken)
      ∧ (∀ h, s.core.watch = some (h, false) → (∀ p a, h ≠ .global p a) → exec (.spinwWake t.id) s = .next s)
      ∧ (∀ p a b, s.core.watch = some (.global p a, b) → exec (.spinwWake t.id) s = woken)
      ∧ (e ≠ 0 → exec (.spinwTimeout t.id) s = woken)
      ∧ (e = 0 → exec (.spinwTimeout t.id) s = .next s))
    ∧ (s.core.wait = .yield n → exec (.yieldExpiry t.id) s = woken)

/-- The start of a task, aging, and the wake-ups of a waiting one. The model's own choices in it: log
entries 26, 30, 40 and 89. -/
def Obligations.TaskScheduling : Prop :=
  Claims.TaskStarts ∧
  Claims.Aging ∧
  Claims.Wakes

namespace Sys2Proof.Claims

/-- The route header of a flit as it arrives from its sender (R174). -/
def headerOf (core : Nat) (f : Flit) (pkg : Nat) : Word :=
  BitVec.ofNat 64 (core + f.qdst.toNat / 2 ^ 16 % 2 * 2 ^ 16 + f.qdst.toNat / 2 ^ 24 % 2 ^ 16 * 2 ^ 24
    + f.qdst.toNat / 2 ^ 40 % 8 * 2 ^ 40 + (if f.qdst.getLsbD 63 then 2 ^ 52 + pkg * 2 ^ 53 else 0) + 2 ^ 63)

/-- The flit with index k has arrived: none of its sender's for the same core is older, no teardown is out,
and, on MSG, no older one for its core is blocked there. -/
abbrev Arrived (s : State) (k : Nat) (f : Flit) : Prop :=
  s.flits[k]? = some f ∧ s.teardowns = []
  ∧ (∀ g ∈ s.flits.take k, g.src ≠ f.src ∨ g.bounce ≠ f.bounce ∨ g.qdst.toNat % 8192 ≠ f.qdst.toNat % 8192)
  ∧ (f.circuit ≠ 0 ∨ f.bounce = true ∨ ∀ g ∈ s.flits.take k,
      g.qdst.toNat % 8192 = f.qdst.toNat % 8192 → g.circuit = 0 → s.flitBlocked g = false)

end Sys2Proof.Claims

/-- R174, R207-R210, R301: a flit for a running task enters its inbox with its route header, or,
when that is full, the overflow area in the vault; it waits while both are, and goes back while
its context drains. One for no task goes back to its sender, and back at the sender it stands
first and MSGDONE is due; one with K = 1 raises the counter of its handler, unless a join has,
and queues a task bound to the core. The model's own choices in it: log entries 13, 30 and 91. -/
def Obligations.FlitArrivals : Prop :=
  ∀ (s : State) (k : Nat) (f : Flit) (n t : Nat), Arrived s k f → f.src = some (n, t) → f.gateTo = none →
    s.routeHeld (s.flitRoute f) = false →
    let core := f.qdst.toNat % 8192
    let tag := f.qdst.toNat / 2 ^ 24 % 2 ^ 16
    let rest := s.flits.eraseIdx k
    let here := { f with header := headerOf n f f.srcPkg }
    -- the context is being stopped and not all of its tasks are saved, or it is being freed
    let drains (c : Nat) : Prop := s.saving c = true ∨ s.ctxState c = 3
    (f.bounce = false → f.qdst.getLsbD 16 = false → core = s.core.num →
      (∀ r, s.taskAt core tag = some r → s.core.wait ≠ .receive → (s.core.task.map (·.id)) = some r →
        s.recordOf r = none → s.overflow = [] → s.core.inbox.length < 32 →
        exec (.flitDelivery k) s = .next { s with flits := rest, core := { s.core with
          inbox := s.core.inbox ++ [{ task := r, flit := here }] } })
      ∧ (∀ r, s.taskAt core tag = some r → s.waitOf r ≠ .receive → s.recordOf r = none → f.words.length = 8 →
        s.inboxRoom core r = false → s.roomFor core r = true → ∃ u p,
          exec (.flitDelivery k) s = .next u ∧ u.flits = rest ∧ p < s.ovf (s.taskCtx r)
          ∧ { u.core with watch := s.core.watch } = s.core
          ∧ (∀ o ∈ s.overflow, o.core = core → s.taskCtx o.entry.task = s.taskCtx r → o.place ≠ p)
          ∧ u.overflow = s.overflow ++ [{ core := core, place := p, entry := { task := r, flit := here } }]
          ∧ u.vault = s.vault.writeBytes (s.overAddr core (s.taskCtx r) p)
              ((f.words.map fun w => bytesOf 8 w.toNat).flatten ++ bytesOf 8 here.header.toNat))
      ∧ (∀ r, s.taskAt core tag = some r → s.roomFor core r = false →
        (¬drains (s.taskCtx r) ∨ s.recordOf r ≠ none → exec (.flitDelivery k) s = .next s)
        ∧ (drains (s.taskCtx r) → s.recordOf r = none → f.srcPkg = s.pkg → (s.task? t).isSome →
          exec (.flitDelivery k) s = .next { s with flits := rest ++ [returning s f n] }))
      ∧ (s.taskAt core tag = none → f.srcPkg = s.pkg → (s.task? t).isSome →
        exec (.flitDelivery k) s = .next { s with flits := rest ++ [returning s f n] }))
    ∧ (f.bounce = false → f.qdst.getLsbD 16 = true → ∀ h, s.hdr? f.launch (tag % 256) = some h → tag < 256 →
      (s.layer (core / 512)).state = .awake → (s.layer (core / 512)).closed = false →
      s.dispatcherFull (core / 16) = false →
      let start : Task := {
        id := s.nextTask, ctx := f.ctx, launch := f.launch
        phase := if f.raised then f.phase else s.phaseOf f.launch, entry := tag, hdr := h
        wid := f.wid, pri := f.qdst.toNat / 2 ^ 40 % 8, level := f.qdst.toNat / 2 ^ 40 % 8
        dom := core / 16, bound := some core, handler := some here }
      let u := if f.raised then s else s.raise f.launch h.comp
      exec (.handlerStart k) s = .next { u with
        flits := rest, nextTask := s.nextTask + 1, queue := s.queue ++ [start] })
    ∧ (f.bounce = true → n = s.core.num → (s.core.task.map (·.id)) = some t → s.recordOf t = none →
      s.core.wait ≠ .receive → exec (.flitBounceReturn k) s = .next { s with flits := rest, core := { s.core with
        inbox := { task := t, flit := { f with header := headerOf core f (f.qdst.toNat / 2 ^ 53 % 1024) } } :: s.core.inbox
        bounces := s.core.bounces + 1 } })

/-! ### Stores on their way, circuits, routers and packet age (R107, R177, R225-R227, R238-R248, R359) -/

/-- R107, R225, R226, R241-R243, R251, R332: a core's oldest store leaves its buffer: to local memory it is
performed; to the mirrored region the whole store enters the layer's mirror queue, one place for each chunk,
when there is room; to another package it goes as a request, once no earlier one to its line is out; to other
memory it is on its way, to a vault by an intermediate router while its layer routes in two phases. Stores to this
package's memory by its global name and by space 0 do not pass each other. -/
def Sys2Proof.Claims.StoresLeave : Prop :=
  ∀ (s : State) (e : SbEntry) (rest : List SbEntry), s.core.sb = e :: rest →
    let n := s.core.num
    let u := { s with core := { s.core with sb := rest, sbOld := s.core.sbOld - 1 } }
    let goes (v : State) : Prop := exec (.storeBufferDrain n) s = .next v
    (∀ c off, e.home = .loc c off → goes (u.storeHome e.home e.bytes))
    ∧ (∀ (es tail : List SbEntry) (off : SbEntry → Nat), s.core.sb = es ++ tail → es ≠ [] → n < 6144 →
        (∀ x ∈ es, x.home = .mirror (off x) ∧ off x % 16 + x.bytes.length ≤ 16 ∧ x.bytes ≠ []) →
        (∀ x ∈ es.dropLast, x.more = true) → (∀ x ∈ es.getLast?, x.more = false) →
        let q := (s.layer (n / 512)).mq
        let pieces : List MirrorStore := es.mapIdx fun i x => {
          core := n, off := off x, bytes := x.bytes
          cont := decide (0 < i) && (es[i - 1]?).any fun y => off y / 16 == off x / 16 }
        let taken := ((q ++ pieces).filter fun m => !m.cont).length
        (taken ≤ 128 → goes (({ s with core := { s.core with
          sb := tail, sbOld := s.core.sbOld - es.length } }).modLayer (n / 512) fun l => { l with mq := l.mq ++ pieces }))
        ∧ (128 < taken → goes s))
    ∧ (∀ p va, e.home = .global p va →
        let r : Request := { pkg := p, srcPkg := s.pkg, ctx := s.core.ctx, core := n, va := va, op := .write e.bytes }
        let v := { u with core := { u.core with remoteStores := s.core.remoteStores ++ [(p, va, e.bytes.length)] } }
        let behind : Prop := p = s.pkg ∧ ∃ f ∈ s.flying, f.core = n ∧ ∃ pa, f.entry.home = .hbm pa
        (s.core.lineOut p va e.bytes.length = true ∨ behind → goes s)
        ∧ (s.core.lineOut p va e.bytes.length = false → ¬behind →
          goes (if p = s.pkg then { v with requests := s.requests ++ [r] } else { v with out := s.out ++ [.request r] })))
    ∧ ((∃ pa, e.home = .hbm pa) → (∃ x ∈ s.core.remoteStores, x.1 = s.pkg) → goes s)
    ∧ ((∃ pa, e.home = .hbm pa) ∧ (∀ x ∈ s.core.remoteStores, x.1 ≠ s.pkg) ∨ (∃ off, e.home = .mmio off)
          ∨ (∃ off, e.home = .vault off) ∧ (s.layer (n / 512)).twoPhase = false →
        goes { u with flying := s.flying ++ [{ core := n, entry := e }] })
    ∧ (∀ off, e.home = .vault off → (s.layer (n / 512)).twoPhase = true →
        let r := 32 * (n / 512) + (Config.draw n s.core.draws).toNat
        goes { u with
          core := { u.core with draws := s.core.draws + 1 }
          flying := s.flying ++ [{ core := n, entry := e
                                   via := if r = n / 16 ∨ r = off / 2 ^ 21 then none else some r }] })

/-- R225-R227, R241, R246, R279, R328: the store of a core that has been longest on its way is performed at its
home and its acknowledgement sets out, by an intermediate router while the home's layer routes in two phases; a
younger one waits, and so does one behind a frozen port, or whose way is not clear, which raises the wake lines
there; the acknowledgement is counted when it is back. A load that waits for its value goes on when it is back. -/
def Sys2Proof.Claims.StoresPerformed : Prop :=
  ∀ (s : State) (k : Nat) (f : Flying), s.flying[k]? = some f → Plain [(f.entry.home, 0)] →
    let h := match f.entry.home with
      | .hbm _ => 384
      | x => x.dest f.core
    let r := 32 * (h / 32) + (Config.draw (12288 + h) s.tick).toNat
    let u : State := { s with
      flying := s.flying.eraseIdx k
      acks := s.acks ++ [{ core := f.core, cls := .home, home := h
                           via := if h < 384 ∧ (s.layer (h / 32)).twoPhase = true ∧ r ≠ h ∧ r ≠ f.core / 16
                                  then some r else none }] }
    let eldest := ∀ g ∈ s.flying.take k, g.core ≠ f.core
    (eldest → s.routeHeld f.route = false → (∀ pa, f.entry.home = .hbm pa → s.portFrozen pa = false) →
      exec (.storePerformAtHome k) s = .next (u.storeHome f.entry.home f.entry.bytes))
    ∧ (eldest → s.routeHeld f.route = true → exec (.storePerformAtHome k) s = .next (s.raiseWakes f.route))
    ∧ (s.routeHeld f.route = false → ∀ pa, f.entry.home = .hbm pa → s.portFrozen pa = true →
      exec (.storePerformAtHome k) s = .next s)
    ∧ (¬eldest → exec (.storePerformAtHome k) s = .next s)
    ∧ (∀ i a, s.acks[i]? = some a →
      (s.routeHeld a.route = false → exec (.acknowledgementReceive i) s = .next { s with acks := s.acks.eraseIdx i })
      ∧ (s.routeHeld a.route = true → exec (.acknowledgementReceive i) s = .next (s.raiseWakes a.route)))
    ∧ exec (.loadValueReturn s.core.num) s = .next { s with core := { s.core with stalled := false } }

/-- The stores on their way out of a core, and their performing at home. The model's own choices in it:
log entries 16, 18 and 32. -/
def Obligations.PostedStores : Prop :=
  Claims.StoresLeave ∧
  Claims.StoresPerformed

namespace Sys2Proof.Claims

/-- The reservations at router y for the circuit of a core and id, and all others. -/
def heldAt (y core id : Nat) (l : List Reservation) : List Reservation :=
  l.filter fun x => x.router == y && x.core == core && x.id == id
def ofOthers (core id : Nat) (l : List Reservation) : List Reservation :=
  l.filter fun x => !(x.core == core && x.id == id)

end Sys2Proof.Claims

/-- R177, R245, R300: a set-up asks hop by hop for the output ports of the route, each of which holds two
reservations, and last for the quad's; a refusal gives back what it has reserved. The reply makes the circuit,
and CSETUP then answers its id. CREL, and 256 idle cycles, send a teardown after the circuit's flits, which frees
one reservation at each router, and whose acknowledgement ends it. -/
def Sys2Proof.Claims.Circuits : Prop :=
  ∀ (s : State) (d : XReg) (a b : XSrc) (i : Fin 2) (c : Circuit) (k : Nat),
    let n := s.core.num
    let dst := (s.src a).toNat
    let left := (s.src b).toNat
    (Usable s (d.val :: (a.regs ++ b.regs)) (a.cells ++ b.cells) →
      (∀ v id, s.core.progress = .asked v (some [id]) →
        exec (.csetup d a b) s = .next (marked s d (BitVec.ofNat 64 id)))
      ∧ (s.core.progress = .none →
        (6144 ≤ dst ∨ (s.layer (dst / 512)).state = .retired → exec (.csetup d a b) s = .next (s.takeTrap .addr (s.src a)))
        ∧ (dst < 6144 → (s.layer (dst / 512)).state ≠ .retired →
          ((∀ j : Fin 2, s.core.circuits[j].isSome) ∨ left = 0 ∨ 4096 < left →
            exec (.csetup d a b) s = .next (marked s d 0))
          ∧ (s.core.circuits[i] = none → (∀ j : Fin 2, j < i → s.core.circuits[j].isSome) → 1 ≤ left → left ≤ 4096 →
            exec (.csetup d a b) s = .next { s with
              core := { s.core with progress := .asked 0 none, stalled := true }
              setups := s.setups ++ [{ core := n, id := i.val + 1, dst := dst, n := left
                                       path := routePath (n / 16) (dst / 16) }] }))))
    ∧ (let down : State := { s with
        core := { s.core with circuits := s.core.circuits.set i.val none }
        teardowns := s.teardowns ++ [{ core := n, dst := c.dst, id := i.val + 1
                                       path := routePath (n / 16) (c.dst / 16) }] }
      s.core.circuits[i] = some c →
      exec (.circuitIdleTimeout n (i.val + 1)) s = .next down
      ∧ (Usable s a.regs a.cells → (s.src a).toNat = i.val + 1 →
        exec (.crel a) s = .next (went down s.core.npc)))
    ∧ (∀ p r t, s.setups[k]? = some p → p.path = r :: t →
      s.hopHeld (routePath (p.core / 16) (p.dst / 16)) (p.path.take 2) = false →
      let gone := s.setups.eraseIdx k
      let next := t.headD (384 + p.dst / 4)
      let held := (s.reservations.filter fun x => x.router == r && x.next == next).length
      let mine := s.reservations ++ [{ router := r, next := next, core := p.core, id := p.id }]
      let answer (grant : Bool) : CircuitReply := {
        core := p.core, id := p.id, dst := p.dst, n := p.n, grant := grant
        path := s.backRoute r p.core, second := (s.backLegs r p.core).2 }
      (held < 2 → t ≠ [] → exec (.circuitSetupHop k) s = .next { s with
          reservations := mine, setups := gone ++ [{ p with path := t }] })
      ∧ (held < 2 → t = [] → (∀ f ∈ s.flits, f.src.map (·.1) ≠ some p.core ∨ f.qdst.toNat % 8192 ≠ p.dst) →
        exec (.circuitSetupHop k) s = .next { s with
          reservations := mine, setups := gone
          replies := s.replies ++ [answer true] })
      ∧ (2 ≤ held → ∃ rs, exec (.circuitSetupHop k) s = .next { s with
          reservations := rs, setups := gone
          replies := s.replies ++ [answer false] }
        ∧ ofOthers p.core p.id rs = ofOthers p.core p.id s.reservations
        ∧ let whole := routePath (p.core / 16) (p.dst / 16)
          ∀ y, heldAt y p.core p.id rs = if y ∈ whole.take (whole.length - p.path.length)
            then (heldAt y p.core p.id s.reservations).dropLast else heldAt y p.core p.id s.reservations))
    ∧ (∀ r, s.replies[k]? = some r → r.core = n → s.routeHeld r.path = false →
      let gone := s.replies.eraseIdx k
      (r.id = i.val + 1 → s.core.progress = .asked 0 none → s.core.iw.toNat / 2 ^ 25 % 128 = 0x70 →
        exec (.circuitReply k) s = .next { s with
          replies := gone
          core := { s.core with
            progress := .asked 0 (some [if r.grant then i.val + 1 else 0])
            circuits := if r.grant then s.core.circuits.set i.val (some { dst := r.dst, left := r.n })
                        else s.core.circuits } })
      ∧ (s.core.progress = .none → exec (.circuitReply k) s = .next { s with
          replies := gone
          teardowns := if r.grant then s.teardowns ++ [{ core := n, dst := r.dst, id := r.id
                                                         path := routePath (n / 16) (r.dst / 16) }]
                       else s.teardowns }))
    ∧ (∀ t, s.teardowns[k]? = some t → t.lost = false →
      (∀ r rest, t.path = r :: rest → s.hopHeld (routePath (t.core / 16) (t.dst / 16)) (t.path.take 2) = false → ∃ rs,
        exec (.circuitTeardownAck k) s = .next { s with
          reservations := rs, teardowns := s.teardowns.set k { t with path := rest } }
        ∧ ofOthers t.core t.id rs = ofOthers t.core t.id s.reservations
        ∧ ∀ y, heldAt y t.core t.id rs = (heldAt y t.core t.id s.reservations).drop (if y = r then 1 else 0))
      ∧ (t.path = [] → s.routeHeld (s.backRoute (t.dst / 16) t.core) = false →
        (∀ f ∈ s.flits, f.src.map (·.1) ≠ some t.core ∨ f.circuit ≠ t.id) →
        exec (.circuitTeardownAck k) s = .next { s with teardowns := s.teardowns.eraseIdx k }))

/-- R246: an idle router is proposed, then off; its wake line cancels the proposal or starts the wake,
and after it the router is on. A busy router is not proposed, and a packet that needs the crossbar of a router that
is not on raises its wake line. -/
def Sys2Proof.Claims.RouterPowerDown : Prop :=
  ∀ (s : State) (r : Nat), r < 384 →
    let now (p : Option RouterPower) := s.routerPower r = p
    let then_ (p : Option RouterPower) : Out := .next { s with
      power := s.power.filter (·.1 != r) ++ (p.map fun x => (r, x)).toList }
    (now none → s.routerIdle r = true → exec (.routerPowerDownPropose r) s = then_ (some .proposed))
    ∧ (s.routerIdle r = false → exec (.routerPowerDownPropose r) s = .next s)
    ∧ (now (some .proposed) → exec (.routerPowerDownCommit r) s = then_ (some .off)
      ∧ exec (.routerWakeLine r) s = then_ none)
    ∧ (now (some .off) → exec (.routerWakeLine r) s = then_ (some .waking)
      ∧ exec (.routerPowerDownCommit r) s = .next s)
    ∧ (now (some .waking) → exec (.routerWakeDone r) s = then_ none)
    ∧ ((∃ c ∈ s.allCores, c.num / 16 = r ∧ (c.task ≠ none ∨ c.sb ≠ [])) ∨ (∃ x ∈ s.reservations, x.router = r)
        ∨ (∃ p ∈ s.setups, r ∈ p.path) ∨ (∃ p ∈ s.replies, r ∈ p.path) ∨ (∃ t ∈ s.teardowns, r ∈ t.path)
        ∨ (∃ f ∈ s.flying, r ∈ f.route) ∨ (∃ f ∈ s.flits, r ∈ s.flitRoute f)
        ∨ (∃ a ∈ s.acks, r ∈ a.route) ∨ (∃ l ∈ s.gateLists ++ s.gateHolds, l.at_ = r)
        ∨ (∃ t ∈ s.terms, t.home = r ∨ r ∈ t.route) ∨ (∃ x ∈ s.reads, x.home = r ∨ r ∈ s.askRoute x.core x.home)
      → s.routerIdle r = false)
    -- a route needs the crossbars at its ends and its turns; a router that it passes vertically serves it all the same
    ∧ (∀ xs a b ys, r ∉ xs → r ∉ ys → a ≠ r → b ≠ r →
        (r ∈ crossed (xs ++ a :: r :: b :: ys) ↔ ¬(a % 32 = r % 32 ∧ b % 32 = r % 32))
        ∧ r ∈ crossed (r :: ys) ∧ r ∈ crossed (xs ++ [r]))
    ∧ (∀ rs, r ∈ crossed rs → s.routerPower r ≠ none → s.routeHeld rs = true)
    ∧ ∀ rs, (s.raiseWakes rs).routerPower r = match decide (r ∈ crossed rs), s.routerPower r with
      | true, some .proposed => none
      | true, some .off => some .waking
      | _, p => p

/-- R243: two-phase routing turns on in a layer in whose window some link carries more than THR times
the mean, stays on, and turns off after four windows without; THR = 0 turns it off. -/
def Sys2Proof.Claims.LoadMonitor : Prop :=
  ∀ (s : State) (l most sum : Nat), l < 12 →
    let y := s.layer l
    let thr := y.lbal.toNat
    let becomes (two : Bool) (calm : Nat) := exec (.loadMonitorWindow l most sum) s
      = .next (s.modLayer l fun y => { y with twoPhase := two, calm := calm })
    -- the largest count is above THR / 16 times the mean of the layer's 320 links
    let hot := 0 < sum ∧ thr * sum < 16 * 320 * most
    (thr = 0 → becomes false 0)
    ∧ (0 < thr → hot → becomes true 0)
    ∧ (0 < thr → ¬hot → y.twoPhase = true →
      (y.calm < 3 → becomes true (y.calm + 1)) ∧ (3 ≤ y.calm → becomes false 0))
    ∧ (0 < thr → ¬hot → y.twoPhase = false → y.calm = 0 → becomes false 0)

/-- Circuits through the mesh, the powering down of a router and the load monitor. The model's own
choices in it: log entries 17, 21, 40 and 95. -/
def Obligations.MeshControl : Prop :=
  Claims.Circuits ∧
  Claims.RouterPowerDown ∧
  Claims.LoadMonitor

/-- R240, R241, R247, R248, R359: a packet that dies of age at a router of its route, or (384) in
the base die, is gone, counted there and recorded with code 0x07 and its class; what its core
waits for is lost to it and is not counted as acknowledged. The 257th replay of a link in one
window is recorded with code 0x05, and nothing crosses a link that fails every replay. The
model's own choices in it: log entries 31, 95 and 100. -/
def Obligations.PacketsLost : Prop :=
  ∀ (s : State) (k r port y : Nat),
    let dies (kind : LostKind) (u : State) (cls src dst : Nat) : Prop :=
      let n := ((s.aged.find? (·.1 == y)).map (·.2)).getD 0
      exec (.packetAgeDiscard { kind := kind, k := k, at_ := y }) s
        = .next ({ u with aged := (y, n + 1) :: s.aged.filter (·.1 != y) }.postError
          { code := 0x07, layer := if y < 384 then y / 32 else 12, detail := cls + 2 ^ 16 * src + 2 ^ 32 * dst })
    let loses (a : Ack) (u : State) : State := { u with lost := s.lost ++ [a] }
    -- the place is a router of the route, or the base die, where the route ends or begins there
    let meets (route : List Nat) : Prop := y < 384 ∧ y ∈ route ∨ y = 384 ∧ ∃ q ∈ route, 384 ≤ q
    (∀ f, s.flying[k]? = some f → meets f.route →
      dies .store (loses { core := f.core, cls := .home } { s with flying := s.flying.eraseIdx k })
        (if y ∉ f.parts.1 ∧ y ∈ f.parts.2 then 1 else 0) f.core (16 * f.entry.home.dest f.core))
    ∧ (∀ a, s.acks[k]? = some a → meets a.route →
      dies .ack (loses a { s with acks := s.acks.eraseIdx k }) (if y ∉ a.parts.1 ∧ y ∈ a.parts.2 then 3 else 2)
        (if a.home < 384 then 16 * a.home else 0) a.core)
    ∧ (∀ f n t, s.flits[k]? = some f → f.src = some (n, t) → meets (s.flitRoute f) →
      let d := f.qdst.toNat % 8192
      let gone := { s with flits := s.flits.eraseIdx k }
      (f.bounce = false → dies .flit gone (if f.circuit = 0 then 4 else 6) n d)
      ∧ (f.bounce = true → dies .flit gone (if y ∈ f.second s.pkg then 3 else 2) d n))
    ∧ (∀ p, s.setups[k]? = some p → meets (p.path.take 1) →
      dies .setup (loses { core := p.core, cls := .check } { s with setups := s.setups.eraseIdx k }) 4 p.core p.dst)
    ∧ (∀ p, s.replies[k]? = some p → meets p.path →
      dies .reply (loses { core := p.core, cls := .check } { s with replies := s.replies.eraseIdx k })
        (if y ∈ p.second.drop 1 then 3 else 2) p.dst p.core)
    ∧ (∀ t, s.teardowns[k]? = some t → t.lost = false → meets (t.path.take 1) →
      dies .teardown { s with teardowns := s.teardowns.set k { t with lost := true } } 6 t.core t.dst)
    ∧ (∀ f, s.flying[k]? = some f → ¬meets f.route →
      exec (.packetAgeDiscard { kind := .store, k := k, at_ := y }) s = .next s)
    ∧ (let w := (Config.cycle s.tick).toNat / 2 ^ 20
      ∀ m, port < 64 → s.replays.find? (fun x => x.1 == r && x.2.1 == port && x.2.2.1 == w) = some (r, port, w, m) →
        let u := { s with replays := (r, port, w, m + 1) :: s.replays.filter fun x => !(x.1 == r && x.2.1 == port) }
        (m + 1 ≠ 257 → exec (.flitCrcReplay r port) s = .next u)
        ∧ (m + 1 = 257 → exec (.flitCrcReplay r port) s
            = .next (u.postError { code := 0x05, layer := r / 32, detail := r + 2 ^ 16 * port })))
    ∧ (port < 64 → ∃ u, exec (.flitCrcReplay r (64 + port)) s = .next u
      ∧ ∀ xs q ys, portTo r q = port → u.routeHeld (xs ++ r :: q :: ys) = true)

/-! ### Between packages, engines and translation (R104, R122, R190, R310-R323, R329, R350-R352) -/

/-- R119, R309, R310, R313, R314, R318, R322, R328, R332, R356: a request, of this package or of another, is
translated at its port under the address space that the import table names; granted, it is performed and its
outcome goes back, to its core or by the fabric; denied, PROT goes back for the first byte denied, a malformed
walk leaves a record, and a page that is not resident makes a fault record and XLAT. One without an entry in the
table is denied whole. An earlier request of the same core to the same line goes first; one to a page that
moves, or behind a frozen port, waits. -/
def Sys2Proof.Claims.RemoteRequests : Prop :=
  ∀ (s : State) (k : Nat) (r : Request), s.requests[k]? = some r → r.bad = [] → s.poison = [] →
    s.routeHeld (if r.srcPkg = s.pkg then downRoute r.core else []) = false →
    let port := s.portUnit r.srcPkg
    let u := { s with requests := s.requests.eraseIdx k }
    let goes (v : State) : Prop := exec (.remoteRequestReceive k) s = .next v
    let kind : RespKind := match r.part with
      | none => r.op.resp
      | some _ => if r.op.writes then .wrote else .part
    let answers (v : State) (x : Remote) : Prop :=
      let p : Response := { core := r.core, slot := r.slot, pkg := s.pkg, op := kind, res := x, part := r.part
                            key := r.key, encl := r.encl, store := if r.op.writes then some r else none }
      goes (if r.srcPkg = s.pkg then { v with responses := v.responses ++ [p] }
        else { v with out := v.out ++ [.response r.srcPkg p] })
    ((∃ q ∈ s.requests.take k, r.clashes q = true) → goes s)
    ∧ ((∀ q ∈ s.requests.take k, r.clashes q = false) →
      (s.importAsid r.srcPkg r.ctx = none → r.op ≠ .unpin → answers u (.trap .prot 0))
      ∧ ∀ asid, s.importAsid r.srcPkg r.ctx = some asid →
        (r.op = .unpin → goes (u.addPin asid (r.va / 2 ^ 21) false))
        ∧ (r.op ≠ .unpin →
          (∀ off, s.incoming port asid r.op.kind r.va r.op.size = .denied off → answers u (.trap .prot off))
          ∧ (∀ off vpn, s.incoming port asid r.op.kind r.va r.op.size = .malformed off vpn →
            answers (u.malformedBy (3, port - 384) none asid vpn) (.trap .prot off))
          ∧ (∀ off vpn, s.incoming port asid r.op.kind r.va r.op.size = .absent off vpn →
            answers (u.fault asid vpn r.ctx r.op.kind.bit (some (r.srcPkg, r.ctx))) .xlat)
          ∧ ∀ segs, s.incoming port asid r.op.kind r.va r.op.size = .ok segs →
            (s.incomingWaits r.op asid (pageNums r.va r.op.size) segs = true → goes s)
            ∧ (s.incomingWaits r.op asid (pageNums r.va r.op.size) segs = false →
              -- A, and D for a write, are set where the access took a walk
              let v := (pageNums r.va r.op.size).foldl (fun v p => v.passed (some port) r.op.writes asid p) u
              let bytes := segs.flatMap fun g => v.hbm.readBytes g.1 g.2
              (∀ n, r.op = .read n → answers (v.armWatch r segs) (.data (ofBytes bytes)))
              ∧ (∀ n, r.op = .fetch n → answers v (.data (ofBytes bytes)))
              ∧ (∀ bs, r.op = .write bs → answers (v.storeSegs (segs.map fun g => (.hbm g.1, g.2)) bs) (.data 0))
              ∧ (∀ o n x y pa, r.op = .amo o n x y → segs = [(pa, n)] →
                let z := v.amoHome (.hbm pa) o n x y
                answers z.2 (.data z.1))
              ∧ ∀ n kd p, r.op = .check n kd p →
                answers (if p then v.addPin asid (r.va / 2 ^ 21) true else v) (.data 0))))

/-- R119: the read of a SPINW arms its watch of the line where the read is performed, and no other does. -/
def Sys2Proof.Claims.WatchArmed : Prop :=
  ∀ (s : State) (r : Request) (i : Fin 8) (q : RSlot) (segs : List (Nat × Nat)), r.core = s.core.num →
    s.core.memberOf = none → r.slot = i.val → s.core.slots[i] = some q →
    (∀ d e pa n t, q.use = .spinw d e → segs = (pa, n) :: t → r.srcPkg = s.pkg → r.part = none →
      s.armWatch r segs = { s with core := { s.core with watch := some (.hbm (pa / 64 * 64), false) } })
    ∧ ((∀ d e, q.use ≠ .spinw d e) → s.armWatch r segs = s)

namespace Sys2Proof.Claims

/-- R352: what a fault of a later remote load puts back has register d as the one before it has written it. -/
def kept (d : XReg) (rest : List (Nat × Fin 8)) (t : State) : State :=
  { t with core := { t.core with slots := Vector.ofFn fun j =>
      if (t.core.num, j) ∈ rest then t.core.slots[j].map fun k => { k with x := k.x.set d.val t.core.x[d] }
      else t.core.slots[j] } }

end Sys2Proof.Claims

/-- R109, R112, R119, R226, R313, R318, R350-R352: a response takes its reserved slot, or frees one whose load
was aborted. An acknowledgement is counted, and one that denies the store leaves PROT for the next instruction
boundary. The oldest remote load is over once its response is there: in program order it writes its register,
which a fault of a later load leaves written, an atomic begins a region, a GLD writes local memory behind the
core's older stores to its bytes, SPINW is done or parks, a denied one traps at its instruction; its slot is
free. -/
def Sys2Proof.Claims.RemoteResponses : Prop :=
  ∀ (s : State) (k : Nat) (r : Response) (i : Fin 8) (q : RSlot) (rest : List (Nat × Fin 8)) (d : XReg) (v : Nat),
    (s.responses[k]? = some r → r.core = s.core.num → s.routeHeld (upRoute r.core) = false →
      let u := { s with responses := s.responses.eraseIdx k }
      let becomes (c : Core) : Out := .next { u with core := c }
      (r.op = .slot → r.slot = i.val → s.core.slots[i] = some q → exec (.remoteResponseArrival k) s = becomes
        { s.core with slots := s.core.slots.set i.val (if q.dead then none else some { q with resp := some r.res }) })
      ∧ (∀ w, r.op = .store → r.store = some w →
        let counted := s.core.remoteStores.eraseP fun x => x.1 == w.pkg && x.2.1 == w.va
        (∀ x, r.res = .data x → exec (.remoteResponseArrival k) s
          = .next (State.notice { u with core := { s.core with remoteStores := counted } } (.global w.pkg w.va) w.op.size))
        ∧ ∀ c off, r.res = .trap c off → s.core.owed = none → exec (.remoteResponseArrival k) s = becomes
            { s.core with remoteStores := counted
                          owed := some { cause := c, tval := BitVec.ofNat 64 (2 ^ 63 + w.pkg * 2 ^ 53 + w.va + off) } }))
    ∧ (s.core.rorder = (s.core.num, i) :: rest → s.core.slots[i] = some q →
      let freed : State := { s with core := { s.core with slots := s.core.slots.set i.val none, rorder := rest } }
      let ended : State := { freed with core := { freed.core with rwait := false, stalled := false } }
      let sets (x : Word) : State := { ended with
        core := { ended.core with x := if d.val = 0 then s.core.x else s.core.x.set d.val x }
        poison := if d.val = 0 then s.poison else cleaned s (cellX d.val) }
      let goes (t : State) : Prop := exec (.remoteLoadWrite s.core.num) s = .next t
      (q.resp = none → goes s)
      ∧ (q.resp = some (.data v) → s.core.ss = false → (∀ r ∈ rest, r.1 = s.core.num) →
        (∀ a, q.use = .ld d .b64 a → goes (kept d rest (sets (BitVec.ofNat 64 v))))
        ∧ (∀ w un, q.use = .amo d w un → goes (kept d rest (sets (if un then BitVec.ofNat 64 v
            else BitVec.ofInt 64 (if w then (BitVec.ofNat 64 v).toInt else (BitVec.ofNat 32 v).toInt)))).newRegion)
        ∧ (∀ a n, q.use = .gld a n →
          (s.olderStore q = false → goes (ended.storeHome (.loc s.core.num (a % 2 ^ 14)) (bytesOf n v)))
          ∧ (s.olderStore q = true → goes s))
        ∧ (∀ e, q.use = .spinw d e → s.core.frozen = false → s.core.woken = false →
          let w : Word := BitVec.ofNat 64 v
          (w ≠ s.rx d → goes (wrote { ended with core := { ended.core with watch := none } } d w s.core.npc))
          ∧ (w = s.rx d → ∀ h, s.core.watch = some h → goes (parked ended (.spinw e)))))
      ∧ (∀ c off, q.resp = some (.trap c off) → rest = [] → s.core.frozen = false → s.olderStore q = false →
        goes (State.takeTrap { freed with core := { freed.core with
          x := q.x, a := q.a, pc := q.pc, npc := q.npc, rwait := false, stalled := false } }
          c (q.addr + BitVec.ofNat 64 off))))

/-- The requests and the responses between packages. The model's own choices in it: log entries 18, 19
and 20. -/
def Obligations.RemotePackets : Prop :=
  Claims.RemoteRequests ∧
  Claims.WatchArmed ∧
  Claims.RemoteResponses

/-- R122, R241, R316: a copy engine moves one part of at most 16 bytes of a COPY whose core may
go on and whose ways are clear; the bytes read at the source stand at the destination, and the
part is done; the entry is free once every part is written, and not before. A denied access ends
the copy, and the task takes PROT at an instruction boundary; a page that is not resident is
recorded, and the task's region restarts. The model's own choices in it: log entries 39, 42, 43,
70 and 93. -/
def Obligations.CopyEngine : Prop :=
  ∀ (s : State) (e : Fin 16) (p : Nat) (k : LockEntry) (src dst : Nat), s.core.locks[e] = some k → k.kind = .copy →
    let n := s.core.num
    let m := min 16 (k.len - 16 * p)
    n < 6144 →
    (s.engineRuns n = true → s.engineOrdered n = true → s.poison = [] →
      16 * p < k.len → p ∉ k.parts → p ∉ k.asked → p ∉ k.gone →
      k.src = BitVec.ofNat 64 (2 ^ 60 + src) → k.dst = BitVec.ofNat 64 (2 ^ 60 + dst) → k.len ≤ 2 ^ 24 →
      s.reach n (s.ctxAsid s.core.ctx) .load (partAt k.src p) m = .ok [(.vault (src + 16 * p), m)] →
      s.reach n (s.ctxAsid s.core.ctx) .store (partAt k.dst p) m = .ok [(.vault (dst + 16 * p), m)] →
      ((s.layer (n / 512)).mq.filter fun m => !m.cont).length ≤ 128 →
      (∀ w ∈ s.engineWays n (partAt k.src p) ++ s.engineWays n (partAt k.dst p), s.routeHeld w = false) →
      let u := s.storeHome (.vault (dst + 16 * p)) ((List.range m).map fun i => s.vault.read (src + 16 * p + i))
      exec (.copyEnginePart n e.val p) s = .next { u with core := { u.core with
        locks := u.core.locks.set e.val (some { k with parts := p :: k.parts, asked := k.asked.filter (· != p) }) } })
    ∧ (s.engineRuns n = true → s.engineOrdered n = true → 16 * p < k.len → p ∉ k.parts → p ∉ k.asked →
      p ∉ k.gone → s.lineFree n (partAt k.src p) m = true → s.lineFree n (partAt k.dst p) m = true →
      (∀ w ∈ s.engineWays n (partAt k.src p) ++ s.engineWays n (partAt k.dst p), s.routeHeld w = false) →
      (∀ off, s.reach n (s.ctxAsid s.core.ctx) .load (partAt k.src p) m = .denied off → s.core.owed = none →
        exec (.copyEnginePart n e.val p) s = .next { s with core := { s.core with
          locks := s.core.locks.set e.val none
          owed := some { cause := .prot, tval := partAt k.src p + BitVec.ofNat 64 off } } })
      ∧ (∀ vpn, s.reach n (s.ctxAsid s.core.ctx) .load (partAt k.src p) m = .absent vpn → s.core.committed = false →
        s.terms = [] → ∃ u, exec (.copyEnginePart n e.val p) s = .next u ∧ u.core.tstate = .parked
          ∧ u.core.wait = .translation (vpn * 2 ^ 21) 4 ∧ u.core.pc = s.core.snap.pc ∧ u.core.locks = s.core.locks
          ∧ u.faults = (s.fault (s.ctxAsid s.core.ctx) vpn s.core.ctx 4 none).faults))
    ∧ (s.engineRuns n = false → exec (.copyEnginePart n e.val p) s = .next s)
    ∧ (s.copyFinished n k = true → exec (.copyEngineComplete n e.val) s = .next { s with
        core := { s.core with locks := s.core.locks.set e.val none } })
    ∧ (k.parts.length ≠ (k.len + 15) / 16 → exec (.copyEngineComplete n e.val) s = .next s)

/-- R309, R310, R314, R315, R317, R318, R247: a walk fills the router's translation cache, of 128 entries, with
A, and D for a write, set in the entry; one that is malformed leaves a record and raises PROT; a page that is not
resident is recorded and the region restarts, parked. A walk whose packet is lost answers nothing. An access away
from a core sets the bits where its unit takes a walk, and changes nothing where the unit's cache answers; one of a
unit without a cache sets D alone. -/
def Sys2Proof.Claims.Walks : Prop :=
  ∀ (s : State) (w : Walk), s.walks = [w] → w.core = s.core.num → s.mig = none → w.lost = false →
    s.routeHeld (downRoute w.core) = false →
    let u := { s with walks := [] }
    let unit := s.core.num / 16
    (∀ t f, s.walk w.asid w.vpn = .hit t f →
      let d := w.kind.writes && permsGrant (ptePerms (s.pte t f)) w.kind
      let e := setBits (s.pte t f) d
      let entry : Tlb := { unit := unit, asid := w.asid, vpn := w.vpn, pa := frameBase t f
                           perms := ptePerms e, dirty := pteD e, mig := false }
      let rest := s.tlb.filter fun k => !(k.unit == unit && k.asid == w.asid && k.vpn == w.vpn)
      ∃ l, exec (.translationWalk 0) s = .next { u.setPte t f e with tlb := entry :: l }
        ∧ l.Sublist rest ∧ (l.filter (·.unit == unit)).length ≤ 127 ∧ (∀ k ∈ rest, k.unit ≠ unit → k ∈ l)
        ∧ ((rest.filter (·.unit == unit)).length ≤ 127 → l = rest))
    ∧ (let told := u.postError { code := 0x08, addr := w.vpn * 2 ^ 21, detail := w.asid + 2 ^ 32 * w.vpn }
      s.walk w.asid w.vpn = .malformed → (∀ t f, told.walkTables w.asid w.vpn ≠ .hit t f) → s.core.frame.cap = false →
      exec (.translationWalk 0) s = .next (told.takeTrap .prot (BitVec.ofNat 64 w.va)))
    ∧ (s.walk w.asid w.vpn = .notResident → exec (.translationWalk 0) s
        = .next ((u.fault w.asid w.vpn s.core.ctx w.kind.bit none).restart w.va w.kind.bit))
    ∧ exec (.translationWalk 0) { s with walks := [{ w with lost := true }] }
        = .next { s with walks := [{ w with lost := true }] }
    ∧ ∀ (unit : Nat) (d : Bool) (asid vpn t f : Nat),
      (s.cached (some unit) asid vpn d = none → s.walk asid vpn = .hit t f → t < 16 →
        (s.passed (some unit) d asid vpn).pte t f = Nat.lor (s.pte t f) (2 ^ 120 + if d then 2 ^ 119 else 0))
      ∧ (s.cached (some unit) asid vpn d ≠ none → s.passed (some unit) d asid vpn = s)
      ∧ (s.walk asid vpn = .hit t f → t < 16 →
        (s.passed none true asid vpn).pte t f = Nat.lor (s.pte t f) (2 ^ 119))
      ∧ s.passed none false asid vpn = s

/-- R317, R318: what the manager's writes and a retry do with the tasks that wait: a task that waits for
another package's page runs again, and its stores that met no page are sent again and are to be acknowledged. -/
def Sys2Proof.Claims.Resolving : Prop :=
  ∀ (s : State) (i asid vpn v t : Nat),
    (s.faults.find? (·.1 == i % 2048) = some (i % 2048, asid, vpn) →
      (∀ a f, s.walk asid vpn = .hit a f → exec (.resolveWrite i) s
        = .next ((s.waitersOf asid vpn).foldl State.wake { s with faults := s.faults.filter (·.1 != i % 2048) }))
      ∧ (s.walk asid vpn = .notResident → exec (.resolveWrite i) s = .next s))
    ∧ (s.parkedTasks.all (fun w => match w.2 with | .translation _ _ => false | _ => true) = true →
      exec (.fqhWrite v) s = .next { s with mmio := s.mmio.writeN 0x0008_0058 8 (v % 2048) })
    ∧ (∀ va k, s.waitOf t = .remotePage va → s.core.task = some k → k.id = t → s.others = [] → s.records = [] →
      let line (q : Request) : Nat × Nat × Nat := (q.pkg, q.va, match q.op with
        | .write bs => bs.length
        | _ => 0)
      let u := { s with core := { s.core with
        unsent := [], remoteStores := s.core.remoteStores ++ s.core.unsent.map line } }
      exec (.remoteXlatRetry t) s = .next (State.wake { u with
        requests := s.requests ++ s.core.unsent.filter (·.pkg == s.pkg)
        out := s.out ++ (s.core.unsent.filter (·.pkg != s.pkg)).map .request } t))

/-- Page walks and the resolving of a global address. The model's own choice in it: log entry 39. -/
def Obligations.Translation : Prop :=
  Claims.Walks ∧
  Claims.Resolving

/-- R64, R190, R319: in the handler the members of XINV remove the translations they name, of one page,
of one address space, or all, and mark the stores made through them; XINV.SYNC waits until no such
store is on its way, and no walk begun before them; each raises PRIV outside the handler. -/
def Sys2Proof.Claims.Shootdown : Prop :=
  ∀ (s : State) (a b : XSrc),
    let asid := (s.src b).toNat % 2 ^ 16
    let vpn := (s.src a).toNat / 2 ^ 21 % 2 ^ 32
    let done (u : State) : Out := .next (went u s.core.npc).newRegion
    let priv : Out := .next (s.takeTrap .priv 0)
    let removes (i : Instr) (f : Nat → Nat → Bool) : Prop := ∃ u, exec i s = done u
      ∧ (∀ k, k ∈ u.tlb ↔ k ∈ s.tlb ∧ f k.asid k.vpn = false)
      ∧ (u.core = { s.core with sb := u.core.sb } ∧ { u with core := s.core, others := s.others, flying := s.flying
                                                             tlb := s.tlb, walks := s.walks } = s)
      ∧ u.walks = s.walks.map (fun w => { w with old := true })
      ∧ ∀ c ∈ u.allCores, ∀ x ∈ c.sb, ∀ pa, x.home = .hbm pa → f x.asid (x.addr.toNat / 2 ^ 21 % 2 ^ 32) = true →
          x.stale = true
    (s.core.p = false → (exec (.xinvPage a b) s = priv ∧ exec (.xinvAsid b) s = priv
      ∧ exec .xinvAll s = priv ∧ exec .xinvSync s = priv))
    ∧ (s.core.p = true →
      (Usable s (a.regs ++ b.regs) (a.cells ++ b.cells) → removes (.xinvPage a b) fun x v => x == asid && v == vpn)
      ∧ (Usable s b.regs b.cells → removes (.xinvAsid b) fun x _ => x == asid)
      ∧ removes .xinvAll (fun _ _ => true)
      ∧ ((∀ c ∈ s.allCores, ∀ x ∈ c.sb, x.stale = false) → (∀ x ∈ s.flying, x.entry.stale = false) →
        (∀ w ∈ s.walks, w.old = false) → exec .xinvSync s = done s)
      ∧ ((∃ w ∈ s.walks, w.old = true) →
        exec .xinvSync s = .next { s with core := { s.core with stalled := true } })
      ∧ (∀ x ∈ s.core.sb, ∀ pa, x.home = .hbm pa → x.stale = true →
        exec .xinvSync s = .next { s with core := { s.core with stalled := true } }))

/-- R321, R322: a migration is started on a valid frame towards a free one that nothing links, waits for
the pins, the shootdown and the stores in turn, and commits in one step, unless a frozen port stands before
either frame; an abort acts before the pins are gone. MIGST names each state. -/
def Sys2Proof.Claims.Migrations : Prop :=
  ∀ (s : State) (src dst : Nat),
    let st := src / 2 ^ 20 % 16
    let sf := src % 2 ^ 20
    let dt := dst / 2 ^ 20 % 16
    let df := dst % 2 ^ 20
    (s.mig = none → s.frameOk st sf = true → s.frameOk dt df = true → pteV (s.pte st sf) = true →
      pteV (s.pte dt df) = false → s.linked dt df = false →
      exec (.migrationStart dst src) s = .next { s.markMig st sf true with
        migst := 1, mig := some { srcT := st, srcF := sf, dstT := dt, dstF := df, asid := pteAsid (s.pte st sf)
                                  vpn := pteVpn (s.pte st sf), st := 1 } })
    ∧ (s.mig ≠ none ∨ s.frameOk st sf = false ∨ s.frameOk dt df = false ∨ pteV (s.pte st sf) = false
        ∨ pteV (s.pte dt df) = true → exec (.migrationStart dst src) s = .next { s with migst := 6 })
    ∧ ∀ m, s.mig = some m →
      let page : Nat → Nat → Bool := fun a v => a == m.asid && v == m.vpn
      (m.st = 1 → exec .migrationAbort s = .next { s.markMig m.srcT m.srcF false with migst := 5, mig := none })
      ∧ (m.st ≠ 1 → exec .migrationAbort s = .next s)
      ∧ (m.st = 1 → ptePins (s.pte m.srcT m.srcF) = 0 → exec .migrationPinsClear s
          = .next { s.xinv page with migst := 2, mig := some { m with st := 2 } })
      ∧ (ptePins (s.pte m.srcT m.srcF) ≠ 0 → exec .migrationPinsClear s = .next s)
      ∧ (m.st = 2 → s.drained page = true → exec .migrationDrainDone s
          = .next { s with migst := 3, mig := some { m with st := 3 } })
      ∧ (m.st = 3 → s.portFrozen (frameBase m.srcT m.srcF) = true ∨ s.portFrozen (frameBase m.dstT m.dstF) = true →
        exec .migrationCommit s = .next s)
      ∧ (m.st = 3 → s.portFrozen (frameBase m.srcT m.srcF) = false → s.portFrozen (frameBase m.dstT m.dstF) = false →
        exec .migrationCommit s = .next
          { ((s.copyFrame (frameBase m.srcT m.srcF) (frameBase m.dstT m.dstF)).commitMig m).xinv page with
            migst := 4, mig := none })

/-- The shootdown of a page's translations and the migration of a page. The model's own choice in it:
log entry 20. -/
def Obligations.PageChanges : Prop :=
  Claims.Shootdown ∧
  Claims.Migrations

/-! ### The mirror, layers and stopping contexts (R191, R193, R231, R249-R256, R299-R304) -/

/-- R249-R251: a slot takes from the head of its owner's queue the most pieces that lie in at most 12
chunks; an owner that may not send, a layer that is not AWAKE, or has nothing to send, leaves it unused; slots
pass in rising order. -/
def Sys2Proof.Claims.MirrorSlots : Prop :=
  ∀ (s : State) (k : Nat), k < 64 →
    let src := (s.frameMap.toList.getD k 15).toNat
    let q := s.mirrorQueue src
    let chunks (n : Nat) := ((q.take n).map (·.off / 16)).eraseDups.length
    (s.slotNow < k → s.sends src = true → q ≠ [] →
      ∃ n, 0 < n ∧ n ≤ q.length ∧ chunks n ≤ 12 ∧ (n < q.length → 12 < chunks (n + 1))
        ∧ exec (.mirrorSlotSend k) s = .next { s.setMirrorQueue src (q.drop n) with
            slotNow := k, sent := s.sent ++ [{ slot := k, src := src, stores := q.take n }] })
    ∧ (s.slotNow < k → s.sends src = false ∨ q = [] → exec (.mirrorSlotSend k) s = .next { s with slotNow := k })
    ∧ (k ≤ s.slotNow → exec (.mirrorSlotSend k) s = .next s)
    ∧ (s.sends src = true ↔ src = 12 ∨ (s.layer src).state = .awake)

/-- R231, R253: with the next frame every copy that receives takes the pieces of the good slots in slot
and record order; the pieces of a bad slot go back to the head of their sender's queue, and its coil channel is
evidence of a failing part. -/
def Sys2Proof.Claims.MirrorFrames : Prop :=
  ∀ (s : State),
    let pieces := (s.sent.map (·.stores)).flatten
    let applied (m : Memory) : Memory := pieces.foldl (fun m p => m.writeBytes p.off p.bytes) m
    (∃ u, exec (.mirrorFrameApply 0) s = .next u ∧ u.mirror = applied s.mirror
      ∧ (∀ l : Fin 12, u.layers[l].mirror
          = if s.layers[l].receives then applied s.layers[l].mirror else s.layers[l].mirror)
      ∧ u.sent = [] ∧ u.frame = s.frame + 1 ∧ u.slotNow = 0 ∧ u.frameMap = s.slotmap)
    ∧ ∀ x bad, s.sent = [x] → x.src < 12 → x.stores ≠ [] → bad.getLsbD x.slot = true →
      exec (.mirrorFrameApply bad) s = .next { s.modLayer x.src fun l => { l with mq := x.stores ++ l.mq } with
        sent := [], frame := s.frame + 1, slotNow := 0, frameMap := s.slotmap
        failing := (s.failing ++ [Place.coil x.src x.slot]).eraseDups }

/-- The mirror's slots and what a frame does with them. The model's own choice in it: log entry 29. -/
def Obligations.Mirrors : Prop :=
  Claims.MirrorSlots ∧
  Claims.MirrorFrames

namespace Sys2Proof.Claims

/-- R193: layer l has come to a state: an LCTL that waits for that has what it asked for, even if the layer
goes on to another state before the LCTL is issued again. -/
def reached (s : State) (l : Nat) (goal : LState) : State :=
  let told (c : Core) : Core :=
    if c.progress = .layerTo l goal false then { c with progress := .layerTo l goal true } else c
  { s with core := told s.core, others := s.others.map told }

end Sys2Proof.Claims

/-- R193, R252, R254-R256, R356, R359: the commands of slot 0 act when they are sent, oldest first, and tell whoever
asked for the state that the layer comes to; a layer that sleeps loses its copy, and one that wakes from it, or
whose receiver has lost a slot-0 record, takes the base die's copy chunk by chunk from the start, but for the
bytes written meanwhile, with its poison, as long as a vertical path is left to it. -/
def Sys2Proof.Claims.LayerCommands : Prop :=
  ∀ (s : State) (l : Nat) (t : List Command), l < 12 →
    let y := s.layer l
    let u := { s with cmds := t }
    let gone : State := { u with poison := s.poison.filter fun p => match p with
      | .mirrorCopy k _ => k != l
      | _ => true }
    (s.cmds = .wake l :: t →
      (y.state = .drowsy → exec (.layerWakeCommand l) s
        = .next (reached (u.modLayer l fun y => { y with state := .awake, closed := false }) l .awake))
      ∧ (y.state = .awake → exec (.layerWakeCommand l) s = .next (reached u l .awake))
      ∧ (y.state = .asleep → y.waking = none →
        exec (.layerWakeCommand l) s = .next (u.modLayer l fun y => { y with waking := some {} })))
    ∧ (s.cmds = .drowsy l :: t → s.emptied l = true → y.state = .awake → exec (.layerDrowsyCommand l) s
        = .next (reached (u.modLayer l fun y => { y with state := .drowsy }) l .drowsy))
    ∧ (s.cmds = .sleep l :: t → s.emptied l = true → y.state = .awake ∨ y.state = .drowsy →
      exec (.layerSleepCommand l) s = .next (reached (gone.modLayer l fun y => { y with
        state := .asleep, mirror := [], waking := none }) l .asleep))
    ∧ (s.emptied l = false → exec (.layerDrowsyCommand l) s = .next s ∧ exec (.layerSleepCommand l) s = .next s)
    ∧ (s.cmds = .retire l :: t → y.state = .asleep → s.wells = [] → ∃ v : State,
      exec (.layerRetireCommand l) s = .next (reached (v.postError { code := 0x13, layer := l, detail := l }) l .retired)
        ∧ (v.layer l).state = .retired ∧ v.cmds = t
        ∧ (∀ k ∈ v.records, k ∈ s.records ∧ k.image.num / 512 ≠ l)
        ∧ (∀ k ∈ s.records, k.image.num / 512 = l → ∀ q, k.image.task = some q → q.launch ∈ v.orphans)
        ∧ ∀ k : Fin 64, v.slotmap[k] = if s.slotmap[k].toNat = l then 15 else s.slotmap[k])
    ∧ ((y.state = .awake ∨ y.state = .drowsy ∨ y.waking ≠ none) → exec (.slot0RecordLost l) s
      = .next (({ s with failing := (s.failing ++ [Place.coil 12 0]).eraseDups }.modLayer l fun y => { y with
          waking := some {} }).postError { code := 0x06, layer := l, detail := s.frame.toNat }))
    ∧ (y.state = .asleep → y.waking = none → exec (.slot0RecordLost l) s = .next s)
    ∧ (s.columnOpen l = false → ∀ n, exec (.wakeChunkMerge l n) s = .next s)
    ∧ ∀ w, y.waking = some w → w.next < 2 ^ 18 → Memory.wf y.mirror = true → s.columnOpen l = true →
      ∃ (z : Layer) (ps : List Place),
      let v : State := { s.modLayer l fun _ => z with poison := ps }
      exec (.wakeChunkMerge l w.next) s
          = .next (if w.next + 1 = 2 ^ 18 ∧ z.state = .awake then reached v l .awake else v)
        ∧ (∀ i < 16, z.mirror.read (16 * w.next + i) = if 16 * w.next + i ∈ w.live
            then y.mirror.read (16 * w.next + i) else s.mirror.read (16 * w.next + i))
        ∧ (∀ a, a / 16 ≠ w.next → z.mirror.read a = y.mirror.read a)
        ∧ (w.next + 1 < 2 ^ 18 → z.waking = some { w with next := w.next + 1 } ∧ z.state = y.state)
        ∧ (w.next + 1 = 2 ^ 18 → z.waking = none ∧ z.state = if y.state = .asleep then .awake else y.state)
        ∧ (.mirrorCopy l (16 * w.next) ∈ ps ↔
            (.mirrorCopy l (16 * w.next) ∈ s.poison ∧ ∃ i < 16, 16 * w.next + i ∈ w.live)
            ∨ (.mirrorCopy 12 (16 * w.next) ∈ s.poison ∧ ∃ i < 16, 16 * w.next + i ∉ w.live))
        ∧ ∀ p, p ≠ .mirrorCopy l (16 * w.next) → (p ∈ ps ↔ p ∈ s.poison)

/-- R64, R193: LCTL asks for a transition and waits until it has been made, then answers 1; a layer already
there answers 1 at once, though it may be taking its copy of the mirror again; a transition that the layer's
state does not allow, a layer that still holds tasks, or the own layer, answers 0. -/
def Sys2Proof.Claims.LayerControl : Prop :=
  ∀ (s : State) (d : XReg) (a : XSrc), Usable s (d.val :: a.regs) a.cells →
    let l := (s.src a).toNat
    let y := s.layer l
    let members : List (Instr × LState × Command × List LState × Bool) := [
      (.lctlSleep d a, .asleep, .sleep l, [.awake, .drowsy], true),
      (.lctlDrowsy d a, .drowsy, .drowsy l, [.awake], true),
      (.lctlWake d a, .awake, .wake l, [.drowsy, .asleep], false),
      (.lctlRetire d a, .retired, .retire l, [.asleep], false)]
    ∀ m ∈ members,
      let goal := m.2.1
      let busy := m.2.2.2.2 = true ∧ (s.layerBusy l = true ∨ s.core.num / 512 = l)
      (s.core.p = false → exec m.1 s = .next (s.takeTrap .priv 0))
      ∧ (s.core.p = true →
        (12 ≤ l → exec m.1 s = .next (marked s d 0))
        ∧ (l < 12 → y.state = goal ∨ s.core.progress = .layerTo l goal true → exec m.1 s = .next (marked s d 1))
        ∧ (l < 12 → y.state ≠ goal → s.core.progress = .none →
          (y.state ∉ m.2.2.2.1 ∨ busy → exec m.1 s = .next (marked s d 0))
          ∧ (y.state ∈ m.2.2.2.1 → ¬busy → ∃ u, exec m.1 s = .next u ∧ u.cmds = s.cmds ++ [m.2.2.1]
              ∧ u.core = { s.core with progress := .layerTo l goal false, stalled := true }
              ∧ (m.2.2.2.2 = true → (u.layer l).closed = true)))
        ∧ (l < 12 → y.state ≠ goal → s.core.progress = .layerTo l goal false →
          exec m.1 s = .next { s with core := { s.core with stalled := true } }))

/-- The power commands of a layer and what each does. The model's own choice in it: log entry 113. -/
def Obligations.LayerPower : Prop :=
  Claims.LayerCommands ∧
  Claims.LayerControl

/-- R64, R191, R299, R304: GSTOP asks for the stop of another running context, waits, and answers 1 once
it is no longer stopping; GSTOP.GO makes a stopped context run again and asks for its resume; both answer
0 where they cannot. -/
def Sys2Proof.Claims.StopAndGo : Prop :=
  ∀ (s : State) (d : XReg) (a : XSrc), Usable s (d.val :: a.regs) a.cells →
    let c := (s.src a).toNat
    (s.core.p = false → exec (.gstop d a) s = .next (s.takeTrap .priv 0)
      ∧ exec (.gstopGo d a) s = .next (s.takeTrap .priv 0))
    ∧ (s.core.p = true → s.core.progress = .none →
      (256 ≤ c ∨ s.ctxState c ≠ 1 ∨ s.core.ctx = c ∨ s.stopping c = true →
        exec (.gstop d a) s = .next (marked s d 0))
      ∧ (c < 256 → s.ctxState c = 1 → s.core.ctx ≠ c → s.stopping c = false → exec (.gstop d a) s = .next { s with
          cmds := s.cmds ++ [.gangStop c], core := { s.core with progress := .command, stalled := true } }))
    ∧ (s.core.p = true → s.core.progress = .command → s.stopping c = false →
      exec (.gstop d a) s = .next (marked s d 1))
    ∧ (s.core.p = true →
      (256 ≤ c ∨ s.ctxState c ≠ 2 → exec (.gstopGo d a) s = .next (marked s d 0))
      ∧ (c < 256 → s.ctxState c = 2 → exec (.gstopGo d a) s
        = .next (marked { s.setCtxState c 1 with cmds := s.cmds ++ [.resume c] } d 1)))

/-- R50, R199, R280, R299-R304: the stop command holds the context's tasks back and halts those of its cores
whose task is not QUEUED: a wait is abandoned, and a YIELD ends, its BRK to come where SS is set; once they have
drained each goes to a record and the context is STOPPED; the resume command queues the tasks of its records for
their home cores, before every other task where no task holds the core, and each record goes back when its core
can take it and its task is next there. -/
def Sys2Proof.Claims.GangStops : Prop :=
  ∀ (s : State) (c : Nat) (t : List Command),
    (s.cmds = .gangStop c :: t →
      let held : State := { s with cmds := t, held := c :: s.held.filter (· != c) }
      exec (.gangStopCommand c) s = .next ((s.haltsOf c).foldl (fun u k => u.haltCore k.num) held))
    ∧ (∀ k ∈ s.haltsOf c, k.tstate ≠ .queued ∧ k.ctx = c)
    ∧ (s.core.tstate ≠ .queued → s.reads = [] → s.terms = [] → s.walks = [] →
      ((∀ n, s.core.wait ≠ .yield n) → s.haltCore s.core.num = { s with core := s.core.abandon })
      ∧ ∀ n, s.core.wait = .yield n → s.haltCore s.core.num = { s with core := { s.core with
          pc := s.core.npc, wait := .none, progress := .none, stalled := false, brkDue := s.core.ss && !s.core.p
          tstate := if s.core.tstate = .parked then .running else s.core.tstate } })
    ∧ (s.held.contains c = true → s.stopping c = true → s.cmds.contains (.gangStop c) = false → s.ctxDrained c = true →
      ∀ u, (s.haltsOf c).foldl (fun (r : Option State) k => r.bind (·.saveStopped k.num)) (some s) = some u →
        exec (.gangStopDrainComplete c) s = .next (u.setCtxState c 2))
    ∧ (s.ctxDrained c = false → exec (.gangStopDrainComplete c) s = .next s)
    ∧ (s.cmds = .resume c :: t → ∃ q : List Task, exec (.resumeCommand c) s = .next { s with
        cmds := t, held := s.held.filter (· != c), queue := s.queue ++ q
        records := s.records.map fun k => if k.ctx = c ∧ k.stop = true then { k with go := true } else k }
      ∧ (∀ x ∈ q, ∃ k ∈ s.records, k.ctx = c ∧ k.stop = true ∧ ∃ y, k.image.task = some y
          ∧ x = { y with bound := some k.image.num, saved := true, resident := false
                         level := if (s.getCore k.image.num).task.isSome ∨ (s.getCore k.image.num).memberOf.isSome
                                  then y.pri else 8 })
      ∧ ∀ k ∈ s.records, k.ctx = c → k.stop = true → ∀ y, k.image.task = some y → ∃ x ∈ s.queue ++ q, x.id = y.id)
    ∧ ∀ k r, s.records = [k] → k.ctx = c → k.dom = r → k.stop = true → k.go = true → s.recordState k ≠ none →
      k.image.num = s.core.num → k.image.members = [] → s.core.num < 6144 → s.core.task = none →
      s.eligible s.core.num = true → (∀ m < s.core.num, m / 16 = s.core.num / 16 → s.canStart m = false) →
      (s.nextTaskFor s.core.num).map (·.id) = k.image.task.map (·.id) →
      ∃ u, exec (.recordRestore c r k.num) s = .next u ∧ u.records = [] ∧ u.core.num = s.core.num
        ∧ u.core.tstate = .running ∧ u.core.wait = .none ∧ u.core.frozen = false
        ∧ ∀ y ∈ u.queue, some y.id ≠ k.image.task.map (·.id) ∨ ∃ x ∈ s.spawns, x.id = y.id

/-- A stopped core and its resumption, and the stops of a gang. The model's own choice in it: log entry
27. -/
def Obligations.StoppedCores : Prop :=
  Claims.StopAndGo ∧
  Claims.GangStops

/-! ### Packets, links and the host (R325-R334, R360, R363, R374, R376) -/

/-- R329, R334, R335, R341, R373, R374, R376: a packet that fails its link check is dropped and counted; one
that comes from a package whose participant the packet's enclave has revoked is dropped; one that does not
verify is dropped and counted; any other is accepted, and carries the number and the enclave of the key it came
under; the acknowledgement of an abort counts under its group's sequence number alone. -/
def Sys2Proof.Claims.PacketsReceived : Prop :=
  ∀ (s : State) (k : Nat) (p : Packet), s.wire[k]? = some p → s.route p.src = 0 ∨ s.linkUp p.src = true →
    let u := { s with wire := s.wire.eraseIdx k }
    let goes (v : State) : Prop := exec (.uePacketReceive k) s = .next v
    let due (v : State) (i : Instr) : Prop := goes { v with due := s.due ++ [.event i] }
    (p.linkOk = false → goes { u with dropped := s.dropped + 1 })
    ∧ (p.linkOk = true →
      (∀ e m, (p.src, m) ∈ e.members → m ∈ e.revoked →
        (p.key ≠ 0 ∧ s.keyHolder p.key = some e)
          ∨ (p.key = 0 ∧ ((∃ r, p.body = .request r ∧ s.enclaveOf r.ctx = some e)
              ∨ (∃ r, p.body = .response r ∧ s.enclaveOf (s.getCore r.core).ctx = some e)
              ∨ (∃ f, p.body = .flit f ∧ s.enclaveOf f.ctx = some e)
              ∨ (∃ id x y, (p.body = .quote id x y ∨ p.body = .agree id x y) ∧ s.enclaves.find? (·.id == id) = some e)
              ∨ ∃ g, p.body.group = some g ∧ s.enclaveOf (s.groupCtx g) = some e)) →
        goes { u with dropped := s.dropped + 1 })
      ∧ (s.fromRevoked p = false →
        (p.key = 0 →
          (∀ r, p.body = .request r → goes { u with
            requests := s.requests ++ [{ r with srcPkg := p.src, key := 0, encl := none }] })
          ∧ (∀ r, p.body = .response r → goes { u with responses := s.responses ++ [{ r with pkg := p.src }] })
          ∧ (∀ f, p.body = .flit f →
            goes { u with flits := s.flits ++ [if f.bounce then f else { f with srcPkg := p.src }] })
          ∧ (∀ q, p.body = .part q → goes { u with parts := s.parts ++ [{ q with pkg := p.src }] })
          ∧ (∀ g q n c, p.body = .abortReq g q n c → due u (.abortReqReceive g q n c))
          ∧ (∀ g q n c, p.body = .abort g q n c → due u (.abortReceive g q n c))
          ∧ (∀ g q, p.body = .abortDone g q → due u (.abortDoneReceive g q))
          ∧ (∀ g q c, p.body = .abortAck g q c →
            (s.groupSt g = 2 ∧ s.groupSeq g = q → due u (.abortAckReceive g c))
            ∧ (s.groupSt g ≠ 2 ∨ s.groupSeq g ≠ q → goes { u with dropped := s.dropped + 1 }))
          ∧ (∀ e kn w, p.body = .groupKey e kn w →
            due { u with keyBox := s.keyBox ++ [(e, kn, p.src, w)] } (.groupKeyReceive kn))
          ∧ (∀ e q c, p.body = .quote e q c →
            due { u with quotes := (s.quotes.filter fun x => !(x.1 == p.src && x.2.1 == e)) ++ [(p.src, e, q, c)] } .policy)
          ∧ (∀ e x y, p.body = .agree e x y →
            due { u with agreed := (s.agreed.filter fun z => !(z.1 == p.src && z.2.1 == e)) ++ [(p.src, e, x, y)] } .policy))
        ∧ (p.key ≠ 0 →
          (p.authOk = false ∨ s.keyHolder p.key = none → s.badFrom p.src ≠ 3 →
            goes (({ u with dropped := s.dropped + 1 }).setBadFrom p.src (s.badFrom p.src + 1)))
          ∧ (p.authOk = false ∨ s.keyHolder p.key = none → s.badFrom p.src = 3 →
            goes ((({ u with dropped := s.dropped + 1 }).setBadFrom p.src 0).aeadFailure p.src p.key))
          ∧ (∀ r e, p.body = .request r → p.authOk = true → s.keyHolder p.key = some e →
            goes { u.setBadFrom p.src 0 with
              requests := s.requests ++ [{ r with srcPkg := p.src, key := p.key, encl := some e.id }] }))))

/-- R248, R328, R334, R341: what a lost peer, a lost port and a lost write leave. A peer's outstanding
accesses are aged, what waits to leave for it is gone, and its collectives abort; a CXL port freezes, with a
record of the loss and one of the freeze; a line whose write is lost is poisoned, and a migration whose copy wrote
it fails. The code of that last record is free (log entry 49). -/
def Sys2Proof.Claims.LinkFailures : Prop :=
  ∀ (s : State) (p a : Nat),
    (∃ u : State, exec (.uePeerFailure p) s = .next (u.abortPeer p 3 false) ∧ p ∈ u.failedPeers
      ∧ (∀ m ∈ u.pent, m.dest ≠ some p)
      ∧ ∀ c ∈ u.allCores, (∀ x ∈ c.remoteStores, x.1 ≠ p) ∧ (∀ x ∈ c.unsent, x.pkg ≠ p)
        ∧ ∀ (i : Fin 8) (q : RSlot), c.slots[i] = some q → q.toPkg p = true → q.resp = none → q.aged = true)
    ∧ (p < 4 → s.frozen.contains (3, 16 + p) = false → s.mig = none →
      exec (.cxlLinkFailure p) s = .next ((({ s with frozen := s.frozen ++ [(3, 16 + p)] } : State).postError
        { code := 0x0D, frozen := true, layer := 12, master := 3 * 2 ^ 16 + 16 + p, cause := 19
          detail := 16 + p }).postError
        { code := 0x10, frozen := true, layer := 12, master := 3 * 2 ^ 16 + 16 + p, cause := 19, detail := 4 }))
    ∧ (4 ≤ p ∨ s.frozen.contains (3, 16 + p) = true → exec (.cxlLinkFailure p) s = .next s)
    ∧ ∃ (u : State) (c : Nat), exec (.cxlWriteFailure a) s = .next (u.postError { code := c, layer := 12, addr := a })
      ∧ (∀ q, q ∈ u.poison ↔ q ∈ s.poison ∨ ∃ i < 4, q = .hbm (a / 64 * 64 + 16 * i))
      ∧ (s.mig = none → { u with poison := s.poison, free := s.free } = s)
      ∧ ∀ m, s.mig = some m → m.st = 3 → frameBase m.dstT m.dstF ≤ a → a < frameBase m.dstT m.dstF + 2 ^ 21 →
          u.mig = none ∧ u.migst = 7

/-- What a link receives, and what its failure leaves. The model's own choices in it: log entries 49,
51, 52, 61, 92, 98 and 100. -/
def Obligations.LinkTraffic : Prop :=
  Claims.PacketsReceived ∧
  Claims.LinkFailures

/-- R325, R326, R356, R363: a host access through an open window goes where its context's pages say and is
completed; one that is denied is refused with a record; a frozen function's reads are aborted and its
writes dropped. An access waits while the host link is frozen or its page is being moved, and what the same
function sends later waits behind it. -/
def Sys2Proof.Claims.HostAccesses : Prop :=
  ∀ (s : State) (f off n v e pa : Nat),
    let read := exec (.hostWindowRead f off n) s
    let write := exec (.hostWindowWrite f off n v) s
    let atomic (op : Nat) (wide : Bool) := exec (.hostAtomic f off op wide v e) s
    let open_ (ks : List Kind) (n : Nat) : Prop := s.hostReach f off n ks = .ok [(.hbm pa, n)] ∧ s.poison = []
    let marked (n : Nat) (d : Bool) := s.markPages none (s.hostAsid f) (s.hostVa f off) n d
    let waits (i : Instr) : Out := .next { s with later := s.later ++ [i] }
    let behind := s.frozen.contains (3, 20) = true ∨ ∃ i ∈ s.later, s.hostFunc i = some f
    f < 64 →
    (¬behind → s.frozen.contains (4, f) = false →
      (open_ [.load] n → read = .next { marked n false with
        out := (marked n false).out ++ [.completion f (s.hbm.readBytes pa n) false] })
      ∧ (open_ [.store] n → write = .next ((marked n true).storeHome (.hbm pa) (bytesOf n v)))
      ∧ (∀ wide, let m : Nat := if wide then 8 else 4
          open_ [.load, .store] m →
          let old := (marked m true).hbm.readN pa m
          let w := v % 2 ^ (8 * m)
          let does (op new : Nat) : Prop := atomic op wide = .next (((marked m true).storeHome (.hbm pa) (bytesOf m new)).tellHost
            (.completion f (bytesOf m old) false))
          does 0 (old + w) ∧ does 1 w ∧ does 2 (if old = e % 2 ^ (8 * m) then w else old))
      ∧ (s.window f = none →
        read = .next ((s.hostRefuse f off (.denied 0)).tellHost (.completerAbort f))
        ∧ write = .next (s.hostRefuse f off (.denied 0))
        ∧ ∀ op wide, atomic op wide = .next ((s.hostRefuse f off (.denied 0)).tellHost (.completerAbort f)))
      ∧ (s.hostReach f off n [.load] = .moving → read = waits (.hostWindowRead f off n))
      ∧ (s.hostReach f off n [.store] = .moving → write = waits (.hostWindowWrite f off n v)))
    ∧ (¬behind → s.frozen.contains (4, f) = true →
      read = .next (s.tellHost (.completerAbort f)) ∧ write = .next s
      ∧ ∀ op wide, atomic op wide = .next (s.tellHost (.completerAbort f)))
    ∧ (behind → read = waits (.hostWindowRead f off n) ∧ write = waits (.hostWindowWrite f off n v)
      ∧ ∀ op wide, atomic op wide = waits (.hostAtomic f off op wide v e))

/-- R325, R357, R360, R363, R370, R384: function 0 reads the registers of space 4 through its BAR2 window, with a
read's side effect, and writes them: a plain register takes its writable bits, a reserved address nothing, a
command of the mailbox is taken once, a corrected-error counter is cleared by any value; reading ERDROP returns
the count and clears it. While the host link is frozen, or an earlier access of the function waits, these wait. -/
def Sys2Proof.Claims.ControlWindow : Prop :=
  ∀ (s : State), s.released = true → s.poison = [] →
    let write (off v : Nat) := exec (.space4RegisterWrite off 8 v) s
    let behind := s.frozen.contains (3, 20) = true ∨ ∃ i ∈ s.later, s.hostFunc i = some 0
    let waits (i : Instr) : Out := .next { s with later := s.later ++ [i] }
    (behind → (∀ off v, write off v = waits (.space4RegisterWrite off 8 v)) ∧ exec .erdropRead s = waits .erdropRead)
    ∧ (¬behind → s.frozen.contains (4, 0) = true → (∀ off v, write off v = .next s)
      ∧ exec .erdropRead s = .next (s.tellHost (.completerAbort 0)))
    ∧ (¬behind → s.frozen.contains (4, 0) = false →
      (∀ off n, exec (.hostWindowRead 64 off n) s = .next ((s.loaded [(.mmio off, n)]).tellHost
        (.completion 0 ((List.range n).map fun i => s.mmioByte (off + i)) false)))
      ∧ (∀ off n, off + n ≤ 0x0050_0018 ∨ 0x0050_0020 ≤ off → s.loaded [(.mmio off, n)] = s)
      ∧ (∀ i v, i < 512 → write (0x0060_1000 + 8 * i) v = .next { s with mmio := s.mmio.writeN (0x0060_1000 + 8 * i) 8 v })
      ∧ (∀ p < 1024, ∀ v, p % 4 = 0 → write (0x0042_0000 + 2 * p) v
          = .next { s with mmio := s.mmio.writeN (0x0042_0000 + 2 * p) 8 v })
      ∧ (∀ v, write 0x0050_0008 v = .next s ∧ write 0x0070_0000 v = .next s)
      ∧ (∀ v, s.sp.st ≠ 1 → 1 ≤ v % 256 → v % 256 ≤ 6 →
          write 0x0060_0000 v = .next { s with sp := { st := 1, cmd := v % 256 } })
      ∧ (∀ v, s.sp.st = 1 → write 0x0060_0000 v = .next s)
      ∧ (∀ l v, l < 13 → write (0x0051_0000 + 8 * l) v
          = .next { s with mmio := s.mmio.clear (0x0051_0000 + 8 * l) 8 })
      ∧ exec .erdropRead s = .next { s with
          out := s.out ++ [.completion 0 (s.mmio.readBytes 0x0050_0018 8) false]
          mmio := s.mmio.clear 0x0050_0018 8 })

/-- The host's accesses and the control window it writes. The model's own choices in it: log entries 50,
65 and 100. -/
def Obligations.HostWindow : Prop :=
  Claims.HostAccesses ∧
  Claims.ControlWindow

/-! ### Errors, temperature and well areas (R220, R354-R358, R378-R380) -/

/-- R354, R356-R358: an error in a word that the scrubber reads waits for it, and poisons its 16-byte
part at once when it cannot be corrected; elsewhere it is corrected and counted, or poisons and is
recorded; the scrubber's read takes what waits for it; a window's end records a count above CETH. -/
def Sys2Proof.Claims.BitErrors : Prop :=
  ∀ (s : State) (a r i l : Nat),
    let part := 16 * a
    (i < 16 →
      (exec (.softError (.vault (part + i)) true) s = .next { s with
        failing := (s.failing ++ [Place.vault part]).eraseDups, poison := (s.poison ++ [Place.vault part]).eraseDups
        struck := s.struck ++ [(Place.vault part, true)] })
      ∧ (exec (.softError (.vault (part + i)) false) s = .next { s with
        failing := (s.failing ++ [Place.vault part]).eraseDups, struck := s.struck ++ [(Place.vault part, false)] })
      ∧ (exec (.softError (.hbm (part + i)) false) s
        = .next { s with failing := (s.failing ++ [Place.hbm part]).eraseDups })
      ∧ (∃ u : State, exec (.softError (.hbm (part + i)) true) s = .next (u.postError
          { code := 3, poisoned := true, layer := 12, addr := part, detail := part / 2 ^ 36 })
          ∧ Place.hbm part ∈ u.poison))
    ∧ (i < 16 → ∀ unc : Bool,
      exec (.softError (.mirrorCopy l (part + i)) unc) s = .next { s with
        failing := (s.failing ++ [Place.mirrorCopy (min l 12) part]).eraseDups
        poison := if unc then (s.poison ++ [Place.mirrorCopy (min l 12) part]).eraseDups else s.poison
        struck := s.struck ++ [(Place.mirrorCopy (min l 12) part, unc)] }
      ∧ exec (.softError (.table (part + i)) unc) s = .next { s with
        failing := (s.failing ++ [Place.table part]).eraseDups
        poison := if unc then (s.poison ++ [Place.table part]).eraseDups else s.poison
        struck := s.struck ++ [(Place.table part, unc)] }
      ∧ exec (.softError (.cache (part + i)) unc) s = .next { s with
        failing := (s.failing ++ [Place.cache part]).eraseDups
        poison := if unc then (s.poison ++ [Place.hbm part]).eraseDups else s.poison
        struck := s.struck ++ [(Place.cache part, unc)] })
    ∧ (i < 16 → s.struck = [(Place.vault part, true)] → Place.vault part ∈ s.poison →
      ∃ v : Nat, exec (.scrubRead (.vault (part + i))) s = .next (({ s with
        struck := [], free := s.free + 1 } : State).postError {
          code := 2, poisoned := true, layer := layerOfRouter (part / 2 ^ 21), detail := v
          addr := 0x1000_0000_0000_0000 + part }))
    ∧ (∃ u, exec (.softError (.reg r i) false) s = .next u
        ∧ u.inWindow (layerOf r) = s.inWindow (layerOf r) + 1 ∧ u.poison = s.poison
        ∧ (Memory.wf s.mmio = true → u.reg (0x0051_0000 + 8 * layerOf r) 4
            = min (2 ^ 32 - 1) (s.reg (0x0051_0000 + 8 * layerOf r) 4 + 1)))
    ∧ (i < 16 → s.struck = [(Place.vault part, false)] →
      exec (.scrubRead (.vault (part + i))) s
        = .next (({ s with struck := [] } : State).countCorrected (layerOfRouter (part / 2 ^ 21))))
    ∧ (∀ p, (∀ x ∈ s.struck, x.1 ≠ placeNorm p) → exec (.scrubRead p) s = .next s)
    ∧ (l ≤ 12 → exec (.cecClear l) s = .next { s with mmio := s.mmio.clear (0x0051_0000 + 8 * l) 8 })
    ∧ (let u : State := { s with corrected := s.corrected.filter (·.1 != l) }
      exec (.cecWindowEnd l) s = .next (if s.reg 0x0051_0080 4 ≠ 0 ∧ s.reg 0x0051_0080 4 < s.inWindow l
        then u.postError { code := 1, layer := l, detail := min (2 ^ 32 - 1) (s.inWindow l) } else u))

/-- R378-R380: a sample of a layer's temperature and voltage stands in its TSENS register with the derate
that the table gives, at most 7; a thermal limit slows the layer's arrays and changes nothing else. -/
def Sys2Proof.Claims.Temperature : Prop :=
  ∀ (s : State) (l t v : Nat), l < 12 → t < 256 → v < 256 → Memory.wf s.mmio = true →
    let dt := if t < 70 then 0 else if t < 85 then 1 else if t < 95 then 2 else 3
    let dv := if 740 ≤ 5 * v then 0 else if 720 ≤ 5 * v then 1 else if 700 ≤ 5 * v then 2 else 3
    (∃ u, exec (.temperatureSample l t v) s = .next u ∧ u.derate l = dt + dv
      ∧ u.reg (0x0052_0000 + 8 * l) 1 = t ∧ u.reg (0x0052_0002 + 8 * l) 1 = v ∧ { u with mmio := s.mmio } = s)
    ∧ exec (.thermalLimit l) s = .next (s.modLayer l fun y => { y with limited := true })
    ∧ exec (.thermalLimitLift l) s = .next (s.modLayer l fun y => { y with limited := false })

/-- R220: WAREA sets how many units of 64 KiB of a slice belong to wells: not more than 16, not where the
allocated wells or a save area would not fit; the bytes that leave the area read zero. -/
def Sys2Proof.Claims.WellAreas : Prop :=
  ∀ (s : State) (r sl n : Nat), r < 384 → sl < 2 →
    let k := 2 * r + sl
    let old := s.reg (0x0053_0000 + 8 * k) 8 % 32
    (n ≤ 16 → (s.layer (layerOfRouter r)).state ≠ .retired → s.overSaves sl n = false → s.wellsFit r sl n = true →
      let u : State := { s with mmio := s.mmio.writeN (0x0053_0000 + 8 * k) 8 n }
      let lo := k * 2 ^ 20 + 2 ^ 20 - old * 2 ^ 16
      exec (.wareaWrite r sl n) s = .next (if n < old then
        { u with vault := s.vault.clear lo ((old - n) * 2 ^ 16)
                 poison := clearPoison s.poison (.vault lo) ((old - n) * 2 ^ 16) } else u))
    ∧ (16 < n ∨ s.overSaves sl n = true ∨ s.wellsFit r sl n = false ∨ (s.layer (layerOfRouter r)).state = .retired →
      exec (.wareaWrite r sl n) s = .next s)

/-- Bit errors, the layers' temperature and the areas of wells. The model's own choices in it: log
entries 4, 33 and 57. -/
def Obligations.CellErrors : Prop :=
  Claims.BitErrors ∧
  Claims.Temperature ∧
  Claims.WellAreas

/-! ### Contexts, host queues and launches (R283-R298) -/

/-- R284-R288: a doorbell sets a queue's tail; a FREE context whose save area passes becomes
RUNNING; the sequencer takes the slot at the head of the queue that is next, rejects one that
breaks a rule with status 1, waits for one whose page is absent or moving (R317, R322), and
writes each slot's completion signal, status first, when it ends; a signal whose page or link may
not be written now waits (R363). The model's own choices in it: log entries 36, 37, 39 and 99. -/
def Obligations.HostQueues : Prop :=
  ∀ (s : State) (q t c : Nat),
    (∀ h, s.queues = [h] → h.num = q → s.behindHost h.func = false →
      (s.frozen.contains (4, h.func) = false →
        exec (.hostDoorbell q t) s = .next { s with queues := [{ h with tail := t % 2 ^ h.size }] })
      ∧ (s.frozen.contains (4, h.func) = true → exec (.hostDoorbell q t) s = .next s))
    ∧ (c < 256 → s.ctxState c = 0 → s.areaOk c = true →
      exec (.contextStart c) s = .next { s with mmio := s.mmio.writeN (0x0010_0000 + 0x400 * c) 8 1 })
    ∧ (s.ctxState c ≠ 0 ∨ s.areaOk c = false → exec (.contextStart c) s = .next s)
    ∧ (∀ h, s.queues = [h] → s.nextQueue = some h → h.num = q →
      let b := s.slotBytes h
      let slot (kind : SlotKind) (st : Option Nat) : Slot := {
        id := s.nextSlot, queue := q, ctx := h.ctx, sig := fieldOf b 40 8, sigHost := fieldOf b 56 8 % 2 = 1
        sigval := fieldOf b 48 8, kind := kind, status := st }
      let takes (u : State) (k : Slot) : State := { u with
        slots := s.slots ++ [k], nextSlot := s.nextSlot + 1, lastQueue := s.lastQueue.setIfInBounds h.pri q
        queues := [{ h with head := (h.head + 1) % 2 ^ h.size, prev := some s.nextSlot, missed := none }] }
      let desc := s.host.readBytes (fieldOf b 8 8) 32
      (fieldOf b 0 1 ≠ 2 →
        (fieldOf b 0 1 ≠ 1 ∨ slotOk b = false ∨ (∃ n, s.readImage h.ctx (fieldOf b 32 8) = .error (.denied n)) →
          exec (.launchSlotStart q) s = .next (takes s (slot .rejected (some 1))))
        ∧ (fieldOf b 0 1 = 1 → slotOk b = true →
          (s.readImage h.ctx (fieldOf b 32 8) = .error .moving → exec (.launchSlotStart q) s = .next s)
          ∧ (∀ vpn, s.readImage h.ctx (fieldOf b 32 8) = .error (.absent vpn) → h.missed = none →
            exec (.launchSlotStart q) s = .next { s.fault (s.ctxAsid h.ctx) vpn h.ctx 4 none with
              queues := [{ h with missed := some vpn }] })
          ∧ ∀ l rs, s.readImage h.ctx (fieldOf b 32 8) = .ok (l, rs) →
            let arg := s.host.readBytes (fieldOf b 8 8) (fieldOf b 16 8)
            let m := rs.foldl (fun (s : State) r => s.devMark h.ctx r.1 r.2 false) s
            (m.devWrite h.ctx (fieldOf b 24 8) arg = .error .moving →
              exec (.launchSlotStart q) s = .next s)
            ∧ ∀ u, m.devWrite h.ctx (fieldOf b 24 8) arg = .ok u →
              exec (.launchSlotStart q) s = .next ((takes u (slot (.launch l) none)).grantUnits h.ctx l.grants)))
      ∧ (fieldOf b 0 1 = 2 →
        (slotOk b = true → fieldOf desc 24 8 < 4 → fieldOf desc 16 8 ≠ 0 → fieldOf desc 16 8 ≤ 2 ^ 32 →
          exec (.copySlotStart q) s = .next (takes s (slot (.copy {
            dst := fieldOf desc 0 8, src := fieldOf desc 8 8, len := fieldOf desc 16 8
            srcHost := fieldOf desc 24 8 % 2 = 1, dstHost := fieldOf desc 24 8 / 2 % 2 = 1 }) none)))
        ∧ (slotOk b = false ∨ 4 ≤ fieldOf desc 24 8 ∨ fieldOf desc 16 8 = 0 ∨ 2 ^ 32 < fieldOf desc 16 8 →
          exec (.copySlotStart q) s = .next (takes s (slot .rejected (some 1))))))
    ∧ (∀ k x n h, s.slots[k]? = some x → s.slotStatus x = some n → s.queues.find? (·.num == x.queue) = some h →
      s.signals = [] → s.frozen.contains (4, h.func) = false →
      let ends : State := { s with slots := s.slots.eraseIdx k }
      let told (u : State) : State := match h.vector with
        | some v => { u with out := u.out ++ [.msix h.func v] }
        | none => u
      (x.sigHost = true → s.frozen.contains (3, 20) = false →
        exec (.slotCompletion k) s = .next (told { ends with
          host := (s.host.writeN (x.sig + 8) 8 n).writeN x.sig 8 x.sigval }))
      ∧ ((x.sigHost = true ∧ s.frozen.contains (3, 20) = true)
          ∨ (x.sigHost = false ∧ ends.devReach x.ctx .store x.sig 16 = .moving) →
        exec (.slotCompletion k) s = .next { ends with signals := [{
          slot := x.id, func := h.func, ctx := x.ctx, addr := x.sig, toHost := x.sigHost, status := n
          val := x.sigval, vector := h.vector }] })
      ∧ ∀ u v p, x.sigHost = false → ends.devReach x.ctx .store x.sig 16 = .ok p →
        ends.devWrite x.ctx (x.sig + 8) (bytesOf 8 n) = .ok u → u.devWrite x.ctx x.sig (bytesOf 8 x.sigval) = .ok v →
        exec (.slotCompletion k) s = .next (told v))
    ∧ (∀ k x, s.slots[k]? = some x → s.slotStatus x = none → exec (.slotCompletion k) s = .next s)

/-- R293-R298: the phase of the node that is due starts from its tables; its tasks enter the
dispatchers one after another, counted and numbered by their WID; the phase ends when all its
tasks are placed and every counter of its mask is 0, and the selector names the next node, the
end, or the limit. The model's own choice in it: log entry 36. -/
def Obligations.Phases : Prop :=
  ∀ (s : State) (k : Nat) (x : Slot) (l : Launch), s.launchAt k = some (x, l) → s.sequences x.ctx = true →
    let becomes (l : Launch) : State := { s with slots := s.slots.modify k fun y => { y with kind := .launch l } }
    (∀ n v, l.state = .due n → l.nodes[n]? = some v → v.rtab = 0 → v.xtab = 0 → v.etab = 0 →
      let ps := l.parts.length
      exec (.phaseStart k) s = .next (becomes { l with
        word := 0, phases := l.phases + 1, state := .running
        phase := { node := n, count := v.count, start := s.tick, credits := List.replicate ps 0
                   last := List.replicate ps none, lastDone := List.replicate ps none } }))
    ∧ (∀ n, l.state = .due n → l.nodes[n]? = none → exec (.phaseStart k) s = .next (becomes { l with state := .leaving 3 }))
    ∧ (∀ v h r c p, l.state = .running → l.phase.placed < l.phase.count → l.nodes[l.phase.node]? = some v →
      l.hdrs[v.task]? = some h → s.placement l v h l.phase.nextIndex = some (r, c, p) → s.dispatcherFull r = false →
      let e := l.phase.etab.getD l.phase.nextIndex 0
      exec (.launchTaskEnqueue k) s = .next (({ becomes (({ l with phase := { p with placed := p.placed + 1 } } : Launch).count h.comp true) with
        nextTask := s.nextTask + 1 } : State).enqueue {
          id := s.nextTask, ctx := x.ctx, launch := x.id, phase := l.phases, entry := v.task, hdr := h
          wid := BitVec.ofNat 64 l.phase.nextIndex, pri := h.pri, erow := edge (e % 64), ecol := edge (e / 256 % 64)
          dom := r, bound := c }))
    ∧ (∀ v, l.state = .running → l.nodes[l.phase.node]? = some v → l.phase.count ≤ l.phase.placed →
      let w := l.word.toNat
      let i := match v.sel with
        | 0 => 0
        | 1 => if w = 0 then 0 else 1
        | 2 => min w 3
        | _ => if w < v.thresh then 0 else 1
      let n := v.next.getD i 0xFFFF
      ((∀ i < 64, v.cmask.testBit i = true → l.counters.toList.getD i 0 = 0) →
        exec (.phaseEnd k) s = .next ((becomes { l with
          state := if n = 0xFFFF then .leaving 0 else if l.maxph ≠ 0 ∧ l.phases = l.maxph then .leaving 2 else .due n
          sched := l.nextSched }).resetExperts x.ctx))
      ∧ (∀ i < 64, v.cmask.testBit i = true → l.counters.toList.getD i 0 ≠ 0 → exec (.phaseEnd k) s = .next s))
    ∧ (l.phase.placed < l.phase.count → exec (.phaseEnd k) s = .next s)

/-! ### Wells (R127-R132, R257-R275) -/

namespace Sys2Proof.Claims

/-- No read waits at the well for a position. -/
abbrev NoReader (s : State) (home idx : Nat) : Prop :=
  ∀ r ∈ s.reads, r.home = home → r.idx = idx → r.phase ≠ .waiting

/-- The well at a slot becomes `w`; nothing else changes. -/
def wellSet (s : State) (home idx : Nat) (w : Well) : State :=
  { s with wells := { s.wellSlot home idx with well := some w }
      :: s.wells.filter fun x => !(x.home == home && x.idx == idx) }

/-- R266, R269: the state once the one read takes its position; with a new ticket it records its sum in
the older checkpoint. -/
def readPlaced (s : State) (r : WellRead) (w : Well) (dl : Bool) : State :=
  let x := w.gen r.gen
  let l := logSum x.log
  let old := x.tc = 0 ∨ x.tc = x.cp0 ∨ x.tc = x.cp1
  let y := if old then w else w.setGen r.gen
    (if x.older then { x with cp1 := x.tc, older := false } else { x with cp0 := x.tc, older := true })
  { wellSet s r.home r.idx { y with
      q := w.q + 1, seq := w.seq ++ [.read r.core (r.gen % 4) none (if old then none else some x.older)] } with
    reads := [{ r with phase := .placed x.tc l.1 l.2.1 l.2.2 dl, at_ := w.seqBase + w.seq.length }] }

end Sys2Proof.Claims

/-- R127, R128, R257, R258: RNEW rejects a descriptor with a reserved bit, a bad size or a home that does
not exist; else it takes the first free slot with room, with its incarnation advanced and everything
clear, and returns the handle; with no room it returns 0. Nothing but the slot changes. -/
def Sys2Proof.Claims.WellsCreated : Prop :=
  ∀ (s : State) (d : XReg) (a : XSrc), Usable s (d.val :: a.regs) a.cells →
    let v := (s.src a).toNat
    let home := if v / 2 ^ 28 % 512 = 511 then s.core.num / 16 else v / 2 ^ 28 % 512
    let size := v % 1024
    let span := 2 ^ (v / 2 ^ 37 % 4)
    let p := if v / 2 ^ 25 % 8 = 0 then 4 else v / 2 ^ 25 % 8 + 1
    let bad := v / 2 ^ 39 ≠ 0 ∨ size = 0 ∨ 512 < size ∨ 384 ≤ home
      ∨ (s.layer (layerOfRouter home)).state = .retired
    (bad → exec (.rnew d a) s = .next (s.takeTrap .rao (s.src a)))
    ∧ (¬bad →
      ((∀ i < 256, s.wellFits home i size span p = false) → exec (.rnew d a) s = .next (marked s d 0))
      ∧ ∀ i < 256, s.wellFits home i size span p = true → (∀ j < i, s.wellFits home j size span p = false) →
        let inc := (s.wellSlot home i).inc % 255 + 1
        ∃ u, exec (.rnew d a) s = .next (marked u d (BitVec.ofNat 64 (home + i * 2 ^ 16 + inc * 2 ^ 24)))
          ∧ { u with wells := s.wells, poison := s.poison } = s
          ∧ u.wellSlot home i = { home := home, idx := i, inc := inc, well := some {
              ctx := s.core.ctx, d := size, n := v / 2 ^ 10 % 32 + 1, e := toS 8 (v / 2 ^ 15 % 256)
              late := v / 2 ^ 23 % 4, p := p, span := span, banks := List.replicate size {} } }
          ∧ ∀ x y, (x, y) ≠ (home, i) → u.wellSlot x y = s.wellSlot x y)

/-- R127: every member but RNEW rejects a handle that names no well of the context. -/
def Sys2Proof.Claims.HandlesChecked : Prop :=
  ∀ (s : State) (d : XReg) (a b c : XSrc) (l k f : Bool), s.core.progress = .none → s.wellOf s.core.ctx (s.src a) = none →
    let rao (i : Instr) : Prop := exec i s = .next (s.takeTrap .rao (s.src a))
    (Usable s (a.regs ++ b.regs ++ c.regs) (a.cells ++ b.cells ++ c.cells) → rao (.rpost a b c l k f))
    ∧ (Usable s (d.val :: (a.regs ++ b.regs)) (a.cells ++ b.cells) →
      rao (.rread d a b f) ∧ rao (.rdelta d a b f) ∧ rao (.rabsent a b)
      ∧ rao (.rstatLanded d a b) ∧ rao (.rstatAbsent d a b) ∧ rao (.rstatFlags d a b))
    ∧ (Usable s (d.val :: a.regs) a.cells →
      rao (.radv d a) ∧ rao (.rfree a) ∧ rao (.rstatGen d a) ∧ rao (.rstatLate d a) ∧ rao (.rstatCounts d a)
      ∧ rao (.rstatClear d a))

/-- The creation of wells and the checks of a well's handle. The model's own choice in it: log entry 33. -/
def Obligations.WellHandles : Prop :=
  Claims.WellsCreated ∧
  Claims.HandlesChecked

/-- R129, R261, R263: RPOST checks its tag, takes its source into the post buffer and asks the home; the
home queues the request and grants a free staging slot, or answers LATE or discards; a grant ends the
RPOST and sends the segments. -/
def Sys2Proof.Claims.WellPosts : Prop :=
  ∀ (s : State) (a b c : XSrc) (l k f : Bool) (w : Well),
    let h := s.src a
    let tag := s.src c
    let size := if f then 2 else 4
    let n := 64 * w.d * size
    let badTag := tagCon tag ≥ w.n ∨ bits tag.toNat 21 11 ≠ 0 ∨ (k = false ∧ tagScale tag ≠ 0)
    (Usable s (a.regs ++ b.regs ++ c.regs) (a.cells ++ b.cells ++ c.cells) → s.core.progress = .none →
      s.wellOf s.core.ctx h = some w →
      (badTag → exec (.rpost a b c l k f) s = .next (s.takeTrap .rao tag))
      ∧ ∀ off, ¬badTag → s.check { align := size } (s.src b) n = .ok [(.loc s.core.num off, n)] →
        exec (.rpost a b c l k f) s = .next { s with
          core := { s.core with progress := .asked 1 none, stalled := true }
          terms := s.terms ++ [{
            src := .core s.core.num, ctx := s.core.ctx, home := hHome h, idx := hIdx h, inc := hInc h
            tag := tag, scaled := k, lt := l, bf16 := f
            data := (List.range (64 * w.d)).map fun i =>
              ofBytes (((s.loadSegs [(.loc s.core.num off, n)]).drop (size * i)).take size) }] })
    ∧ (∀ i t, s.terms[i]? = some t → t.phase = .request → t.src = .core s.core.num →
      s.routeHeld t.route = false →
      let u := { s with terms := s.terms.eraseIdx i }
      let answers (p : TermPhase) : Prop :=
        exec (.wellReservationRequest i) s = .next { u with terms := u.terms ++ [{ t with phase := p }] }
      (s.wellAt t.home t.idx t.inc = none → answers .discarded)
      ∧ (s.wellAt t.home t.idx t.inc = some w → w.ctx = t.ctx →
        (∀ x ∈ s.terms, x.at_ t.home t.idx = true → x.phase ≠ .queued) →
        (t.lt = true → w.classOf (tagGen t.tag) = .retired → answers .late)
        ∧ (t.lt = false ∨ w.classOf (tagGen t.tag) ≠ .retired →
          (∀ j, w.freeStage = some j → ∃ ts, exec (.wellReservationRequest i) s
              = .next { wellSet s t.home t.idx { w with held := j :: w.held } with terms := ts }
            ∧ ts = u.terms ++ [{ t with phase := .granted j }])
          ∧ (w.freeStage = none → answers .queued))))
    ∧ ∀ t before later, s.terms = before ++ t :: later → t.src = .core s.core.num →
      (∀ x ∈ before, x.src ≠ .core s.core.num) → s.core.ss = false → s.routeHeld t.back = false →
      let u := { s with terms := before ++ later }
      (∀ j, t.phase = .granted j → exec (.wellReservationReply s.core.num) s
        = .next (went { u with terms := u.terms ++ [{ t with phase := .staging j }] } s.core.npc).newRegion)
      ∧ (t.phase = .late → exec (.wellReservationReply s.core.num) s = .next (u.takeTrap .late t.tag))
      ∧ (t.phase = .discarded → exec (.wellReservationReply s.core.num) s = .next (went u s.core.npc).newRegion)

/-- R34, R262, R263, R275: a bank converts a segment to the grid, rounding to the nearest even and
saturating; once every segment is staged the home gives the term a ticket and a position, or discards it
and counts why; a term that has lost a segment is dropped whole with a record. -/
def Sys2Proof.Claims.WellTerms : Prop :=
  (∀ (e : Int) (neg : Bool) (m : Nat) (x : Int),
    let i := roundInt .rne neg m (x - e)
    gridValue e (.fin false 1 0) (.fin neg m x)
      = (max (-2 ^ 47) (min (2 ^ 47 - 1) i), decide (i < -2 ^ 47 ∨ 2 ^ 47 - 1 < i), false))
  ∧ (∀ (e : Int) (sc : FV), (gridValue e sc .nan).1 = 0 ∧ (gridValue e sc .nan).2 = (false, true))
  ∧ ∀ (s : State) (k seg c : Nat) (t : Term) (w : Well), s.terms[k]? = some t → t.phase = .staging c →
    (s.wellSlot t.home t.idx).well = some w →
    let vs := t.segment w.e seg
    let g := tagGen t.tag
    let x := w.gen g
    let gone := { s with terms := s.terms.eraseIdx k }
    -- the acknowledgement comes from the home, on the RSP classes (R241)
    let told (n : Nat) : Ack := { core := n, cls := .rpost, home := t.home
                                  via := if t.home < 384 then s.backVia t.home n else none }
    (seg < w.d → seg ∉ t.staged → seg ∉ t.lost → s.poison = [] → s.routeHeld t.route = false →
      exec (.wellSegmentStage k seg) s = .next { wellSet s t.home t.idx
          (w.modBank seg fun b => b.setCol (12 + c) (vs.map (·.1))) with
        terms := s.terms.set k { t with staged := seg :: t.staged, psat := t.psat || vs.any (·.2.1)
                                        pinv := t.pinv || vs.any (·.2.2) } })
    ∧ (w.d ≤ seg ∨ seg ∈ t.staged ∨ seg ∈ t.lost → exec (.wellSegmentStage k seg) s = .next s)
    ∧ (t.staged.length < w.d → exec (.wellTermClassify k) s = .next s)
    ∧ (w.d ≤ t.staged.length → NoReader s t.home t.idx → ∀ n, t.src = .core n →
      let becomes (y : Well) : Prop := exec (.wellTermClassify k) s = .next { wellSet gone t.home t.idx
          { y with q := w.q + 1 } with acks := s.acks ++ [told n] }
      let drop := w.seq ++ [.drop c]
      (w.classOf g = .open_ → x.tc < 256 → becomes { w.setGen g { x with
          tc := x.tc + 1, landed := setBit x.landed (tagCon t.tag), log := x.log ++ [(tagCon t.tag, t.psat, t.pinv)] } with
        seq := w.seq ++ [.land c (g % 4)] })
      ∧ (w.classOf g = .open_ → 256 ≤ x.tc → becomes { w with nFull := min 65535 (w.nFull + 1), seq := drop })
      ∧ (w.classOf g = .retired → becomes { w with
          nLate := min 65535 (w.nLate + 1), ldm := setBit w.ldm (tagCon t.tag), seq := drop })
      ∧ (w.classOf g = .ahead → becomes { w with nEarly := min 65535 (w.nEarly + 1), seq := drop }))
    ∧ (t.lost ≠ [] → NoReader s t.home t.idx → (∀ y ∈ s.terms, y.at_ t.home t.idx = true → y.phase ≠ .queued) →
      ∀ n, t.src = .core n → exec (.wellTermAgeDiscard k) s = .next
        (({ wellSet gone t.home t.idx { w with held := w.held.erase c } with
            acks := s.acks ++ [told n] } : State).postError
          { code := 0x0C, ctx := some t.ctx
            detail := (t.home + t.idx * 2 ^ 16 + t.inc * 2 ^ 24) + 2 ^ 64 * t.tag.toNat }))
    ∧ (t.lost = [] → exec (.wellTermAgeDiscard k) s = .next s)

/-- Posts to a well and the terms it gathers. The model's own choices in it: log entries 34 and 110. -/
def Obligations.PostsAndTerms : Prop :=
  Claims.WellPosts ∧
  Claims.WellTerms

/-- R264, R265, R269, R271, R272: a bank carries out the events of its well in their order, each once: a
term is added to its generation's sum, an advance clears the new slot with its checkpoints, a read gets
the sum, or the sum less a checkpoint. An event that every bank has carried out leaves the sequence and
frees its staging column. -/
def Obligations.WellBanks : Prop :=
  ∀ (s : State) (home idx seg : Nat) (w : Well) (b : Bank) (e : WellEvent),
    (s.wellSlot home idx).well = some w → w.banks[seg]? = some b → s.poison = [] →
    w.seq[b.applied - w.seqBase]? = some e →
    let now := exec (.wellBankEvent home idx seg) s
    let does (b' : Bank) (u : State) : Prop := now = .next (wellSet u home idx
      { w with banks := w.banks.set seg { b' with applied := b.applied + 1 } })
    let readers (v : List Int) (core : Nat) : List WellRead := s.reads.map fun r =>
      if r.core = core ∧ r.home = home ∧ r.idx = idx ∧ r.at_ = b.applied ∧ r.phase.isPlaced = true then { r with got := (seg, v.map some) :: r.got } else r
    ((∃ j y, j ≠ seg ∧ w.banks[j]? = some y ∧ y.applied ≤ w.seqBase) →
      (∀ k slot, e = .land k slot → does (b.setCol slot (addCols (b.col slot) (b.col (12 + k)))) s)
      ∧ (∀ k, e = .drop k → does b s)
      ∧ (∀ slot, e = .advance slot → does (((b.setCol slot []).setCol (4 + 2 * slot) []).setCol (5 + 2 * slot) []) s)
      ∧ (e = .free → does { b with cols := [] } s)
      ∧ (∀ core slot, e = .read core slot none none →
        does b { s with reads := readers (addCols (b.col slot) []) core })
      ∧ (∀ core slot cp, e = .read core slot (some cp) none →
        does b { s with reads := readers (subCols (b.col slot) (b.col (4 + 2 * slot + cp.toNat))) core })
      ∧ (∀ core slot cp, e = .read core slot none (some cp) →
        does (b.setCol (4 + 2 * slot + cp.toNat) (b.col slot))
          { s with reads := readers (addCols (b.col slot) []) core }))
    ∧ (∀ k slot t, w.banks = [b] → seg = 0 → w.seq = e :: t → b.applied = w.seqBase → e = .land k slot →
      (∀ y ∈ s.terms, y.at_ home idx = true → y.phase ≠ .queued) →
      now = .next (wellSet s home idx { w with
        banks := [{ b.setCol slot (addCols (b.col slot) (b.col (12 + k))) with applied := b.applied + 1 }]
        seq := t, seqBase := w.seqBase + 1, held := w.held.erase k }))

/-- R130, R266-R269: RREAD and RDELTA check their descriptor and ask the home, where the read
takes a position once its condition holds, or at its deadline; a generation ahead, or a BASE not
held, is refused with RAO, a retired one returns RET; the values are written in 16-byte parts, in
ascending order, then STATUS, and X[rd] last. The model's own choice in it: log entry 35. -/
def Obligations.WellReads : Prop :=
  (∀ (h : Home) (n : Nat), cutRuns 0 [(h, n)] = (List.range ((n + 15) / 16)).map fun i => (h.plus (16 * i), min 16 (n - 16 * i)))
  ∧ ∀ (s : State) (d : XReg) (a b : XSrc) (f : Bool) (w : Well),
    let h := s.src a
    let at_ := s.src b
    let size := if f then 2 else 4
    let n := s.core.num
    (Usable s (d.val :: (a.regs ++ b.regs)) (a.cells ++ b.cells) → s.core.progress = .none →
      s.wellOf s.core.ctx h = some w → (∃ off, s.spaceOf at_.toNat = .loc off) →
      (at_.toNat % 32 ≠ 0 → exec (.rread d a b f) s = .next (s.takeTrap .addr at_)
        ∧ exec (.rdelta d a b f) s = .next (s.takeTrap .addr at_))
      ∧ ∀ segs g1 g2, at_.toNat % 32 = 0 → s.check {} at_ 32 = .ok segs →
        let bs := s.loadSegs segs
        let fld (o k : Nat) : Nat := ofBytes ((bs.drop o).take k)
        s.check { kind := .store, allow := .mem012, align := size } (BitVec.ofNat 64 (fld 0 8))
          (64 * w.d * size) = .ok g1 →
        s.check { kind := .store, align := 8 } (at_ + 24) 8 = .ok g2 → fld 14 2 = 0 →
        let asks (delta expired : Bool) : Out := .next { s with
          core := { s.core with progress := .asked 0 none, stalled := true }
          reads := s.reads ++ [{
            core := n, ctx := s.core.ctx, home := hHome h, idx := hIdx h, inc := hInc h, delta := delta, bf16 := f
            rd := d, handle := h, dst := BitVec.ofNat 64 (fld 0 8), desc := at_, req := fld 8 4, gen := fld 12 2
            dl := fld 16 4, base := fld 20 4, expired := expired, d := w.d, e := w.e }] }
        exec (.rread d a b f) s = asks false (decide (fld 16 4 = 0))
        ∧ (fld 8 4 = 0 → exec (.rdelta d a b f) s = asks true false)
        ∧ (fld 8 4 ≠ 0 → exec (.rdelta d a b f) s = .next (s.takeTrap .rao (BitVec.ofNat 64 (fld 8 4)))))
    ∧ (∀ r rest, s.reads = r :: rest → r.core = n → s.routeHeld (s.askRoute n r.home) = false →
      let now (p : ReadPhase) : State := { s with reads := { r with phase := p } :: rest }
      let arrives (t : State) : Prop := (r.phase = .sent → exec (.wellReadRequest n) s = .next t)
        ∧ (r.phase = .returned → exec (.wellReadRetry n) s = .next t)
      (∀ x ∈ rest, x.core ≠ n) →
      ((s.wellAt r.home r.idx r.inc = none ∨ ∃ y, s.wellAt r.home r.idx r.inc = some y ∧ y.ctx ≠ r.ctx) →
        arrives (now (.refused r.handle)))
      ∧ (s.wellAt r.home r.idx r.inc = some w → w.ctx = r.ctx →
        let x := w.gen r.gen
        (r.delta = false → 2 ^ w.n ≤ r.req → arrives (now (.refused (BitVec.ofNat 64 r.req))))
        ∧ (r.delta = true ∨ r.req < 2 ^ w.n →
          (w.classOf r.gen = .ahead → arrives (now (.refused (BitVec.ofNat 64 r.gen))))
          ∧ (w.classOf r.gen = .retired → arrives { wellSet s r.home r.idx { w with q := w.q + 1 } with
              reads := { r with phase := .retired } :: rest })
          ∧ (w.classOf r.gen = .open_ → r.delta = false → r.met x = false → r.expired = false →
            (16 ≤ (rest.filter fun y => y.home == r.home && y.idx == r.idx && y.phase == .waiting).length →
              arrives (now .returned))
            ∧ (rest = [] → arrives (now .waiting)))
          ∧ (w.classOf r.gen = .open_ → s.postsOut r = false → rest = [] →
            (r.delta = false → r.met x = true ∨ r.expired = true → arrives (readPlaced s r w (!r.met x)))
            ∧ (r.delta = true → let at_ := w.seqBase + w.seq.length
              (r.base ≠ 0 → x.tc < r.base ∨ (r.base ≠ x.cp0 ∧ r.base ≠ x.cp1) →
                arrives { wellSet s r.home r.idx w with
                  reads := [{ r with phase := .refused (BitVec.ofNat 64 r.base), at_ := at_ }] })
              ∧ ∀ cp, (r.base = 0 ∧ cp = none) ∨ (r.base ≠ 0 ∧ r.base ≤ x.tc ∧ r.base = x.cp0 ∧ cp = some false)
                  ∨ (r.base ≠ 0 ∧ r.base ≤ x.tc ∧ r.base ≠ x.cp0 ∧ r.base = x.cp1 ∧ cp = some true) →
                let l := logSum (x.log.drop r.base)
                arrives { wellSet s r.home r.idx { w with
                    q := w.q + 1, seq := w.seq ++ [.read n (r.gen % 4) cp none] } with
                  reads := [{ r with phase := .placed x.tc l.1 l.2.1 l.2.2 false, at_ := at_ }] })))))
    ∧ ∀ r, s.reads = [r] → r.core = n →
      (r.phase = .waiting → r.dl ≠ 0xFFFF_FFFF → r.delta = false → (s.wellSlot r.home r.idx).well = some w →
        (s.postsOut r = false →
          exec (.wellReadDeadline n) s = .next (readPlaced s { r with expired := true } w (!r.met (w.gen r.gen))))
        ∧ (s.postsOut r = true → exec (.wellReadDeadline n) s = .next { s with reads := [{ r with expired := true }] }))
      ∧ (r.dl = 0xFFFF_FFFF ∨ r.delta = true → exec (.wellReadDeadline n) s = .next s)
      ∧ (let u := { s with reads := [] }
        s.core.ss = false → s.routeHeld (s.backRoute r.home n) = false →
        (∀ v, r.phase = .refused v → exec (.wellReadResult n) s = .next (u.takeTrap .rao v))
        ∧ (∀ segs, r.phase = .retired → s.check { kind := .store, align := 8 } (r.desc + 24) 8 = .ok segs →
          exec (.wellReadResult n) s
            = .next (wrote (u.push (r.desc + 24) segs (bytesOf 8 128)) r.rd 0 s.core.npc))
        ∧ ∀ t mask psat pinv dl (els : List Int) g1 g2, r.phase = .placed t mask psat pinv dl →
          r.elements r.d = some (els.map some) →
          let size := if r.bf16 then 2 else 4
          let out := els.map (readElement r.bf16 r.e)
          let v := u.push r.dst (cutRuns 0 g1) ((out.map fun y => bytesOf size y.1).flatten)
          s.check { kind := .store, allow := .mem012 } r.dst (els.length * size) = .ok g1 →
          v.check { kind := .store, align := 8 } (r.desc + 24) 8 = .ok g2 →
          exec (.wellReadResult n) s = .next (wrote (v.push (r.desc + 24) g2 (bytesOf 8
              (out.foldl (fun m y => Nat.lor m y.2) 0 + 16 * psat.toNat + 32 * pinv.toNat + 64 * dl.toNat)))
            r.rd (BitVec.ofNat 64 (t * 2 ^ 32 + mask)) s.core.npc))

/-- R131, R132, R270-R272: absence, advance, release and state of a well: a position each for the
first three, the answers of RSTAT, and a slot that rests until its quarantine ends. The model's
own choice in it: log entry 74. -/
def Obligations.WellControl : Prop :=
  (∀ (s : State) (a : XSrc), s.core.progress = .asked 0 (some []) →
    exec (.rfree a) s = .next (went s s.core.npc).newRegion)
  ∧ ∀ (s : State) (d : XReg) (a b : XSrc) (w : Well), s.core.progress = .none →
    let h := s.src a
    let tag := s.src b
    let g := tagGen tag
    let set (w : Well) : State := wellSet s (hHome h) (hIdx h) w
    s.wellOf s.core.ctx h = some w →
    (Usable s (a.regs ++ b.regs) (a.cells ++ b.cells) →
      let bad := tag.toNat / 2 ^ 21 ≠ 0 ∨ w.n ≤ tagCon tag ∨ w.classOf g = .ahead
      (bad → exec (.rabsent a b) s = .next (s.takeTrap .rao tag))
      ∧ (¬bad → NoReader s (hHome h) (hIdx h) →
        (w.classOf g = .open_ → exec (.rabsent a b) s = .next (went (set { w.setGen g { w.gen g with
            absent := setBit (w.gen g).absent (tagCon tag) } with q := w.q + 1 }) s.core.npc))
        ∧ (w.classOf g = .retired → exec (.rabsent a b) s = .next (went (set { w with q := w.q + 1 }) s.core.npc))))
    ∧ (Usable s (d.val :: a.regs) a.cells →
      let c := (w.cur + 1) % 65536
      ((∀ t, w.lastAdv = some t → t + 2 ≤ s.tick) → NoReader s (hHome h) (hIdx h) →
        exec (.radv d a) s = .next (marked (set (({ w with
          cur := c, adv := min (2 ^ 32 - 1) (w.adv + 1), lastAdv := some s.tick, q := w.q + 1
          seq := w.seq ++ [.advance (c % 4)] } : Well).setGen c {})) d (BitVec.ofNat 64 c)))
      ∧ (s.terms = [] → s.reads = [] → exec (.rfree a) s = .next { set { w with
            q := w.q + 1, seq := w.seq ++ [.free], freed := some s.core.num } with
          core := { s.core with progress := .asked 0 none, stalled := true } }))
    ∧ (Usable s (d.val :: (a.regs ++ b.regs)) (a.cells ++ b.cells) →
      let reads (i : Instr) (v : Nat) : Prop := exec i s = .next (wrote s d (BitVec.ofNat 64 v) s.core.npc)
      let x := w.gen g
      let counts := w.nLate + w.nEarly * 2 ^ 16 + w.nFull * 2 ^ 32
      let ifOpen (v : Nat) : Nat := if w.classOf g = .open_ then v else 0
      reads (.rstatGen d a) (w.cur + w.late * 2 ^ 16 + (w.n - 1) * 2 ^ 18 + w.p * 2 ^ 23 + ofS 8 w.e * 2 ^ 27
        + w.d * 2 ^ 35)
      ∧ reads (.rstatLanded d a b) (ifOpen x.landed) ∧ reads (.rstatAbsent d a b) (ifOpen x.absent)
      ∧ reads (.rstatLate d a) w.ldm ∧ reads (.rstatCounts d a) counts
      ∧ reads (.rstatFlags d a b) (ifOpen ((x.log.any (·.2.1)).toNat + 2 * (x.log.any (·.2.2)).toNat + x.tc * 2 ^ 16))
      ∧ exec (.rstatClear d a) s = .next (wrote (set { w with nLate := 0, nEarly := 0, nFull := 0, ldm := 0 }) d
          (BitVec.ofNat 64 counts) s.core.npc))
    ∧ ∀ home idx, ∃ u, exec (.wellSlotQuarantineEnd home idx) s = .next u
      ∧ u.wellSlot home idx = { s.wellSlot home idx with resting := false } ∧ { u with wells := s.wells } = s

/-! ### Gate groups, experts and collectives (R178-R184, R335-R348) -/

namespace Sys2Proof.Claims

/-- Every list of the group is on its way with a broadcast of its abort, and nothing of the group is left
at this engine (R341). -/
def toldAbort (s u : State) (g reason pkg : Nat) : Prop :=
  (∀ c ∈ s.groupChildren g, .packet c 0 0 (.abort g (s.groupSeq g) reason pkg) ∈ u.out)
  ∧ (∀ q ∈ u.qps, ∀ e ∈ q.entries, e.grp ≠ g) ∧ (∀ f ∈ u.fired, f.e.grp ≠ g)
  ∧ ∀ q ∈ s.qps, ∀ e ∈ q.entries, e.grp = g → (u.trigger e.ctx e.trig).ab = true

end Sys2Proof.Claims

/-- R182, R183, R345: GATEK.OPEN makes the core a root where the group is free and its descriptor
valid, else it answers 0; GATEK sends its ranked list. -/
def Sys2Proof.Claims.Gates : Prop :=
  (∀ ps : List (Nat × Nat), (rankPairs ps).Perm ps ∧ (rankPairs ps).Pairwise fun a b => pairBefore b a = false)
  ∧ ∀ (s : State) (d : XReg) (v : VReg) (a b : XSrc),
    let x := s.src a
    let n := (s.src b).toNat
    (Usable s (d.val :: (a.regs ++ b.regs)) (a.cells ++ b.cells) →
      let bad := n / 2 ^ 20 ≠ 0 ∨ n % 2 ^ 16 = 0 ∨ 4096 < n % 2 ^ 16 ∨ n / 2 ^ 16 % 16 = 0 ∨ 8 < n / 2 ^ 16 % 16
        ∨ ∃ z ∈ s.gates, z.ctx = s.core.ctx ∧ z.g = x.toNat
      (256 ≤ x.toNat ∨ ¬Granted s (·.gg) x.toNat → exec (.gatekOpen d a b) s = .next (s.takeTrap .prot x))
      ∧ (x.toNat < 256 → Granted s (·.gg) x.toNat →
        (bad → exec (.gatekOpen d a b) s = .next (marked s d 0))
        ∧ (¬bad → exec (.gatekOpen d a b) s = .next (marked { s with gates := s.gates ++ [{
            ctx := s.core.ctx, g := x.toNat, root := s.core.num, task := (s.core.task.map (·.id)).getD 0
            m := n % 2 ^ 16, k := n / 2 ^ 16 % 16 }] } d 1))))
    ∧ (Usable s b.regs (cellV v.val :: b.cells) →
      let k := n / 2 ^ 24 % 16
      let g := n / 2 ^ 16 % 256
      let bad := n / 2 ^ 48 ≠ 0 ∨ n / 2 ^ 28 % 16 ≠ 0 ∨ n / 2 ^ 13 % 8 ≠ 0 ∨ k = 0 ∨ 8 < k ∨ 6144 ≤ n % 2 ^ 13
      (bad → exec (.gatek v b) s = .next (s.takeTrap .addr (s.src b)))
      ∧ (¬bad → ¬Granted s (·.gg) g → exec (.gatek v b) s = .next (s.takeTrap .prot (BitVec.ofNat 64 g)))
      ∧ (¬bad → Granted s (·.gg) g → s.vmuBusy = false → exec (.gatek v b) s = .next (went { s with
          gateLists := s.gateLists ++ [{
            ctx := s.core.ctx, g := g, root := n % 2 ^ 13, at_ := s.core.num / 16
            pairs := rankPairs (gatePairs s.core.v[v] k (n / 2 ^ 32 % 2 ^ 16)) }] } s.core.npc).newRegion))

/-- R183, R345: a list that meets one of its group in a router is merged into it, the best eight pairs
stay; else it takes one of eight slots, or goes on; a slot's time ends; at the root the counts add up,
and with the last the group closes and its result goes to the task that opened it: the best k pairs, each
with its value over the exact sum of theirs rounded once, or 1 / k, and GATEZ, where that sum does not serve. -/
def Sys2Proof.Claims.GateLists : Prop :=
  ∀ (s : State) (k : Nat) (l : GateList),
    (s.gateLists[k]? = some l →
      let u := { s with gateLists := s.gateLists.eraseIdx k }
      let slots := (s.gateHolds.filter (·.at_ == l.at_)).length
      (l.at_ ≠ 384 → s.routeHeld l.hop = false →
        (∀ h, s.gateHolds = [h] → h.at_ = l.at_ → h.same l = true →
          exec (.gateListAtRouter k) s = .next { u with gateHolds := [{ h with
            pairs := (rankPairs (h.pairs ++ l.pairs)).take 8, count := h.count + l.count }] })
        ∧ ((∀ h ∈ s.gateHolds, h.at_ ≠ l.at_ ∨ h.same l = false) →
          (slots < 8 → exec (.gateListAtRouter k) s = .next { u with gateHolds := s.gateHolds ++ [l] })
          ∧ (8 ≤ slots → exec (.gateListAtRouter k) s = .next { u with gateLists := u.gateLists ++ [l.onward] })))
      ∧ (l.at_ = 384 → ∀ x, s.gates = [x] → x.ctx = l.ctx → x.g = l.g → x.root = l.root →
        let y := { x with got := x.got + l.count, pairs := x.pairs ++ l.pairs }
        (y.got < x.m → exec (.gateListAtRoot k) s = .next { u with gates := [y] })
        ∧ (y.got = x.m → exec (.gateListAtRoot k) s = .next { u with
            gates := [], flits := s.flits ++ [y.result s.pkg] })
        ∧ (x.m < y.got → exec (.gateListAtRoot k) s = .next u)))
    ∧ (s.gateHolds[k]? = some l → s.routeHeld l.hop = false → exec (.gateListHoldExpiry k) s = .next { s with
        gateHolds := s.gateHolds.eraseIdx k, gateLists := s.gateLists ++ [l.onward] })
    ∧ ∀ (x : Gate) (p : Nat), x.k ≤ 8 →
      let f := x.result p
      let kept := (rankPairs x.pairs).take x.k
      -- a value in units of 2^-149, the smallest of FP32, and the exact sum of the kept ones
      let units (v : Nat) : Int := match fmtF32.value v with
        | .fin n m e => (if n then -(m : Int) else m) * 2 ^ (e + 149).toNat
        | _ => 0
      let sum := (kept.map fun q => units q.1).sum
      let serves : Prop := (∀ q ∈ kept, ∃ n m e, fmtF32.value q.1 = .fin n m e) ∧ 0 < sum
      let word (m : Nat) (i w : Nat) : Prop := f.words[m]? = some (BitVec.ofNat 64 (i + 2 ^ 32 * w))
      f.words.length = 8 ∧ f.gateTo = some x.task
      ∧ (∀ m < 8, kept.length ≤ m → word m 0xFFFF_FFFF 0)
      ∧ (¬serves → f.qdst = BitVec.ofNat 64 (x.root + (0xC000 + x.g) * 2 ^ 24)
          ∧ ∀ m v i, kept[m]? = some (v, i) → word m i (fmtF32.round .rne false 1 x.k 0).code)
      ∧ (serves → f.qdst = BitVec.ofNat 64 (x.root + (0x8000 + x.g) * 2 ^ 24)
          ∧ ∃ (t : Nat) (z : Int), -149 ≤ z ∧ t * 2 ^ (z + 149).toNat = sum
            ∧ ∀ m v i n a e, kept[m]? = some (v, i) → fmtF32.value v = .fin n a e →
              word m i (if a = 0 then fmtF32.zero n else (fmtF32.round .rne n a t (e - z)).code))

/-- The gates of a mixture and the lists they make. The model's own choices in it: log entries 48, 72,
73, 88 and 114. -/
def Obligations.GateActivity : Prop :=
  Claims.Gates ∧
  Claims.GateLists

/-- R184, R346-R348: DISPATCH checks its block, takes its vector and asks for a slot; the
expert's counter gives one below its capacity, the vector and header are written there and READY
last, as a release at SYSTEM scope; above it the token is absent from its well and DISPATCH
answers all ones. The model's own choices in it: log entries 39, 94 and 112. -/
def Obligations.Dispatches : Prop :=
  ∀ (s : State) (d : XReg) (a : XSrc),
    let x := s.src a
    (Usable s (d.val :: a.regs) a.cells → s.core.progress = .none →
      ((∀ off, s.spaceOf x.toNat ≠ .loc off) ∨ x.toNat % 32 ≠ 0 →
        exec (.dispatch d a) s = .next (s.takeTrap .addr x))
      ∧ ∀ segs g off, s.spaceOf x.toNat = .loc off → x.toNat % 32 = 0 → s.check {} x 32 = .ok segs →
        let fld (o n : Nat) := ofBytes (((s.loadSegs segs).drop o).take n)
        let e := fld 8 4
        let ok := fld 12 4 < 2 ^ 13 ∧ s.expertOk s.core.ctx e (fld 12 4) = true
        (¬ok → exec (.dispatch d a) s = .next (s.takeTrap .addr x))
        ∧ (ok → s.check { align := s.expSize e } (BitVec.ofNat 64 (fld 0 8)) (s.expLen e)
            = .ok [(.loc s.core.num g, s.expLen e)] →
          s.settled (if s.expGlobal e then .system else .package) = true →
          exec (.dispatch d a) s = .next { s with
            core := { s.core with progress := .asked 1 none, stalled := true }
            slotReqs := s.slotReqs ++ [{
              core := s.core.num, d := d, ctx := s.core.ctx, exp := e, well := BitVec.ofNat 64 (fld 16 8)
              tag := BitVec.ofNat 64 (fld 24 8), data := s.loadSegs [(.loc s.core.num g, s.expLen e)] }] }))
    ∧ ∀ r, s.slotReqs = [r] → r.core = s.core.num → s.core.ss = false →
      let n := s.expCnt r.exp
      let gone := { s with slotReqs := [] }
      let near := s.routeHeld (s.slotRoute r) = false
      (near → r.answer = none → n < s.expCap r.exp → exec (.dispatchSlotRequest 0) s = .next { s with
          mmio := s.mmio.writeN (0x0030_0000 + 32 * r.exp + 20) 4 (n + 1), slotReqs := [{ r with answer := some n }] })
      ∧ (near → r.answer = none → s.expCap r.exp ≤ n →
        (∀ w, s.wellOf r.ctx r.well = some w → w.badAbsent r.tag = false → s.reads = [] →
          exec (.dispatchSlotRequest 0) s = .next (marked (gone.absent r.well r.tag) r.d (-1)))
        ∧ (s.wellOf r.ctx r.well = none → exec (.dispatchSlotRequest 0) s = .next (marked (gone.postError {
            code := 0x0B, ctx := some r.ctx, detail := r.well.toNat + 2 ^ 64 * r.tag.toNat }) r.d (-1))))
      ∧ (∀ m pa, r.answer = some m → s.expGlobal r.exp = false → s.poison = [] →
        let to_ := s.expSlot r.exp m
        let n := 64 + r.data.length
        let asid := s.ctxAsid r.ctx
        let at_ (o n : Nat) : Prop :=
          s.reach r.core asid .store (to_ + BitVec.ofNat 64 o) n = .ok [(.hbm (pa + o), n)]
        s.reach r.core asid .store to_ n = .ok [(.hbm pa, n)] → at_ 0 56 → at_ 64 r.data.length → at_ 56 8 →
        let u := s.markPages (some (r.core / 16)) asid to_ n true
        (r.sent = false → exec (.dispatchSlotRequest 0) s = .next
          { (u.storeHome (.hbm pa) (bytesOf 8 r.well.toNat ++ bytesOf 8 r.tag.toNat ++ bytesOf 2 s.pkg
              ++ bytesOf 2 r.core ++ bytesOf 36 0)).storeHome (.hbm (pa + 64)) r.data with
            slotReqs := [{ r with sent := true }] })
        ∧ (r.sent = true →
          (s.settled .system = false → exec (.dispatchSlotRequest 0) s = .next s)
          ∧ (s.settled .system = true → exec (.dispatchSlotRequest 0) s = .next (marked
            { u.storeHome (.hbm (pa + 56)) (bytesOf 8 (m + 1)) with slotReqs := [] } r.d (BitVec.ofNat 64 m)))))

/-- R179, R180: trigger counters: V counts modulo 2^63 and AB stands above it; CQWAIT waits until V has
reached its threshold or the counter shows AB; a number that is not granted raises PROT. -/
def Sys2Proof.Claims.Triggers : Prop :=
  ∀ (s : State) (d : XReg) (a b : XSrc), Usable s (d.val :: (a.regs ++ b.regs)) (a.cells ++ b.cells) →
    let x := s.src a
    let v := (s.src b).toNat % 2 ^ 63
    let t := s.trigger s.core.ctx x.toNat
    let word := BitVec.ofNat 64 (t.v + if t.ab then 2 ^ 63 else 0)
    (64 ≤ x.toNat ∨ ¬Granted s (·.trg) x.toNat → ∀ i ∈ [Instr.trigAdd a b, .trigSet a b, .trigRead d a, .cqwait d a b],
      exec i s = .next (s.takeTrap .prot x))
    ∧ (x.toNat < 64 → Granted s (·.trg) x.toNat →
      (s.settled .package = true →
        exec (.trigAdd a b) s = .next (went (s.setTrigger { t with v := (t.v + v) % 2 ^ 63 }) s.core.npc).newRegion
        ∧ exec (.trigSet a b) s = .next (went (s.setTrigger {
            ctx := s.core.ctx, num := x.toNat, v := v, ab := false }) s.core.npc).newRegion)
      ∧ exec (.trigRead d a) s = .next (wrote s d word s.core.npc)
      ∧ (t.ab = true ∨ v ≤ t.v → exec (.cqwait d a b) s = .next (wrote s d word s.core.npc))
      ∧ (t.ab = false → t.v < v → exec (.cqwait d a b) s = .next { s with core := { s.core with stalled := true } }))

/-- R178, R336, R337, R343, R344: CQPOST appends a valid entry to its queue pair; its head fires once
its counter has reached the threshold, and sends its source in parts; a part in sequence is written
or reduced at its destination and acknowledged, any other is dropped; an entry whose parts are all
acknowledged raises its destination's counter and then its own. -/
def Sys2Proof.Claims.Collectives : Prop :=
  ∀ (s : State),
    (∀ (d : XReg) (a b : XSrc) segs off, Usable s (d.val :: (a.regs ++ b.regs)) (a.cells ++ b.cells) →
      let x := s.src a
      let n := (s.src b).toNat
      s.spaceOf x.toNat = .loc off → s.check {} x 64 = .ok segs →
      (x.toNat % 64 ≠ 0 → exec (.cqpost d a b) s = .next (s.takeTrap .addr x))
      ∧ (x.toNat % 64 = 0 →
        (256 ≤ n ∨ ¬Granted s (·.qp) n → exec (.cqpost d a b) s = .next (s.takeTrap .prot (s.src b)))
        ∧ (n < 256 → Granted s (·.qp) n →
          (s.entryOf s.core.ctx (s.loadSegs segs) = none → exec (.cqpost d a b) s = .next (s.takeTrap .addr x))
          ∧ ∀ e, s.entryOf s.core.ctx (s.loadSegs segs) = some e → s.settled .package = true →
            (s.qp n).entries.length < 256 → (s.groupSt e.grp = 1 →
            exec (.cqpost d a b) s = .next (marked (s.setQp { s.qp n with
              entries := (s.qp n).entries ++ [e], next := ((s.qp n).next + 1) % 65536 }) d
              (BitVec.ofNat 64 (s.qp n).next)))
          ∧ ∀ e, s.entryOf s.core.ctx (s.loadSegs segs) = some e → s.settled .package = true →
            (s.qp n).entries.length < 256 → s.groupSt e.grp = 2 ∨ s.groupSt e.grp = 3 →
            ∃ u, exec (.cqpost d a b) s = .next (marked u d (BitVec.ofNat 64 (s.qp n).next))
              ∧ u.qp n = { s.qp n with next := ((s.qp n).next + 1) % 65536 } ∧ u.fired = s.fired
              ∧ u.trigger e.ctx e.trig = { s.trigger e.ctx e.trig with ab := true })))
    ∧ (∀ n e rest, (s.qp n).entries = e :: rest → s.frozen.contains (2, n) = false → s.held.contains e.ctx = false →
      s.ctxState e.ctx = 1 →
      let t := s.trigger e.ctx e.trig
      (t.ab = true → exec (.collectiveEntryFire n) s = .next (s.setQp { s.qp n with entries := rest }))
      ∧ (t.ab = false → t.v < e.thr ∨ s.groupSt e.grp ≠ 1 → exec (.collectiveEntryFire n) s = .next s)
      ∧ (∀ pa, t.ab = false → e.thr ≤ t.v → s.groupSt e.grp = 1 → e.op = 1 → e.len = 16 → e.dpkg = none →
        s.imageReach e.ctx .load e.src 16 = .ok [(.hbm pa, 16)] → s.poison = [] →
        let u := (s.markPages none (s.ctxAsid e.ctx) (BitVec.ofNat 64 e.src) 16 false).setQp { s.qp n with entries := rest }
        exec (.collectiveEntryFire n) s = .next { u with
          fired := s.fired ++ [{ id := s.nextFired, qp := n, e := e, seq := s.groupSeq e.grp, left := 1 }]
          nextFired := s.nextFired + 1
          parts := s.parts ++ [{ pkg := s.pkg, id := s.nextFired, grp := e.grp, seq := s.groupSeq e.grp, op := 1
                                 red := e.red, dst := e.dst, tag := e.tag, bytes := s.hbm.readBytes pa 16 }] })
      ∧ (t.ab = false → e.thr ≤ t.v → s.groupSt e.grp = 1 → e.op = 1 ∨ e.op = 2 → 16 ≤ e.len →
        (s.imageReach e.ctx .load e.src 16 = .moving → exec (.collectiveEntryFire n) s = .next s)
        ∧ (∀ o p, s.imageReach e.ctx .load e.src 16 = .denied o → Memory.wf s.mmio = true →
          s.groupRoot e.grp = false → s.groupParent e.grp = some p →
          ∃ u, exec (.collectiveEntryFire n) s = .next u ∧ u.groupSt e.grp = 2 ∧ (u.qp n).entries = rest
            ∧ .packet p 0 0 (.abortReq e.grp (s.groupSeq e.grp) 5 s.pkg) ∈ u.out)))
    ∧ (∀ k p, s.parts[k]? = some p →
      let u := { s with parts := s.parts.eraseIdx k }
      let ctx := s.groupCtx p.grp
      (s.inSequence p.grp p.seq = false → exec (.collectivePartArrival k) s = .next { u with dropped := s.dropped + 1 })
      ∧ (s.inSequence p.grp p.seq = true → p.op = 1 ∨ p.op = 2 →
        s.imageReach ctx .store p.dst p.bytes.length = .moving →
        exec (.collectivePartArrival k) s = .next { u with parts := u.parts ++ [p] })
      ∧ ∀ pa, s.inSequence p.grp p.seq = true → p.op = 1 ∨ p.op = 2 → p.pkg = s.pkg → s.poison = [] →
        s.imageReach ctx .store p.dst p.bytes.length = .ok [(.hbm pa, p.bytes.length)] →
        let m := u.markPages none (s.ctxAsid ctx) (BitVec.ofNat 64 p.dst) p.bytes.length true
        let bs := if p.op = 1 then p.bytes else reduceBytes p.red (m.hbm.readBytes pa p.bytes.length) p.bytes
        exec (.collectivePartArrival k) s = .next { m.storeHome (.hbm pa) bs with
          fired := s.fired.map fun f => if f.id = p.id then { f with left := f.left - 1 } else f })
    ∧ ∀ k f, s.fired[k]? = some f →
      let gone := { s with fired := s.fired.filter (·.id != f.id) }
      (f.left ≠ 0 → exec (.collectiveEntryComplete k) s = .next s)
      ∧ (f.left = 0 → f.e.fin = false → f.e.ltrig = 0xFF →
        (f.e.dtrig = 0xFF → exec (.collectiveEntryComplete k) s = .next gone)
        ∧ (f.e.dtrig ≠ 0xFF → f.done = false → f.e.dpkg = none → s.inSequence f.e.grp f.seq = true →
          exec (.collectiveEntryComplete k) s = .next (gone.raiseTrigger (s.groupCtx f.e.grp) f.e.dtrig 1)))
      ∧ (f.left = 0 → f.e.dtrig ≠ 0xFF → f.done = false → f.e.dpkg = none → s.inSequence f.e.grp f.seq = false →
        exec (.collectiveEntryComplete k) s = .next s)
      ∧ (f.left = 0 → f.e.fin = false → f.e.dtrig = 0xFF → f.e.ltrig ≠ 0xFF →
        exec (.collectiveEntryComplete k) s = .next (gone.raiseTrigger f.e.ctx f.e.ltrig 1))
      ∧ exec (.collectiveTimeout k) s = .next (s.startAbort f.e.grp 2 s.pkg true)

/-- Triggers and the steps of a collective. The model's own choices in it: log entries 44, 45, 46 and
73. -/
def Obligations.TriggersAndCollectives : Prop :=
  Claims.Triggers ∧
  Claims.Collectives

/-- R181, R335, R340-R342: an abort that a package detects, or is told of, makes an OPEN group
ABORTING and goes up to the root, which tells the tree; each engine drops the group's entries and
shows AB on their counters; when all have acknowledged the group is OPEN again under the next
sequence number; one that waits too long is FAILED. What comes for another sequence number, or in
another state, is dropped and counted. The model's own choices in it: log entries 47, 66, 73 and
92. -/
def Obligations.GroupAborts : Prop :=
  ∀ (s : State) (g reason pkg child : Nat), Memory.wf s.mmio = true →
    let seq := s.groupSeq g
    let next := (seq + 1) % 2 ^ 32
    let drops := { s with dropped := s.dropped + 1 }
    let asks (r : Nat) (p : Nat) (by_ : Nat) (own : Bool) : State := ((s.setGroupSt g 2).setGroup { s.group g with
      detected := own, reason := r, by_ := by_, since := s.tick, told := false, passed := false }).sendPacket p
        (.abortReq g seq r by_)
    (∀ (d : XReg) (a : XSrc), Usable s (d.val :: a.regs) a.cells → (s.src a).toNat = g →
      (256 ≤ g ∨ ¬Granted s (·.cg) g → exec (.cabort a) s = .next (s.takeTrap .prot (s.src a))
        ∧ exec (.cabortSeq d a) s = .next (s.takeTrap .prot (s.src a)))
      ∧ (g < 256 → Granted s (·.cg) g →
        exec (.cabortSeq d a) s = .next (wrote s d (BitVec.ofNat 64 seq) s.core.npc)
        ∧ (s.groupSt g ≠ 1 → exec (.cabort a) s = .next (went s s.core.npc).newRegion)
        ∧ ∀ p, s.groupSt g = 1 → s.groupRoot g = false → s.groupParent g = some p →
          exec (.cabort a) s = .next (went (asks 1 p s.pkg true) s.core.npc).newRegion))
    ∧ (s.groupSt g = 1 →
      (∀ p, s.groupRoot g = false → s.groupParent g = some p →
        exec (.abortReqReceive g seq reason pkg) s = .next (asks reason p pkg false))
      ∧ (s.groupRoot g = true → ∃ u, exec (.abortReqReceive g seq reason pkg) s = .next u ∧ toldAbort s u g reason pkg))
    ∧ (s.groupSt g ≠ 1 → exec (.abortReqReceive g seq reason pkg) s = .next drops)
    ∧ (s.groupSt g = 1 ∨ s.groupSt g = 2 ∧ (s.group g).told = false →
      ∃ u, exec (.abortReceive g seq reason pkg) s = .next u ∧ toldAbort s u g reason pkg)
    ∧ (s.groupSt g = 0 ∨ s.groupSt g = 3 ∨ (s.groupSt g = 2 ∧ (s.group g).told = true) →
      exec (.abortReceive g seq reason pkg) s = .next drops)
    ∧ (∀ other, other ≠ seq → exec (.abortReceive g other reason pkg) s = .next drops
      ∧ exec (.abortReqReceive g other reason pkg) s = .next drops)
    ∧ (∀ other, other ≠ next → exec (.abortDoneReceive g other) s = .next drops)
    ∧ (s.groupSt g = 2 →
      ((s.group g).told = true → (s.group g).passed = false → s.groupRoot g = true →
        (∀ c ∈ s.groupChildren g, c = child ∨ c ∈ (s.group g).acked) →
        ∃ u, exec (.abortAckReceive g child) s = .next u ∧ u.groupSt g = 1 ∧ u.groupSeq g = next)
      ∧ (∀ p, (s.group g).told = true → (s.group g).passed = false → s.groupRoot g = false → s.groupParent g = some p →
        (∀ c ∈ s.groupChildren g, c = child ∨ c ∈ (s.group g).acked) →
        ∃ u, exec (.abortAckReceive g child) s = .next u ∧ u.groupSt g = 2
          ∧ .packet p 0 0 (.abortAck g seq s.pkg) ∈ u.out)
      ∧ (∃ u, exec (.abortDoneReceive g next) s = .next u ∧ u.groupSt g = 1 ∧ u.groupSeq g = next)
      ∧ ∃ u, exec (.abortWaitTimeout g) s = .next u ∧ u.groupSt g = 3 ∧ u.groupSeq g = seq)
    ∧ (s.groupSt g ≠ 2 → exec (.abortAckReceive g child) s = .next drops ∧ exec (.abortWaitTimeout g) s = .next s
      ∧ exec (.abortDoneReceive g next) s = .next drops)

/-! ### Masters, contexts and trust (R192, R284, R362-R366, R367-R376, R382) -/

/-- R64, R192, R363, R365: FREEZE and UNFREEZE, in the handler alone: a name that is no master, one that
already is as asked, or the own core, answers 0; a core, a copy engine, a queue pair, a port or a host
function is frozen or released, with a record, and the answer is 1. A queue pair's groups are aborted, a
function's held signals written; a core whose task is being saved is frozen once that is done (R305). -/
def Sys2Proof.Claims.Masters : Prop :=
  ∀ (s : State) (d : XReg) (a : XSrc), Usable s (d.val :: a.regs) a.cells →
    let v := (s.src a).toNat
    let noneLost : Prop := ∀ c ∈ s.allCores, s.hasLost c.num = false
    (s.core.p = false → exec (.freeze d a) s = .next (s.takeTrap .priv 0)
      ∧ exec (.unfreeze d a) s = .next (s.takeTrap .priv 0))
    ∧ (s.core.p = true →
      (v / 2 ^ 19 ≠ 0 ∨ v / 2 ^ 13 % 8 ≠ 0 ∨ 4 < v / 2 ^ 16 ∨ v = s.core.num →
        s.core.num < 6144 → s.core.memberOf = none → s.core.frozen = false →
        exec (.freeze d a) s = .next (marked s d 0) ∧ exec (.unfreeze d a) s = .next (marked s d 0))
      ∧ (∀ r < 384, v = 2 ^ 16 + r →
        (s.frozen.contains (1, r) = true → exec (.freeze d a) s = .next (marked s d 0)
          ∧ (noneLost → exec (.unfreeze d a) s
            = .next (marked (({ s with frozen := s.frozen.filter (· != (1, r)) } : State).postError
              { code := 0x11, layer := r / 32, master := v }) d 1)))
        ∧ (s.frozen.contains (1, r) = false → exec (.unfreeze d a) s = .next (marked s d 0)
          ∧ exec (.freeze d a) s = .next (marked (({ s with frozen := s.frozen ++ [(1, r)] } : State).postError
              { code := 0x10, frozen := true, layer := r / 32, master := v, cause := 19, detail := 3 }) d 1)))
      ∧ (∀ k n, (k, n) ∈ [(2, v % 2 ^ 13), (3, v % 2 ^ 13), (4, v % 2 ^ 13)] → v = k * 2 ^ 16 + n →
        n < (if k = 2 then 256 else if k = 3 then 21 else 64) →
        let held : State := { s with frozen := s.frozen ++ [(k, n)] }
        let free : State := { s with frozen := s.frozen.filter (· != (k, n)) }
        let stops (u : State) : Prop := exec (.freeze d a) s = .next (marked (u.postError
          { code := 0x10, frozen := true, layer := 12, master := v, cause := 19, detail := 3 }) d 1)
        let goes (u : State) : Prop := exec (.unfreeze d a) s = .next (marked (u.postError
          { code := 0x11, layer := 12, master := v }) d 1)
        (s.frozen.contains (k, n) = true → exec (.freeze d a) s = .next (marked s d 0)
          ∧ (noneLost →
            (k ≠ 4 → goes free)
            ∧ (k = 4 → s.signals = [] → goes free)
            ∧ (∀ g, k = 4 → s.signals = [g] → g.func = n → g.toHost = true → s.frozen.contains (3, 20) = false →
              goes (({ free with signals := [] } : State).signal g))))
        ∧ (s.frozen.contains (k, n) = false → exec (.unfreeze d a) s = .next (marked s d 0)
          ∧ (k ≠ 2 ∨ (s.qp n).entries = [] → stops held)
          ∧ (∀ e, k = 2 → (s.qp n).entries = [e] → stops (held.startAbort e.grp 6 s.pkg true))))
      ∧ (∀ n < 6144, v = n → n ≠ s.core.num → s.core.memberOf = none → s.core.members = [] →
        let c := s.getCore n
        let ctx := c.task.map (·.ctx)
        c.memberOf = none → c.members = [] →
        (c.frozen = false → c.freezeDue = false → ∃ u : State, exec (.freeze d a) s = .next (marked (u.postError {
            code := 0x10, frozen := true, ctx := ctx, layer := n / 512, master := n, cause := 19, detail := 3 }) d 1)
          ∧ (c.task = none ∨ s.saving c.ctx = false → (u.getCore n).frozen = true)
          ∧ (c.task ≠ none → c.tstate ≠ .queued → s.saving c.ctx = true → (u.getCore n).freezeDue = true))
        ∧ (c.frozen = true → ∃ u : State, exec (.unfreeze d a) s = .next (marked (u.postError {
            code := 0x11, ctx := ctx, layer := n / 512, master := n }) d 1) ∧ (u.getCore n).frozen = false)))

/-- R284: a context that is freed is FREEING, and nothing of it starts any more; once what is in flight
has settled, its cores are without a task, its unfinished slots get status 4, its wells are freed, its
barriers, joins, triggers, entries and gates are gone, and it is FREE. -/
def Sys2Proof.Claims.ContextFrees : Prop :=
  ∀ (s : State) (c : Nat), c < 256 → Memory.wf s.mmio = true →
    (s.ctxState c = 1 ∨ s.ctxState c = 2 → ∃ u, exec (.contextFree c) s = .next u ∧ u.ctxState c = 3
      ∧ (∀ t ∈ u.queue, t.ctx ≠ c) ∧ (∀ t ∈ u.spawns, t.ctx ≠ c) ∧ (∀ r ∈ u.records, r.ctx ≠ c) ∧ c ∈ u.held)
    ∧ (s.ctxState c = 3 → s.ctxDrained c = true → ∃ u, exec (.contextFree c) s = .next u ∧ u.ctxState c = 0
      ∧ (∀ b ∈ u.barriers, b.ctx ≠ c) ∧ (∀ b ∈ u.joins, b.ctx ≠ c) ∧ (∀ b ∈ u.gates, b.ctx ≠ c)
      ∧ (∀ q ∈ u.qps, ∀ e ∈ q.entries, e.ctx ≠ c) ∧ c ∉ u.held ∧ (∀ x ∈ u.triggers, x.ctx ≠ c)
      ∧ u.slots = s.slots.map (fun k => if k.ctx = c ∧ k.status = none then { k with status := some 4 } else k)
      ∧ (∀ home idx x, (u.wellSlot home idx).well = some x → x.ctx = c → x.freed ≠ none)
      ∧ (s.core.ctx = c → s.core.task ≠ none → (∀ k ∈ s.others, k.num ≠ s.core.num) →
        u.core.task = none ∧ u.core.frozen = false))
    ∧ (s.ctxState c = 3 → s.ctxDrained c = false → exec (.contextFree c) s = .next s)
    ∧ (s.ctxState c = 0 → exec (.contextFree c) s = .next s)

/-- The masters of a context and its freeing. The model's own choices in it: log entries 55, 56 and 96. -/
def Obligations.MastersAndContexts : Prop :=
  Claims.Masters ∧
  Claims.ContextFrees

/-- R370-R372, R375: the mailbox's commands that answer from the package alone: a quote signs nonce,
measurements, package and enclave; EXTEND hashes its data into M2 to M7; REPORT signs its evidence;
FRAMES admits a frame to an enclave, or removes one and zeroes it; arguments out of range are refused,
and each acts on its own command alone. -/
def Sys2Proof.Claims.Mailbox_ : Prop :=
  ∀ (s : State),
    let args (o n : Nat) := s.mmio.readBytes (0x0060_1000 + o) n
    let num (o n : Nat) := s.mmio.readN (0x0060_1000 + o) n
    let busy (k : Nat) : Prop := s.sp.st = 1 ∧ s.sp.cmd = k
    let finished (u : State) (res : List Byte) : Out := .next { u with
      mmio := s.mmio.writeBytes 0x0060_2000 (res.take 4096), sp := { s.sp with st := 2, reason := 0 } }
    let refuses (i : Instr) : Prop := ∃ u, exec i s = .next u ∧ u.sp.st = 3 ∧ { u with sp := s.sp, free := s.free } = s
    let body := args 0 32 ++ s.measures.flatten ++ bytesOf 2 s.pkg ++ bytesOf 6 0
      ++ bytesOf 8 ((s.enclaves.head?.map (·.id)).getD 0)
    let shown := Config.evidence (s.failing.map placeNums)
    (busy 1 → exec .quote s = finished s (body ++ edSign (deviceSeed s.record) body))
    ∧ (busy 2 → 2 ≤ num 0 1 → num 0 1 ≤ 7 → num 1 2 ≤ 4000 → exec .extend s = finished { s with
        measures := s.measures.set (num 0 1) (shake256 (s.measures.getD (num 0 1) [] ++ args 3 (num 1 2)) 64) } [])
    ∧ (busy 2 → num 0 1 < 2 ∨ 7 < num 0 1 ∨ 4000 < num 1 2 → refuses .extend)
    ∧ (busy 6 → exec .report s = finished s (shown ++ edSign (deviceSeed s.record) shown))
    ∧ (busy 4 → num 16 8 = 1 →
      let f := num 24 8
      let known := (∃ e ∈ s.enclaves, e.id = num 0 8) ∧ f < 2 ^ 24 ∧ f % 2 ^ 20 < framesOf (f / 2 ^ 20)
      (known → num 8 8 = 0 → exec .frames s
        = finished { s with frames := (s.frames ++ [(num 0 8, f)]).eraseDups } [])
      ∧ (known → num 8 8 = 1 → (num 0 8, f) ∈ s.frames →
        let pa := frameBase (f / 2 ^ 20) (f % 2 ^ 20)
        ∃ u, exec .frames s = finished u [] ∧ (num 0 8, f) ∉ u.frames ∧ (∀ x < 2 ^ 21, u.hbm.read (pa + x) = 0)
          ∧ { u with frames := s.frames, hbm := s.hbm, poison := s.poison } = s)
      ∧ (¬known ∨ 1 < num 8 8 → refuses .frames))
    ∧ ∀ m ∈ [(Instr.quote, 1), (.extend, 2), (.policy, 3), (.frames, 4), (.revoke, 5), (.report, 6)],
      ¬busy m.2 → exec m.1 s = .next s

/-- R373-R376: POLICY exchanges quotes, and then ephemeral keys signed by the device key, and forms an enclave
of the packages whose quotes and signatures verify, with a key for each pair by X448; the leading member draws
the group key and sends it wrapped. A revocation takes effect where its epoch is newer and its quorum has
signed: the revoked package freezes its own masters; any other passes it on, deletes the keys, aborts the groups
with reason REVOKE, posts its record, and the leading one rekeys. A group key is taken from the leading member
alone; an old key ends. -/
def Sys2Proof.Claims.Enclaves : Prop :=
  ∀ (s : State),
    (∀ p, s.sp.st = 1 → s.sp.cmd = 3 →
      let rec_ := s.mmio.readBytes 0x0060_1000 4096
      let id := ofBytes (shake256 (rec_.take p.len) 8)
      let ms := s.admitted id p
      let waits := ∃ k ∈ p.packages, k.1 ≠ s.pkg ∧ s.quoteOf id k.1 = none
      let peers := (ms.filter (·.1 != s.pkg)).map (·.1)
      let own (k : Nat) := s.ephemerals.find? fun x => x.1 == id && x.2.1 == k
      let theirs (k : Nat) := s.agreed.find? fun x => x.1 == k && x.2.1 == id
      let sent := (∃ x ∈ s.ephemerals, x.1 = id) ∨ peers = []
      let come := ∀ k ∈ peers, theirs k ≠ none
      -- step 3 of R373: X448 of the own ephemeral key and the other's
      let pair (k : Nat) : List Byte := match own k, theirs k with
        | some x, some y => x448 x.2.2 y.2.2.1
        | _, _ => []
      let formed (k : Option (Nat × List Byte)) : Enclave := {
        id := id, keys := p.keys, quorum := p.quorum, members := ms, funcs := p.funcs, ctxs := p.ctxs
        pairs := (ms.filter (·.1 != s.pkg)).map (fun m => (m.1, pair m.1))
        key := k, kn := (k.map (·.1)).getD 0 }
      (Config.policy rec_ = none ∨ (Config.policy rec_ = some p ∧ policyOk rec_ p = false) →
        ∃ u, exec .policy s = .next u ∧ u.sp.st = 3 ∧ { u with sp := s.sp, free := s.free } = s)
      ∧ (Config.policy rec_ = some p → policyOk rec_ p = true →
        (∀ k, k ∈ ms ↔ k ∈ p.packages ∧ ∀ j ∈ p.packages, j.2 = k.2 → s.memberOk id p j.1 = true)
        ∧ (id ∉ s.quoted → waits → ∃ u nonce, exec .policy s = .next u ∧ u.sp = s.sp ∧ u.enclaves = s.enclaves
          ∧ id ∈ u.quoted ∧ ∀ k ∈ p.packages, k.1 ≠ s.pkg →
            .packet k.1 0 0 (.quote id (s.quote nonce) (certOf s.record)) ∈ u.out)
        ∧ (id ∈ s.quoted → waits → exec .policy s = .next s)
        ∧ (∀ k ∈ p.packages, k.1 ≠ s.pkg → ∀ x y d, s.quoteOf id k.1 = some x → Config.certKey x.2 = some d →
          theirs k.1 = some y → edVerify d y.2.2.1 y.2.2.2 = false → s.memberOk id p k.1 = false)
        ∧ (id ∈ s.quoted → ¬waits → (∀ x ∈ s.ephemerals, x.1 ≠ id) → ¬come → ∃ u, exec .policy s = .next u
          ∧ u.sp = s.sp ∧ u.enclaves = s.enclaves ∧ ∀ k ∈ peers, ∃ priv, (id, k, priv) ∈ u.ephemerals
            ∧ .packet k 0 0 (.agree id (x448Public priv) (edSign (deviceSeed s.record) (x448Public priv))) ∈ u.out)
        ∧ (id ∈ s.quoted → ¬waits → sent → ¬come → exec .policy s = .next s)
        ∧ (id ∈ s.quoted → ¬waits → sent → come →
          ((∀ k ∈ ms, k.1 ≠ s.pkg) → ∃ u, exec .policy s = .next u ∧ u.sp.st = 3 ∧ u.enclaves = s.enclaves)
          ∧ ((∃ k ∈ ms, k.1 = s.pkg) → (∃ k ∈ ms, k.1 < s.pkg) → (∀ x ∈ s.keyBox, x.1 ≠ id) →
            exec .policy s = .next { s with
              enclaves := s.enclaves.filter (·.id != id) ++ [formed none]
              encCtxs := s.encCtxs.filter (·.2 != id) ++ (p.ctxs.filter (·.1 == s.pkg)).map fun c => (c.2, id)
              quotes := s.quotes.filter (·.2.1 != id), quoted := s.quoted.erase id
              ephemerals := s.ephemerals.filter (·.1 != id), agreed := s.agreed.filter (·.2.1 != id)
              mmio := s.mmio.writeBytes 0x0060_2000 (bytesOf 8 id), sp := { s.sp with st := 2, reason := 0 } })
          ∧ ((∃ k ∈ ms, k.1 = s.pkg) → (∀ k ∈ ms, s.pkg ≤ k.1) → ∃ u kn key, exec .policy s = .next u
            ∧ u.sp.st = 2 ∧ u.enclaves.find? (·.id == id) = some (formed (some (kn, key)))
            ∧ ∀ k ∈ ms, k.1 ≠ s.pkg →
              .packet k.1 0 0 (.groupKey id kn (Config.wrap (pair k.1) key)) ∈ u.out))))
    ∧ (∀ e epoch c sigs, s.enclaves.find? (·.id == e.id) = some e →
      let message := exec (.revocationMessageReceive e.id epoch c sigs) s
      let good := e.epoch < epoch ∧ c < e.keys.length ∧ e.quorum ≤ signers sigs e.keys.length c
      (¬good → message = .next s)
      ∧ (good → ∃ u x, message = .next u ∧ u.enclaves.find? (·.id == e.id) = some x ∧ x.epoch = epoch ∧ c ∈ x.revoked
        ∧ ((s.pkg, c) ∈ e.members →
          (∀ m ∈ s.mastersOf e.id, m.1 ≠ 0 → m ∈ u.frozen)
          ∧ (s.others = [] → (0, s.core.num) ∈ s.mastersOf e.id → u.core.frozen = true ∨ u.core.freezeDue = true))
        ∧ ((s.pkg, c) ∉ e.members →
          (∀ m ∈ e.members, m.1 ≠ s.pkg → .packet m.1 0 0 (.revocation e.id epoch c sigs) ∈ u.out)
          ∧ (∀ p k, (p, k) ∈ x.pairs → (p, c) ∉ e.members)
          ∧ (x.leads s.pkg = false → x.key = none ∧ ∃ v : State, u = v.postError {
              code := 0x12, layer := 12, detail := e.id + 2 ^ 64 * epoch + 2 ^ 96 * c })
          ∧ (x.leads s.pkg = true → ∃ kn key, x.key = some (kn, key) ∧ ∀ p ∈ x.remaining, p ≠ s.pkg →
            ∃ w, .packet p 0 0 (.groupKey e.id kn w) ∈ u.out)
          ∧ (∀ g < 256, ∀ p, Memory.wf s.mmio = true → s.inEnclave e.id (s.groupCtx g) = true → s.groupSt g = 1 →
            s.groupRoot g = false → s.groupParent g = some p → (p, c) ∈ e.members → u.groupSt g = 2)))
      ∧ (s.sp.st = 1 → s.sp.cmd = 5 → s.mmio.readN 0x0060_1000 8 = e.id → s.mmio.readN 0x0060_1008 4 = epoch →
        s.mmio.readN 0x0060_100C 1 = c → s.sigMask e = sigs →
        (¬good → ∃ u, exec .revoke s = .next u ∧ u.sp.st = 3 ∧ { u with sp := s.sp, free := s.free } = s)
        ∧ (good → ∃ u, message = .next u ∧ exec .revoke s = .next { u with sp := { u.sp with st := 2, reason := 0 } })))
    ∧ (∀ kn id src w e, s.keyBox.find? (·.2.1 == kn) = some (id, kn, src, w) → s.enclaves.find? (·.id == id) = some e →
      let u := { s with keyBox := s.keyBox.erase (id, kn, src, w) }
      (e.leads src = false → exec (.groupKeyReceive kn) s = .next u)
      ∧ (∀ y, e.leads src = true → e.pairs.find? (·.1 == src) = some (src, y) →
        (Config.unwrap y w = none → exec (.groupKeyReceive kn) s = .next u)
        ∧ ∀ k, Config.unwrap y w = some k → exec (.groupKeyReceive kn) s = .next { u with
          enclaves := s.enclaves.filter (·.id != e.id) ++ [{ e with
            old := if e.key.isSome then e.key else e.old
            oldNonce := if e.key.isSome then e.nonce else e.oldNonce, key := some (kn, k), nonce := 0, kn := kn }] }))
    ∧ (∀ kn, (∀ x ∈ s.keyBox, x.2.1 = kn → ∀ e ∈ s.enclaves, e.id ≠ x.1) → exec (.groupKeyReceive kn) s = .next s)
    ∧ (∀ e, s.enclaves = [e] → e.old ≠ none → exec .oldKeyExpiry s = .next { s with enclaves := [{ e with old := none }] })
    ∧ ((∀ e ∈ s.enclaves, e.old = none) → exec .oldKeyExpiry s = .next s)

/-- R367-R371, R382: a package that runs goes into reset; there the host's writes through BAR2 bring in the
image and the record. One whose image, record or identity does not verify stays in reset, with the reason 1,
2 or 3 in SPST; one whose all three do is released: every register as at reset, the layers that its record
retires retired, and M0 and M1 measured. -/
def Sys2Proof.Claims.PackageResets : Prop :=
  ∀ (s : State),
    let image := Config.imageOk s.image
    let record := recordOk s.image s.record
    let identity := identityOk s.record
    let r := s.record.take (ofBytes ((s.record.drop 4).take 4))
    let zeros (n : Nat) : List (List Byte) := List.replicate n (List.replicate 64 0)
    let z := State.reset
    -- all but what the boot ROM sets, and what the outside and the model keep: every core and node, the registers,
    -- the vaults, the wells, the enclaves ... are as at reset
    let afresh (u : State) : Prop := { u with
      released := z.released, pkg := z.pkg, layers := z.layers, slotmap := z.slotmap, frameMap := z.frameMap, sp := z.sp
      image := z.image, record := z.record, measures := z.measures
      host := z.host, hbm := z.hbm, out := z.out, due := z.due, tick := z.tick, free := z.free } = z
      ∧ u.host = s.host ∧ u.out = s.out ∧ u.due = s.due ∧ u.tick = s.tick ∧ u.free = s.free
      ∧ u.hbm = s.hbm.filter fun c => decide (2 ^ 40 ≤ c.1)
    let held (u : State) : Prop := exec .packageReset s = .next u ∧ u.released = false ∧ afresh u
      ∧ u.pkg = z.pkg ∧ u.layers = z.layers ∧ u.slotmap = z.slotmap ∧ u.frameMap = z.frameMap
    let stays (n : Nat) (ms : List (List Byte)) : Prop := ∃ u, held u ∧ u.sp = { st := 3, reason := n }
      ∧ u.measures = ms ∧ u.image = s.image ∧ u.record = s.record
    (s.released = true → ∃ u, held u ∧ u.sp = {} ∧ u.image = [] ∧ u.record = [] ∧ u.measures = zeros 8)
    ∧ (∀ off size v, s.released = false → s.behindHost 0 = false → s.frozen.contains (4, 0) = false →
      (∀ i, Config.bootPlace off = some (false, i) → i < s.image.length → size = 1 →
        exec (.space4RegisterWrite off size v) s = .next { s with image := s.image.set i (BitVec.ofNat 8 v) })
      ∧ (∀ i, Config.bootPlace off = some (true, i) → i < s.record.length → size = 1 →
        exec (.space4RegisterWrite off size v) s = .next { s with record := s.record.set i (BitVec.ofNat 8 v) }))
    ∧ (s.released = false → image = false → stays 1 (zeros 8))
    ∧ (s.released = false → image = true → record = false → stays 2 (shake256 s.image 64 :: zeros 7))
    ∧ (s.released = false → image = true → record = true → identity = false →
      stays 3 (shake256 s.image 64 :: shake256 r 64 :: zeros 6))
    ∧ (s.released = false → image = true → record = true → identity = true →
      let ret := ofBytes ((r.drop 10).take 2)
      let slots (m : Vector (BitVec 4) 64) : Prop := ∀ k : Fin 64, m[k] =
        if z.slotmap[k].toNat < 12 ∧ ret.testBit z.slotmap[k].toNat = true then 15#4 else z.slotmap[k]
      ∃ u, exec .packageReset s = .next u ∧ u.released = true ∧ u.sp = {} ∧ afresh u
        ∧ u.image = s.image ∧ u.record = s.record ∧ slots u.slotmap ∧ slots u.frameMap ∧ u.pkg = ofBytes ((r.drop 8).take 2) % 1024
        ∧ u.measures = [shake256 s.image 64, shake256 r 64] ++ List.replicate 6 (List.replicate 64 0)
        ∧ ∀ l : Fin 12, u.layers[l] = if ret.testBit l.val then { state := .retired } else {})

/-- The management mailbox, the enclaves and the reset of a package. The model's own choices in it: log
entries 58, 59, 60, 61, 62, 63, 69 and 98. -/
def Obligations.PackageControl : Prop :=
  Claims.Mailbox_ ∧
  Claims.Enclaves ∧
  Claims.PackageResets

/-! ### The machine as a whole: fetching, decoding, reset, going on (R48-R52, R57, R65, R249, R330) -/

namespace Sys2Proof.Claims

/-- The word `w` of the instruction stream stands at `a`, and the current core may fetch it. -/
def Fetches (s : State) (a : Word) (w : Nat) : Prop :=
  s.sizingWells = false ∧ (∀ p v, s.spaceOf a.toNat ≠ .global p v) ∧
    ∃ segs, s.check fetchAccess a 4 = .ok segs ∧ s.fetchWaits segs = false ∧ ofBytes (s.loadSegs segs) = w

/-- The current core is about to run the instruction at its PC: nothing else is due, it is its turn, and
no boundary event, capture or GLD stands before it (log entry 40). -/
abbrev Ready (s : State) : Prop :=
  s.due = [] ∧ s.released = true ∧ turnAt s.tick = .core ∧ s.canRun = true ∧ s.core.stalled = false
    ∧ s.loadLost = false ∧ s.dataLost = false ∧ s.gated = false ∧ s.core.progress ≠ .ending ∧ s.boundary = none
    ∧ s.core.frame.cap = false

end Sys2Proof.Claims

/-- R51, R52, R57, R65: where the bytes at PC are an instruction, with its literal words, a step
runs that instruction, NPC standing behind it; where they are none, it runs the rejection of the
word. Around it stand the single-step trap, a resumed core's AGED, and the sending of what it
sends. The model's own choices in it: log entries 12, 40 and 97. -/
def Obligations.StepRunsDecoded : Prop :=
  ∀ (s : State) (w x y len : Nat) (i : Instr),
    let u := { s with tick := s.tick + 1 }
    let pc := s.core.pc
    Ready u → Fetches u pc w → wordsOf w = len → len = 1 ∨ len = 2 ∨ len = 3 →
    (2 ≤ len → Fetches u (pc + 4) x) → (len = 3 → Fetches u (pc + 8) y) → (len = 1 → x = 0) → (len < 3 → y = 0) →
    (decodeWord w x y = .ok i ∨ (∃ e, decodeWord w x y = .error e) ∧ i = .illEncoding (BitVec.ofNat 32 w)) →
    -- no pass of a frame with transfers stands before an instruction that does more than change registers (R228)
    (u.frameFirst = true → registersOnly i = true) →
    let b := { u with core := { u.core with
      npc := pc + BitVec.ofNat 64 (4 * len), iw := BitVec.ofNat 32 w, completed := false, brkDue := false, gaveUp := 0 } }
    ∀ t, exec i b = .next t →
      step s = .next (t.settleInstr.afterInstr.seal s.out.length)
      ∧ (t.core.completed = true → t.core.ss = false → t.out = s.out → t.pent = [] →
        step s = .next { t with core := { t.core with resumed := false, late := none } })

/-- R51-R66: words written out from the encoding tables are the instructions that they stand for, and two
that are none are rejected. -/
def Obligations.WordsDecode : Prop :=
  let is (w : Nat) (i : Instr) : Prop := decodeWord w 0 0 = .ok i
  is 0x02188281 (.sub 3 (.reg 4) (.reg 5)) ∧ is 0x0630FFC0 (.andi 6 (.reg 7) (-64))
    ∧ is 0x1430EE64 (.cmpi 6 (.reg 7) .gt 100) ∧ is 0x1C188289 (.fmul 3 (.reg 4) (.reg 5) .rtz)
    ∧ is 0x28281FFD (.loop 5 (-3)) ∧ is 0x2E00000C (.call 12) ∧ is 0x3610A000 (.movaToPointer 2 (.reg 5))
    ∧ is 0x5A000000 .region
    ∧ is 0x70412000 (.rnew 8 (.reg 9)) ∧ is 0x80321401 (.vsub 3 4 5 none) ∧ is 0x8E810D80 (.vfma 8 2 3 (some 1) .rne)
    ∧ is 0xB0000503 (.mma 0 0 1 true false .c8) ∧ is 0xCE20E180 (.repf 1 7 1 4) ∧ is 0xD000A003 (.yield (.reg 5))
    ∧ is 0xD200A300 (.spawn (.reg 5) (.reg 6)) ∧ is 0xE828C380 (.cqwait 5 (.reg 6) (.reg 7))
    ∧ is 0xF2000005 (.trap 5) ∧ is 0xFC308000 (.lctlSleep 6 (.reg 4))
    ∧ decodeWord 0x18189F00 0x804 0 = .ok (.extz 3 (.reg 4) (.lit32 0x804))
    ∧ decodeWord 0 0 0 = .error .major ∧ decodeWord 0xFE000000 0 0 = .error .major

/-- R51-R66: the encoder's words of a well-formed instruction, whatever its operands, decode to it. -/
def Obligations.DecodeEncode : Prop :=
  let trips (is : List Instr) : Prop := ∀ i ∈ is, wellFormed i = true → decodeWords (encode i) = .ok i
  (∀ (a b c : VReg) (d : Mask), trips [.vadd a b c d, .vsub a b c d, .vadds a b c d, .vsubs a b c d,
      .vaddus a b c d, .vsubus a b c d, .vmul a b c d, .vmulh a b c d, .vmulhu a b c d, .vmac a b c d,
      .vdot4 a b c d, .vand a b c d, .vor a b c d, .vxor a b c d, .vandn a b c d, .vsll a b c d,
      .vsrl a b c d, .vsra a b c d, .vror a b c d, .vmin a b c d, .vmax a b c d, .vminu a b c d,
      .vmaxu a b c d, .vfmin a b c d, .vfmax a b c d, .vperm a b c d])
    ∧ (∀ (a b : VReg) (c : Mask), trips [.vnot a b c, .vabs a b c, .vfabs a b c, .vfneg a b c,
      .vcvtUbf16Lo a b c, .vcvtUbf16Hi a b c, .vcvtUf16Lo a b c, .vcvtUf16Hi a b c, .vrev a b c,
      .vredSumS32 a b c, .vredMinS32 a b c, .vredMaxS32 a b c, .vredMinF32 a b c, .vredMaxF32 a b c,
      .vredArgminF32 a b c, .vredArgmaxF32 a b c, .vlaneCompress a b c])
    ∧ (∀ (a b : VReg) (c : BitVec 5) (d : Mask), trips [.vslli a b c d, .vsrli a b c d, .vsrai a b c d,
      .vrori a b c d, .vtopk a b c d])
    ∧ (∀ (a b c : VReg) (d : Mask) (e : Rm), trips [.vfadd a b c d e, .vfsub a b c d e, .vfmul a b c d e,
      .vfma a b c d e, .vfms a b c d e, .vfnma a b c d e, .vfdiv a b c d e])
    ∧ (∀ (a b : VReg) (c : Mask) (d : Rm), trips [.vfsqrt a b c d, .vfrecip a b c d, .vfrsqrt a b c d,
      .vcvtS32 a b c d, .vcvtZ32 a b c d, .vcvtF32S32 a b c d, .vcvtF32Z32 a b c d, .vredSumF32 a b c d])
    ∧ (∀ (a b c : VReg) (d : Rm), trips [.vcvtPbf16 a b c d, .vcvtPf16 a b c d])
    ∧ (∀ (a : MReg) (b c : VReg) (d : Mask) (e : VCond), trips [.vcmp a b c d e])
    ∧ (∀ (a b c : MReg), trips [.vmaskAnd a b c, .vmaskOr a b c, .vmaskXor a b c, .vmaskAndn a b c])
    ∧ (∀ (a b : MReg), trips [.vmaskNot a b, .movmMaskMask a b])
    ∧ (∀ (a : MReg), trips [.vmaskSet a, .vmaskClr a])
    ∧ (∀ (a b c : VReg) (d : MReg), trips [.vsel a b c d])
    ∧ (∀ (a : VReg) (b : Mask), trips [.vlaneIota a b])
    ∧ (∀ (a b c : VReg) (d : Mask) (e : BitVec 6), trips [.vslide a b c d e])
    ∧ (∀ (a : CReg) (b c : TReg) (d e : Bool) (f : Ty), trips [.mma a b c d e f])
    ∧ (∀ (a : CReg) (b : TReg) (c : Fin 32) (d e : Bool) (f : Ty), trips [.mmaw a b c d e f])
    ∧ (∀ (a : VReg) (b : CReg) (c : BitVec 6) (d : Bool) (e : Rm) (f : Tp), trips [.accrd a b c d e f])
    ∧ (∀ (a : CReg) (b : Bool), trips [.accclr a b])
    ∧ (∀ (a b : TReg), trips [.tmov a b, .tmovT16 a b, .tmovT8 a b])
    ∧ (∀ (a : TReg) (b : VReg) (c : Fin 32), trips [.tmovVr a b c])
    ∧ (∀ (a : VReg) (b : TReg) (c : Fin 32), trips [.tmovRv a b c])
    ∧ (∀ (a : TReg), trips [.tmovZero a])
    ∧ (∀ (a : XReg) (b c : XSrc), trips [.add a b c, .sub a b c, .and a b c, .or a b c, .xor a b c,
      .andn a b c, .orn a b c, .xnor a b c, .sll a b c, .srl a b c, .sra a b c, .ror a b c, .min a b c,
      .max a b c, .minu a b c, .maxu a b c, .addW a b c, .subW a b c, .sllW a b c, .srlW a b c,
      .sraW a b c, .rorW a b c, .mul a b c, .mulh a b c, .mulhu a b c, .mulhsu a b c, .mulW a b c,
      .madd a b c, .div a b c, .divu a b c, .rem a b c, .remu a b c, .divW a b c, .divuW a b c,
      .remW a b c, .remuW a b c, .extz a b c, .exts a b c, .ins a b c, .fmin a b c, .fmax a b c,
      .feq a b c, .flt a b c, .fle a b c, .bkopSumS32 a b c, .bkopSumF32 a b c, .bkopMinS32 a b c,
      .bkopMaxS32 a b c, .bkopMinF32 a b c, .bkopMaxF32 a b c, .bkopArgminS32 a b c, .bkopArgmaxS32 a b c,
      .rstatLanded a b c, .rstatAbsent a b c, .rstatFlags a b c, .barInit a b c, .joinArm a b c,
      .csetup a b c, .cqpost a b c, .cqwait a b c, .gatekOpen a b c])
    ∧ (∀ (a : XReg) (b : XSrc) (c : BitVec 13), trips [.addi a b c, .andi a b c, .ori a b c, .xori a b c,
      .movx a b c])
    ∧ (∀ (a : XReg) (b : XSrc) (c : Bool) (d : BitVec 6), trips [.slli a b c d, .srli a b c d, .srai a b c d,
      .rori a b c d])
    ∧ (∀ (a : XReg) (b c : XSrc) (d : Cond), trips [.cmp a b c d])
    ∧ (∀ (a : XReg) (b : XSrc) (c : Cond) (d : BitVec 9), trips [.cmpi a b c d])
    ∧ (∀ (a : XReg) (b c : XSrc) (d : XReg), trips [.sel a b c d, .seln a b c d])
    ∧ (∀ (a : XReg) (b : XSrc), trips [.clz a b, .ctz a b, .popc a b, .brev a b, .bswap a b, .fclass a b,
      .fneg a b, .fabs a b, .fwidenBf16 a b, .fwidenF16 a b, .jalr a b, .mov a b, .copy a b, .rnew a b,
      .radv a b, .rstatGen a b, .rstatLate a b, .rstatCounts a b, .rstatClear a b, .barArr a b,
      .barRead a b, .joinArr a b, .joinRead a b, .compose a b, .trigRead a b, .cabortSeq a b,
      .dispatch a b, .gstop a b, .gstopGo a b, .freeze a b, .unfreeze a b, .lctlSleep a b, .lctlDrowsy a b,
      .lctlWake a b, .lctlRetire a b])
    ∧ (∀ (a : XReg) (b c : XSrc) (d : BitVec 3), trips [.addsh a b c d])
    ∧ (∀ (a : XReg) (b c : XSrc) (d : Rm), trips [.fadd a b c d, .fsub a b c d, .fmul a b c d, .fdiv a b c d,
      .fmadd a b c d])
    ∧ (∀ (a : XReg) (b : XSrc) (c : Rm), trips [.fsqrt a b c, .fcvti a b c, .fcvtiu a b c, .fcvtf a b c,
      .fcvtfu a b c, .fnarrowBf16 a b c, .fnarrowF16 a b c])
    ∧ (∀ (a : BitVec 25), trips [.hint a, .j a, .call a])
    ∧ (∀ (a b : XSrc) (c : BitVec 13), trips [.beq a b c, .bne a b c, .blt a b c, .bge a b c, .movxw a b c])
    ∧ (∀ (a : XReg) (b : BitVec 13), trips [.loop a b])
    ∧ (∀ (a : XSrc), trips [.jr a, .ret a, .waitr a, .rfree a, .phaseOr a, .phaseMax a, .yield a, .barSync a,
      .crel a, .cabort a, .xinvAsid a])
    ∧ (∀ (a : AReg) (b : XSrc), trips [.movaToPointer a b])
    ∧ (∀ (a : XReg) (b : AReg), trips [.movaFromPointer a b])
    ∧ (∀ (a b : AReg) (c : XSrc), trips [.adda a b c])
    ∧ (∀ (a b : AReg), trips [.movaPointerPointer a b])
    ∧ (∀ (a : QReg) (b : XSrc), trips [.movqSend a b])
    ∧ (∀ (a : XReg) (b : QReg), trips [.movqReadSend a b, .movqReceive a b])
    ∧ (∀ (a : XReg) (b : SReg), trips [.movs a b, .movsS a b, .sctlPos a b, .sctlLeft a b])
    ∧ (∀ (a : XReg) (b : BitVec 6) (c : BitVec 13), trips [.li a b c])
    ∧ (∀ (a : MReg) (b : XSrc), trips [.movmToMask a b])
    ∧ (∀ (a : XReg) (b : MReg), trips [.movmFromMask a b])
    ∧ (∀ (a : XReg) (b : XSrc) (c : BitVec 4) (d : LdType) (e : BitVec 6), trips [.ld a b c d e])
    ∧ (∀ (a : XReg) (b c : XSrc) (d : Bool) (e : LdType), trips [.ldx a b c d e])
    ∧ (∀ (a : XReg) (b : XSrc) (c : Scope) (d : LdType) (e f : Bool) (g : BitVec 4), trips [
      .lda a b c d e f g])
    ∧ (∀ (a b : XSrc) (c : StWidth) (d : BitVec 10), trips [.st a b c d])
    ∧ (∀ (a b c : XSrc) (d : Bool) (e : StWidth), trips [.stx a b c d e])
    ∧ (∀ (a b : XSrc) (c : Scope) (d : StWidth) (e f : Bool) (g : BitVec 4), trips [.stl a b c d e f g])
    ∧ (∀ (a : VReg) (b : VMode) (c : Mask), trips [.vld a b c, .vst a b c])
    ∧ (∀ (a : XReg) (b c : XSrc) (d e f : Bool), trips [.amoSwap a b c d e f, .amoAdd a b c d e f,
      .amoAnd a b c d e f, .amoOr a b c d e f, .amoXor a b c d e f, .amoMin a b c d e f,
      .amoMax a b c d e f, .amoMinu a b c d e f, .amoMaxu a b c d e f, .amoCas a b c d e f])
    ∧ (∀ (a : XReg) (b c : XSrc) (d e : Bool), trips [.amoFadd a b c d e])
    ∧ (∀ (a b c : XSrc), trips [.bkopFill a b c])
    ∧ (∀ (a : Scope), trips [.fenceFull a, .fenceAcq a, .fenceRel a])
    ∧ (∀ (a : XReg) (b : XSrc) (c : BitVec 4) (d : BitVec 5), trips [.spinw a b c d])
    ∧ (∀ (a : XSrc) (b : Bool) (c : BitVec 12), trips [.touch a b c])
    ∧ (trips [.region, .waitrAll, .accswap, .done, .msgDrop, .decompose, .eret, .xinvAll, .xinvSync])
    ∧ (∀ (a b : XSrc) (c : BitVec 4) (d : BitVec 2), trips [.gld a b c d])
    ∧ (∀ (a b : XSrc) (c : BitVec 2) (d : Bool), trips [.gst a b c d])
    ∧ (∀ (a : SReg) (b : XSrc), trips [.copys a b, .sctlSkip a b])
    ∧ (∀ (a : SReg) (b c : XSrc) (d : BitVec 2), trips [.sbind a b c d])
    ∧ (∀ (a : SReg), trips [.sctlUnbind a])
    ∧ (∀ (a b c : XSrc) (d e f : Bool), trips [.rpost a b c d e f])
    ∧ (∀ (a : XReg) (b c : XSrc) (d : Bool), trips [.rread a b c d, .rdelta a b c d])
    ∧ (∀ (a b : XSrc), trips [.rabsent a b, .spawn a b, .barw a b, .trigAdd a b, .trigSet a b, .xinvPage a b])
    ∧ (∀ (a : VReg) (b : XSrc), trips [.vbcast a b, .gatek a b])
    ∧ (∀ (a b : VReg) (c : XSrc), trips [.vbcastLane a b c])
    ∧ (∀ (a : XReg) (b : VReg) (c : XSrc), trips [.vmovx a b c, .vmovxS a b c])
    ∧ (∀ (a : CReg) (b : XSrc) (c : TReg) (d e f : Bool) (g : Ty), trips [.mmam a b c d e f g])
    ∧ (∀ (a : CReg) (b c : X5Reg) (d e : Bool) (f : Rm) (g : Tp), trips [.accst a b c d e f g,
      .accld a b c d e f g])
    ∧ (∀ (a : XReg) (b : CReg), trips [.accstat a b])
    ∧ (∀ (a : TReg) (b c : X5Reg), trips [.tld a b c, .tst a b c])
    ∧ (∀ (a : Fin 32) (b : X5Reg), trips [.tldW a b])
    ∧ (∀ (a : X5Reg) (b : Bool), trips [.tabld a b])
    ∧ (∀ (a : Fin 4), trips [.tabldPreset a])
    ∧ (∀ (a b : VReg) (c : Fin 4), trips [.enc a b c, .dec a b c])
    ∧ (∀ (a : BitVec 4) (b : BitVec 8) (c : BitVec 5) (d : BitVec 3), trips [.repf a b c d])
    ∧ (∀ (a : XReg), trips [.msgPoll a, .msgHdr a])
    ∧ (∀ (a : XReg) (b : BitVec 12), trips [.csrr a b])
    ∧ (∀ (a : XSrc) (b : BitVec 12), trips [.csrw a b, .csrs a b, .csrc a b])
    ∧ (∀ (a : BitVec 13), trips [.trap a, .brk a])

/-- Every step of the machine ends in a next state: no fault and no refusal stops a run. The
model's own choice in it: log entry 40. -/
def Obligations.EveryStepGoesOn : Prop :=
  (∀ (i : Instr) (s : State), Goes (exec i s)) ∧ ∀ s : State, Goes (step s)

/-- R50, R249, R250: slot 0 of the mirror's frame stays the base die's, in the map and in the
frame that runs, whatever step is taken. The model's own choice in it: log entry 40. -/
def Obligations.SlotZeroKept : Prop :=
  ∀ (s t : State), s.slot0 → step s = .next t → t.slot0

/-- R50, R250: slot 0 is the base die's at reset. -/
def Sys2Proof.Claims.SlotZeroAtReset : Prop := State.reset.slot0

/-- R48-R50, R151, R220, R308, R309, R325, R330, R350, R380, R382: the control registers at reset, the well areas, the
windows, the sensors, the entries and anchors of the stacks' page tables, and the state of the layers. The memories
are in their canonical form. -/
def Sys2Proof.Claims.ResetValues : Prop :=
  let s := State.reset
  (∀ n ∈ [0x001, 0x002, 0x005, 0x006, 0x007, 0x008, 0x009, 0x00A, 0x00B, 0x403, 0x404, 0x405, 0x406, 0x408, 0x800, 0xC00],
    s.csr n = some 0)
  -- TBLST shows a preset, 0, whose encode sequence serves; GEOM a core that is in no ligature
  ∧ s.csr 0x407 = some 5 ∧ (∃ v, s.csr 0x401 = some v ∧ v.toNat / 2 ^ 32 = 0 ∧ v.toNat % 2 ^ 13 = s.core.num)
  ∧ (∀ k < 768, s.reg (0x0053_0000 + 8 * k) 8 = 0) ∧ (∀ f < 64, s.reg (0x0041_0000 + 8 * f) 8 = 0)
  ∧ (∀ l < 13, s.reg (0x0052_0000 + 8 * l) 8 = 0)
  ∧ (∀ t < 8, ∀ f < 2 ^ 15, s.pte t f = 0) ∧ (∀ t < 8, ∀ i < 2 ^ 16, s.anchor t i = 0)
  ∧ s.csr 0x003 = some 1 ∧ s.csr 0x804 = some 0x20
  ∧ (∀ k : Fin 64, s.slotmap[k] = if k.val = 0 ∨ 61 ≤ k.val then 12#4 else BitVec.ofNat 4 (k.val % 12))
  ∧ (∀ i < 16, s.csr (0x810 + i) = some 0)
  ∧ (∀ p < 16, s.reg (0x0040_0000 + 0x100 * p) 4 = 250 ∧ s.reg (0x0040_0004 + 0x100 * p) 1 = 16)
  ∧ (∀ l : Fin 12, s.layers[l].state = .awake) ∧ s.memOk = true

/-- The machine after reset: slot zero reads as it should, and every register the rules give a value has
it. The model's own choices in it: log entries 2 and 69. -/
def Obligations.Reset : Prop :=
  Claims.SlotZeroAtReset ∧
  Claims.ResetValues
end

