-- ==== Sys2Proof/Laws/Memory.lean ====
section
/-! SUPPORT. What the operations of a byte memory do: a read after a write, and the canonical form. -/

namespace Sys2Proof.Machine

/-! ### Reads after writes -/

@[simp] theorem Memory.read_nil (a : Nat) : Memory.read [] a = 0 := rfl

theorem Memory.read_cons (c : Host.Cell) (t : Memory) (a : Nat) :
    Memory.read (c :: t) a = if c.1 = a then c.2 else Memory.read t a := rfl

theorem Memory.wfFrom_cons (lo : Nat) (c : Host.Cell) (t : Memory) :
    Memory.wfFrom lo (c :: t) = true ↔ lo ≤ c.1 ∧ c.2 ≠ 0 ∧ Memory.wfFrom (c.1 + 1) t = true := by
  simp [Memory.wfFrom, and_assoc]

theorem Memory.wfFrom_mono {lo hi : Nat} (h : lo ≤ hi) : ∀ {m : Memory},
    Memory.wfFrom hi m = true → Memory.wfFrom lo m = true
  | [], _ => rfl
  | c :: t, w => by
    rw [Memory.wfFrom_cons] at *
    exact ⟨by omega, w.2⟩

/-- Below the first address a memory in canonical form lists nothing. -/
theorem Memory.read_below {lo a : Nat} (h : a < lo) : ∀ {m : Memory},
    Memory.wfFrom lo m = true → Memory.read m a = 0
  | [], _ => rfl
  | c :: t, w => by
    rw [Memory.wfFrom_cons] at w
    have : c.1 ≠ a := by omega
    simpa [Memory.read_cons, this] using Memory.read_below (by omega) w.2.2

theorem Memory.read_write_from : ∀ {lo : Nat} {m : Memory}, Memory.wfFrom lo m = true →
    ∀ (a : Nat) (v : Byte) (b : Nat),
      Memory.read (Memory.write m a v) b = if a = b then v else Memory.read m b
  | _, [], _, a, v, b => by
    by_cases h : v = 0#8
    · subst h; simp [Memory.write]
    · simp [Memory.write, h, Memory.read_cons]
  | lo, c :: t, w, a, v, b => by
    rw [Memory.wfFrom_cons] at w
    have below (h : b ≤ c.1) : Memory.read t b = 0 := Memory.read_below (by omega) w.2.2
    have ih := Memory.read_write_from w.2.2 a v b
    simp only [Memory.write]
    split
    · split
      · split_ifs with hab
        · subst hab; rw [Memory.read_cons, if_neg (by omega), below (by omega)]; exact Eq.symm ‹v = 0›
        · rfl
      · rw [Memory.read_cons]
    · split
      · split <;> simp only [Memory.read_cons] <;> split_ifs <;> simp_all
      · simp only [Memory.read_cons, ih]
        split_ifs <;> simp_all

/-- A read after a write: the byte written, at its place, and every other byte as it was. -/
theorem Memory.read_write {m : Memory} (w : m.wf = true) (a : Nat) (v : Byte) (b : Nat) :
    (m.write a v).read b = if a = b then v else m.read b := Memory.read_write_from w a v b

/-! ### The canonical form is kept -/

theorem Memory.wfFrom_write : ∀ {lo : Nat} {m : Memory} {a : Nat} (v : Byte),
    Memory.wfFrom lo m = true → lo ≤ a → Memory.wfFrom lo (Memory.write m a v) = true
  | lo, [], a, v, _, h => by
    by_cases hv : v = 0#8
    · subst hv; rfl
    · simp [Memory.write, hv, Memory.wfFrom, h]
  | lo, c :: t, a, v, w, h => by
    have w' := w
    rw [Memory.wfFrom_cons] at w
    simp only [Memory.write]
    split
    · split
      · exact w'
      · rw [Memory.wfFrom_cons, Memory.wfFrom_cons]
        exact ⟨h, ‹_›, by omega, w.2⟩
    · split
      · split
        · exact Memory.wfFrom_mono (by omega) w.2.2
        · rw [Memory.wfFrom_cons]
          exact ⟨h, ‹_›, by subst a; exact w.2.2⟩
      · rw [Memory.wfFrom_cons]
        exact ⟨w.1, w.2.1, Memory.wfFrom_write v w.2.2 (by omega)⟩

theorem Memory.wf_write {m : Memory} (w : m.wf = true) (a : Nat) (v : Byte) :
    (m.write a v).wf = true := Memory.wfFrom_write v w (Nat.zero_le a)

theorem Memory.wf_writeN : ∀ (n : Nat) {m : Memory} (a v : Nat), m.wf = true → (m.writeN a n v).wf = true
  | 0, _, _, _, w => w
  | n + 1, _, a, v, w => Memory.wf_writeN n (a + 1) (v / 256) (Memory.wf_write w a _)

theorem Memory.wf_writeBytes : ∀ (bs : List Byte) {m : Memory} (a : Nat), m.wf = true →
    (m.writeBytes a bs).wf = true
  | [], _, _, w => w
  | b :: t, _, a, w => Memory.wf_writeBytes t (a + 1) (Memory.wf_write w a b)

/-- Dropping cells keeps the form. -/
theorem Memory.wfFrom_filter (p : Host.Cell → Bool) : ∀ {lo : Nat} {m : Memory},
    Memory.wfFrom lo m = true → Memory.wfFrom lo (m.filter p) = true
  | _, [], _ => rfl
  | lo, c :: t, w => by
    rw [Memory.wfFrom_cons] at w
    have ih := Memory.wfFrom_filter p w.2.2
    simp only [List.filter_cons]
    split
    · exact (Memory.wfFrom_cons _ _ _).2 ⟨w.1, w.2.1, ih⟩
    · exact Memory.wfFrom_mono (by omega) ih

theorem Memory.wf_filter {m : Memory} (p : Host.Cell → Bool) (w : m.wf = true) :
    Memory.wf (m.filter p) = true := Memory.wfFrom_filter p w

theorem Memory.wf_clear {m : Memory} (w : m.wf = true) (a n : Nat) : (m.clear a n).wf = true :=
  Memory.wf_filter _ w

/-- Counting addresses from a lower bound of them keeps the form. -/
theorem Memory.wfFrom_map_sub (a : Nat) : ∀ {lo : Nat} {m : Memory}, Memory.wfFrom lo m = true →
    (∀ c ∈ m, a ≤ c.1) → Memory.wfFrom (lo - a) (m.map fun c => (c.1 - a, c.2)) = true
  | _, [], _, _ => rfl
  | lo, c :: t, w, h => by
    rw [Memory.wfFrom_cons] at w
    have hc : a ≤ c.1 := h c (by simp)
    have ih := Memory.wfFrom_map_sub a w.2.2 (fun d hd => h d (by simp [hd]))
    simp only [List.map_cons]
    rw [Memory.wfFrom_cons]
    exact ⟨by simp only; omega, w.2.1, Memory.wfFrom_mono (by simp only; omega) ih⟩

theorem Memory.wf_slice {m : Memory} (w : m.wf = true) (a n : Nat) : (m.slice a n).wf = true := by
  have h := Memory.wfFrom_map_sub a
    (Memory.wf_filter (fun c => decide (a ≤ c.1) && decide (c.1 < a + n)) w)
    (fun c hc => by simp at hc; exact hc.2.1)
  exact Memory.wfFrom_mono (Nat.zero_le _) h

/-! ### Numbers and bytes -/

theorem bytesOf_length : ∀ n v : Nat, (bytesOf n v).length = n
  | 0, _ => rfl
  | n + 1, v => by simp [bytesOf, bytesOf_length n]

/-- The bytes of a number that fits make the number again. -/
theorem ofBytes_bytesOf : ∀ n v : Nat, ofBytes (bytesOf n v) = v % 256 ^ n
  | 0, v => by simp [bytesOf, ofBytes, Nat.mod_one]
  | n + 1, v => by
    have ih := ofBytes_bytesOf n (v / 256)
    simp only [bytesOf, ofBytes, ih, BitVec.toNat_ofNat, show 2 ^ 8 = 256 from rfl]
    rw [Nat.pow_succ, Nat.mul_comm (256 ^ n) 256, Nat.mod_mul]

theorem readBytes_length (m : Memory) : ∀ n a : Nat, (m.readBytes a n).length = n
  | 0, _ => rfl
  | n + 1, a => by simp [Memory.readBytes, readBytes_length m n]

/-- Outside the bytes stored, a store of bytes changes nothing. -/
theorem Memory.read_writeBytes_other : ∀ (bs : List Byte) {m : Memory} (a b : Nat), m.wf = true →
    (b < a ∨ a + bs.length ≤ b) → (m.writeBytes a bs).read b = m.read b
  | [], _, _, _, _, _ => rfl
  | x :: t, m, a, b, w, h => by
    simp only [List.length_cons] at h
    have hb : a ≠ b := by omega
    simp only [Memory.writeBytes]
    rw [Memory.read_writeBytes_other t (a + 1) b (Memory.wf_write w a x) (by omega),
      Memory.read_write w, if_neg hb]

/-- A read of the bytes stored gives them. -/
theorem Memory.readBytes_writeBytes : ∀ (bs : List Byte) {m : Memory} (a : Nat), m.wf = true →
    (m.writeBytes a bs).readBytes a bs.length = bs
  | [], _, _, _ => rfl
  | x :: t, m, a, w => by
    have w' := Memory.wf_write w a x
    simp only [Memory.writeBytes, List.length_cons, Memory.readBytes]
    rw [Memory.readBytes_writeBytes t (a + 1) w', Memory.read_writeBytes_other t _ _ w' (by omega),
      Memory.read_write w, if_pos rfl]

/-! ### Reset -/

/-- Every memory of the machine after reset is in its canonical form. -/
theorem reset_memories : Memory.wf State.reset.vault = true ∧ Memory.wf State.reset.hbm = true
    ∧ Memory.wf State.reset.mirror = true ∧ Memory.wf State.reset.mmio = true
    ∧ Memory.wf State.reset.host = true ∧ State.reset.core.memOk = true := by decide

end Sys2Proof.Machine
end

