-- ==== Sys2Proof/Laws/Ops.lean ====
section
/-! SUPPORT. What each shared operation of the instructions does, said once. -/

namespace Sys2Proof.Machine

/-! ### The register checks -/

theorem badReg_eq_none {s : State} {fields : List Nat} (h : ∀ i ∈ fields, i = 0 ∨ i < s.core.rlim) :
    s.badReg fields = none := by
  simp only [State.badReg, List.find?_eq_none]
  intro i hi
  rcases h i hi with h | h <;> simp [h]

theorem poisonedCell_eq_none {s : State} {cells : List Nat}
    (h : ∀ c ∈ cells, Place.reg s.core.num c ∉ s.poison) : s.poisonedCell cells = none := by
  simp only [State.poisonedCell]
  split
  · rfl
  · simpa [List.find?_eq_none] using h

/-- An instruction whose registers all pass goes on. -/
theorem guard_pass {s : State} {fields cells : List Nat} {k : Out}
    (hf : ∀ i ∈ fields, i = 0 ∨ i < s.core.rlim) (hw : s.awaits fields = false)
    (hc : ∀ c ∈ cells, Place.reg s.core.num c ∉ s.poison) : s.guard fields cells k = k := by
  simp only [State.guard, badReg_eq_none hf, hw, Bool.false_eq_true, if_false]
  rw [poisonedCell_eq_none]
  split
  · exact fun c h => hc c (List.mem_filter.1 h).1
  · exact hc

/-- R39: the first field that names a register beyond RLIM.REQ traps. -/
theorem guard_regidx {s : State} {pre post cells : List Nat} {i : Nat} {k : Out}
    (hp : ∀ j ∈ pre, j = 0 ∨ j < s.core.rlim) (h0 : i ≠ 0) (hi : s.core.rlim ≤ i) :
    s.guard (pre ++ i :: post) cells k = s.trap .regidx (BitVec.ofNat 64 i) := by
  have : s.badReg (pre ++ i :: post) = some i := by
    have hn := badReg_eq_none hp
    simp only [State.badReg] at hn ⊢
    rw [List.find?_append, hn]
    simp [h0, hi]
  simp only [State.guard, this]

/-- What the checks can do: go on, trap with REGIDX or POISON, or wait for a remote load (R352). -/
theorem guard_cases (s : State) (fields cells : List Nat) (k : Out) :
    s.guard fields cells k = k
      ∨ (∃ i ∈ fields, i ≠ 0 ∧ s.core.rlim ≤ i ∧ s.guard fields cells k = s.trap .regidx (BitVec.ofNat 64 i))
      ∨ (∃ c ∈ cells, s.guard fields cells k = s.trap .poison (cellAddr s.core.num c))
      ∨ (s.awaits fields = true ∧ s.guard fields cells k = .next s.stall) := by
  simp only [State.guard]
  split
  · rename_i i h
    have hp := List.find?_some h
    simp only [Bool.and_eq_true, bne_iff_ne, decide_eq_true_eq] at hp
    exact .inr (.inl ⟨i, List.mem_of_find?_eq_some h, hp.1, hp.2, rfl⟩)
  · split
    · rename_i hw; exact .inr (.inr (.inr ⟨hw, rfl⟩))
    · split
      · rename_i c h
        refine .inr (.inr (.inl ⟨c, ?_, rfl⟩))
        simp only [State.poisonedCell] at h
        split at h
        · cases h
        · have hm := List.mem_of_find?_eq_some h
          split at hm
          · exact (List.mem_filter.1 hm).1
          · exact hm
      · exact .inl rfl

/-! ### Every shared operation answers a next state where its continuation does -/

theorem goes_next (s : State) : Goes (.next s) := ⟨s, rfl⟩
theorem goes_trap (s : State) (c : Cause) (tv : Word) : Goes (s.trap c tv) := ⟨_, rfl⟩
theorem goes_ill (s : State) : Goes s.ill := ⟨_, rfl⟩

theorem goes_guard {s : State} {f c : List Nat} {k : Out} (h : Goes k) : Goes (s.guard f c k) := by
  rcases guard_cases s f c k with e | ⟨i, -, -, -, e⟩ | ⟨c, -, e⟩ | ⟨-, e⟩ <;> rw [e]
  · exact h
  · exact goes_trap ..
  · exact goes_trap ..
  · exact goes_next _

theorem goes_vmu {s : State} {k : Out} (h : Goes k) : Goes (s.vmu k) := by
  simp only [State.vmu]; split
  · exact goes_next _
  · exact h

/-- R203: an instruction of the vector unit goes on with what the arbiter leaves, or waits. -/
theorem goes_vmuUse {s : State} {a : Bool} {k : State → Out} (h : ∀ u, Goes (k u)) : Goes (s.vmuUse a k) := by
  simp only [State.vmuUse]; split
  · exact h _
  · exact goes_next _

/-- R203: a granted instruction changes its quad's arbiter and its own place in the queue, nothing else. -/
theorem vmuTake_eq {s u : State} {a : Bool} (h : s.vmuTake a = some u) :
    ∃ vs, u = { s with vmus := vs, core := { s.core with vmuWait := none } } := by
  simp only [State.vmuTake, State.setVmu] at h
  split at h
  · cases h
  · split at h
    · cases h; exact ⟨_, rfl⟩
    · split at h
      · split at h <;> cases h
        exact ⟨_, rfl⟩
      · cases h

/-- A packet whose way is clear goes on. -/
theorem onRoute_clear {s : State} {rs : List Nat} {k : Out} (h : s.routeHeld rs = false) : s.onRoute rs k = k := by
  simp [State.onRoute, h]

theorem goes_onRoute {s : State} {rs : List Nat} {k : Out} (h : Goes k) : Goes (s.onRoute rs k) := by
  simp only [State.onRoute]; split
  · exact goes_next _
  · exact h

theorem goes_privileged {s : State} {k : Out} (h : Goes k) : Goes (s.privileged k) := by
  simp only [State.privileged]; split
  · exact h
  · exact goes_trap ..

theorem goes_refuse (s : State) (k : Kind) (c : Check) : Goes (s.refuse k c) := by
  cases c <;> first | exact goes_trap .. | exact goes_next _

theorem goes_checkGlobal {s : State} {i : Nat} {a : Word} {n pkg va : Nat} {kind : Kind} {pin : Bool}
    {k : State → Out} (h : ∀ u, Goes (k u)) : Goes (s.checkGlobal i a n pkg va kind pin k) := by
  simp only [State.checkGlobal]
  split
  · split <;> first | exact h _ | exact goes_next _
  · split <;> first | exact h _ | exact goes_next _
  · split
    · exact h _
    · split <;> first | exact goes_trap .. | exact h _ | exact goes_next _
  · exact goes_next _

theorem goes_access {s : State} {acc : Access} {a : Word} {n : Nat} {k : List (Home × Nat) → Out}
    (h : ∀ g, Goes (k g)) : Goes (s.access acc a n k) := by
  simp only [State.access]; split
  · exact h _
  · split
    · exact goes_checkGlobal fun _ => goes_refuse ..
    · exact goes_refuse ..
  · exact goes_refuse ..

theorem goes_accesses {s : State} {acc : Access} : ∀ (l : List (Word × Nat))
    {k : List (List (Home × Nat)) → Out}, (∀ g, Goes (k g)) → Goes (s.accesses acc l k)
  | [], _, h => h []
  | (_, _) :: t, _, h => goes_access fun g => goes_accesses t fun gs => h (g :: gs)

/-! ### Registers -/

@[simp] theorem rx_zero (s : State) : s.rx 0 = 0 := rfl

/-- R356 and R36: what a write to a register leaves. -/
theorem unpoison_eq (s : State) (cell : Nat) :
    s.unpoison cell = { s with poison := s.poison.filter (· != .reg s.core.num cell) } := by
  simp only [State.unpoison]
  split
  · rename_i h
    obtain h := List.isEmpty_iff.1 h
    cases s; simp_all
  · rfl

theorem setX_eq (s : State) (r : XReg) (v : Word) : s.setX r v =
    { s with
      core := { s.core with x := if r.val = 0 then s.core.x else s.core.x.set r.val v }
      poison := if r.val = 0 then s.poison
        else s.poison.filter (· != .reg s.core.num (cellX r.val)) } := by
  simp only [State.setX]
  split
  · rfl
  · rw [unpoison_eq]

/-- A register reads as it was written, x0 as zero, and every other register as before. -/
theorem rx_setX (s : State) (r q : XReg) (v : Word) :
    (s.setX r v).rx q = if q.val = 0 then 0 else if q = r then v else s.rx q := by
  rw [setX_eq]
  simp only [State.rx, Fin.ext_iff]
  split_ifs <;> simp_all [Vector.getElem_set, eq_comm]

/-! ### Region marks -/

theorem addPin_core (s : State) (asid vpn : Nat) (up : Bool) : (s.addPin asid vpn up).core = s.core := by
  simp only [State.addPin]; split
  · simp only [State.setPte]; split_ifs <;> rfl
  · rfl

theorem sendRequest_core (s : State) (r : Request) : (s.sendRequest r).core = s.core := by
  simp only [State.sendRequest]; split <;> rfl

theorem unpin_core (s : State) (p : Nat × Nat × Nat) : (s.unpin p).core = s.core := by
  simp only [State.unpin]; split_ifs
  · rfl
  · exact addPin_core ..
  · exact sendRequest_core ..

theorem foldl_unpin_core : ∀ (l : List (Nat × Nat × Nat)) (s : State), (l.foldl State.unpin s).core = s.core
  | [], _ => rfl
  | p :: t, s => by rw [List.foldl_cons, foldl_unpin_core t, unpin_core]

/-- R121: with the pins released, the core holds none and is otherwise as it was. -/
theorem releasePins_core (s : State) : s.releasePins.core = { s.core with pins := [] } := foldl_unpin_core ..

/-- R110, R235: a new region begins at PC; the rest of the core is as it was. -/
theorem newRegion_core (s : State) : s.newRegion.core = { s.core with
    pins := [], snap := ({ s.core with pins := [] } : Core).takeSnap, sbOld := s.core.sb.length
    s := s.core.s.map fun t => t.map fun u => { u with back := [] }
    frame := { s.core.frame with here := false } } := by
  simp only [State.newRegion, releasePins_core]

/-- With no page pinned, a region mark changes nothing outside the core. -/
theorem releasePins_of_none {s : State} (h : s.core.pins = []) : s.releasePins = s := by
  obtain ⟨c⟩ := s
  obtain ⟨⟩ := c
  simp only at h
  subst h
  rfl

/-! ### Taking a trap and returning from one -/

/-- R186: a trap of a task with P = 0, a handler entry and no debugger is delivered. -/
theorem takeTrapAt_deliver {s : State} {c : Cause} {tv pc : Word} {t : Task}
    (ht : s.core.task = some t) (hd : s.dbgEn s.core.ctx = false) (hp : s.core.p = false)
    (he : t.hdr.handler ≠ 0) : s.takeTrapAt c tv pc = s.deliver c tv pc := by
  have : (t.hdr.handler == 0) = false := by simpa using he
  simp only [State.takeTrapAt, State.dbgCatch, hd, hp, ht, Option.map_some, Option.getD_some, this]
  rfl

/-- R362: with P = 1 the core is frozen by violation 1. -/
theorem takeTrapAt_violate {s : State} {c : Cause} {tv pc : Word}
    (hd : s.dbgEn s.core.ctx = false) (hp : s.core.p = true) :
    s.takeTrapAt c tv pc = s.violate 1 c.code pc := by
  simp [State.takeTrapAt, State.dbgCatch, hd, hp]

/-! ### Checks of accesses and the store buffer -/

theorem access_ok {s : State} {acc : Access} {a : Word} {n : Nat} {g : List (Home × Nat)}
    {k : List (Home × Nat) → Out} (h : s.check acc a n = .ok g) : s.access acc a n k = k g := by
  simp only [State.access, h]

theorem access_trap {s : State} {acc : Access} {a : Word} {n : Nat} {c : Cause} {tv : Word}
    {k : List (Home × Nat) → Out} (h : s.check acc a n = .trap c tv) :
    s.access acc a n k = s.trap c tv := by
  simp only [State.access, h, State.refuse]

theorem push_sb (s : State) (a : Word) (g : List (Home × Nat)) (bs : List Byte) :
    (s.push a g bs).core.sb = s.core.sb ++ sbEntries (s.ctxAsid s.core.ctx) a g bs := rfl

/-- A checked store leaves one entry for each of its homes. -/
theorem sbEntries_length (asid : Nat) : ∀ (a : Word) (g : List (Home × Nat)) (bs : List Byte),
    (sbEntries asid a g bs).length = g.length
  | _, [], _ => rfl
  | _, (_, _) :: t, _ => by simp [sbEntries, sbEntries_length asid _ t]

end Sys2Proof.Machine
end

