-- ==== Sys2Proof/Laws/State.lean ====
section
/-! SUPPORT. What each update of the state leaves in each field: one lemma a field. -/

namespace Sys2Proof.Machine

/-! ### The instruction is done -/

@[simp] theorem retire_others (s : State) : (s.retire).others = s.others := rfl
@[simp] theorem retire_due (s : State) : (s.retire).due = s.due := rfl
@[simp] theorem retire_tick (s : State) : (s.retire).tick = s.tick := rfl
@[simp] theorem retire_free (s : State) : (s.retire).free = s.free := rfl
@[simp] theorem retire_vault (s : State) : (s.retire).vault = s.vault := rfl
@[simp] theorem retire_hbm (s : State) : (s.retire).hbm = s.hbm := rfl
@[simp] theorem retire_mirror (s : State) : (s.retire).mirror = s.mirror := rfl
@[simp] theorem retire_mmio (s : State) : (s.retire).mmio = s.mmio := rfl
@[simp] theorem retire_poison (s : State) : (s.retire).poison = s.poison := rfl
@[simp] theorem retire_layers (s : State) : (s.retire).layers = s.layers := rfl
@[simp] theorem retire_flying (s : State) : (s.retire).flying = s.flying := rfl
@[simp] theorem retire_acks (s : State) : (s.retire).acks = s.acks := rfl
@[simp] theorem retire_lost (s : State) : (s.retire).lost = s.lost := rfl
@[simp] theorem retire_out (s : State) : (s.retire).out = s.out := rfl
@[simp] theorem retire_flits (s : State) : (s.retire).flits = s.flits := rfl
@[simp] theorem retire_queue (s : State) : (s.retire).queue = s.queue := rfl
@[simp] theorem retire_records (s : State) : (s.retire).records = s.records := rfl
@[simp] theorem retire_host (s : State) : (s.retire).host = s.host := rfl
@[simp] theorem retire_walks (s : State) : (s.retire).walks = s.walks := rfl
@[simp] theorem retire_requests (s : State) : (s.retire).requests = s.requests := rfl
@[simp] theorem retire_wells (s : State) : (s.retire).wells = s.wells := rfl
@[simp] theorem retire_terms (s : State) : (s.retire).terms = s.terms := rfl
@[simp] theorem retire_reads (s : State) : (s.retire).reads = s.reads := rfl
@[simp] theorem retire_served (s : State) : (s.retire).served = s.served := rfl
@[simp] theorem retire_timed (s : State) : (s.retire).timed = s.timed := rfl
@[simp] theorem retire_later (s : State) : (s.retire).later = s.later := rfl
@[simp] theorem retire_signals (s : State) : (s.retire).signals = s.signals := rfl
@[simp] theorem retire_slots (s : State) : (s.retire).slots = s.slots := rfl
@[simp] theorem retire_queues (s : State) : (s.retire).queues = s.queues := rfl
@[simp] theorem retire_lastQueue (s : State) : (s.retire).lastQueue = s.lastQueue := rfl
@[simp] theorem retire_quotes (s : State) : (s.retire).quotes = s.quotes := rfl
@[simp] theorem retire_quoted (s : State) : (s.retire).quoted = s.quoted := rfl
@[simp] theorem retire_deadLinks (s : State) : (s.retire).deadLinks = s.deadLinks := rfl
@[simp] theorem retire_orphans (s : State) : (s.retire).orphans = s.orphans := rfl
@[simp] theorem retire_power (s : State) : (s.retire).power = s.power := rfl
@[simp] theorem retire_vmus (s : State) : (s.retire).vmus = s.vmus := rfl
@[simp] theorem retire_core_num (s : State) : (s.retire).core.num = s.core.num := rfl
@[simp] theorem retire_core_x (s : State) : (s.retire).core.x = s.core.x := rfl
@[simp] theorem retire_core_a (s : State) : (s.retire).core.a = s.core.a := rfl
@[simp] theorem retire_core_v (s : State) : (s.retire).core.v = s.core.v := rfl
@[simp] theorem retire_core_m (s : State) : (s.retire).core.m = s.core.m := rfl
@[simp] theorem retire_core_t (s : State) : (s.retire).core.t = s.core.t := rfl
@[simp] theorem retire_core_c (s : State) : (s.retire).core.c = s.core.c := rfl
@[simp] theorem retire_core_s (s : State) : (s.retire).core.s = s.core.s := rfl
@[simp] theorem retire_core_csrs (s : State) : (s.retire).core.csrs = s.core.csrs := rfl
@[simp] theorem retire_core_qs (s : State) : (s.retire).core.qs = s.core.qs := rfl
@[simp] theorem retire_core_wid (s : State) : (s.retire).core.wid = s.core.wid := rfl
@[simp] theorem retire_core_rlim (s : State) : (s.retire).core.rlim = s.core.rlim := rfl
@[simp] theorem retire_core_ss (s : State) : (s.retire).core.ss = s.core.ss := rfl
@[simp] theorem retire_core_pp (s : State) : (s.retire).core.pp = s.core.pp := rfl
@[simp] theorem retire_core_p (s : State) : (s.retire).core.p = s.core.p := rfl
@[simp] theorem retire_core_epc (s : State) : (s.retire).core.epc = s.core.epc := rfl
@[simp] theorem retire_core_cause (s : State) : (s.retire).core.cause = s.core.cause := rfl
@[simp] theorem retire_core_tval (s : State) : (s.retire).core.tval = s.core.tval := rfl
@[simp] theorem retire_core_prot (s : State) : (s.retire).core.prot = s.core.prot := rfl
@[simp] theorem retire_core_rhit (s : State) : (s.retire).core.rhit = s.core.rhit := rfl
@[simp] theorem retire_core_locks (s : State) : (s.retire).core.locks = s.core.locks := rfl
@[simp] theorem retire_core_frame (s : State) : (s.retire).core.frame = s.core.frame := rfl
@[simp] theorem retire_core_pc (s : State) : (s.retire).core.pc = s.core.npc := rfl
@[simp] theorem retire_core_npc (s : State) : (s.retire).core.npc = s.core.npc := rfl
@[simp] theorem retire_core_iw (s : State) : (s.retire).core.iw = s.core.iw := rfl
@[simp] theorem retire_core_link (s : State) : (s.retire).core.link = s.core.link := rfl
@[simp] theorem retire_core_snap (s : State) : (s.retire).core.snap = s.core.snap := rfl
@[simp] theorem retire_core_pins (s : State) : (s.retire).core.pins = s.core.pins := rfl
@[simp] theorem retire_core_loc (s : State) : (s.retire).core.loc = s.core.loc := rfl
@[simp] theorem retire_core_sb (s : State) : (s.retire).core.sb = s.core.sb := rfl
@[simp] theorem retire_core_task (s : State) : (s.retire).core.task = s.core.task := rfl
@[simp] theorem retire_core_tstate (s : State) : (s.retire).core.tstate = s.core.tstate := rfl
@[simp] theorem retire_core_wait (s : State) : (s.retire).core.wait = s.core.wait := rfl
@[simp] theorem retire_core_slots (s : State) : (s.retire).core.slots = s.core.slots := rfl
@[simp] theorem retire_core_stalled (s : State) : (s.retire).core.stalled = s.core.stalled := rfl
@[simp] theorem retire_core_completed (s : State) : (s.retire).core.completed = true := rfl
@[simp] theorem retire_core_progress (s : State) : (s.retire).core.progress = .none := rfl
@[simp] theorem retire_core_vmuWait (s : State) : (s.retire).core.vmuWait = s.core.vmuWait := rfl
@[simp] theorem retire_core_owed (s : State) : (s.retire).core.owed = s.core.owed := rfl
@[simp] theorem retire_core_unsent (s : State) : (s.retire).core.unsent = s.core.unsent := rfl
@[simp] theorem retire_core_gaveUp (s : State) : (s.retire).core.gaveUp = s.core.gaveUp := rfl
@[simp] theorem retire_core_freezeDue (s : State) : (s.retire).core.freezeDue = s.core.freezeDue := rfl
@[simp] theorem retire_core_remoteStores (s : State) : (s.retire).core.remoteStores = s.core.remoteStores := rfl
@[simp] theorem retire_core_rorder (s : State) : (s.retire).core.rorder = s.core.rorder := rfl

/-! ### The instruction waits -/

@[simp] theorem stall_others (s : State) : (s.stall).others = s.others := rfl
@[simp] theorem stall_due (s : State) : (s.stall).due = s.due := rfl
@[simp] theorem stall_tick (s : State) : (s.stall).tick = s.tick := rfl
@[simp] theorem stall_free (s : State) : (s.stall).free = s.free := rfl
@[simp] theorem stall_vault (s : State) : (s.stall).vault = s.vault := rfl
@[simp] theorem stall_hbm (s : State) : (s.stall).hbm = s.hbm := rfl
@[simp] theorem stall_mirror (s : State) : (s.stall).mirror = s.mirror := rfl
@[simp] theorem stall_mmio (s : State) : (s.stall).mmio = s.mmio := rfl
@[simp] theorem stall_poison (s : State) : (s.stall).poison = s.poison := rfl
@[simp] theorem stall_layers (s : State) : (s.stall).layers = s.layers := rfl
@[simp] theorem stall_flying (s : State) : (s.stall).flying = s.flying := rfl
@[simp] theorem stall_acks (s : State) : (s.stall).acks = s.acks := rfl
@[simp] theorem stall_lost (s : State) : (s.stall).lost = s.lost := rfl
@[simp] theorem stall_out (s : State) : (s.stall).out = s.out := rfl
@[simp] theorem stall_flits (s : State) : (s.stall).flits = s.flits := rfl
@[simp] theorem stall_queue (s : State) : (s.stall).queue = s.queue := rfl
@[simp] theorem stall_records (s : State) : (s.stall).records = s.records := rfl
@[simp] theorem stall_host (s : State) : (s.stall).host = s.host := rfl
@[simp] theorem stall_walks (s : State) : (s.stall).walks = s.walks := rfl
@[simp] theorem stall_requests (s : State) : (s.stall).requests = s.requests := rfl
@[simp] theorem stall_wells (s : State) : (s.stall).wells = s.wells := rfl
@[simp] theorem stall_terms (s : State) : (s.stall).terms = s.terms := rfl
@[simp] theorem stall_reads (s : State) : (s.stall).reads = s.reads := rfl
@[simp] theorem stall_served (s : State) : (s.stall).served = s.served := rfl
@[simp] theorem stall_timed (s : State) : (s.stall).timed = s.timed := rfl
@[simp] theorem stall_later (s : State) : (s.stall).later = s.later := rfl
@[simp] theorem stall_signals (s : State) : (s.stall).signals = s.signals := rfl
@[simp] theorem stall_slots (s : State) : (s.stall).slots = s.slots := rfl
@[simp] theorem stall_queues (s : State) : (s.stall).queues = s.queues := rfl
@[simp] theorem stall_lastQueue (s : State) : (s.stall).lastQueue = s.lastQueue := rfl
@[simp] theorem stall_quotes (s : State) : (s.stall).quotes = s.quotes := rfl
@[simp] theorem stall_quoted (s : State) : (s.stall).quoted = s.quoted := rfl
@[simp] theorem stall_deadLinks (s : State) : (s.stall).deadLinks = s.deadLinks := rfl
@[simp] theorem stall_orphans (s : State) : (s.stall).orphans = s.orphans := rfl
@[simp] theorem stall_power (s : State) : (s.stall).power = s.power := rfl
@[simp] theorem stall_vmus (s : State) : (s.stall).vmus = s.vmus := rfl
@[simp] theorem stall_core_num (s : State) : (s.stall).core.num = s.core.num := rfl
@[simp] theorem stall_core_x (s : State) : (s.stall).core.x = s.core.x := rfl
@[simp] theorem stall_core_a (s : State) : (s.stall).core.a = s.core.a := rfl
@[simp] theorem stall_core_v (s : State) : (s.stall).core.v = s.core.v := rfl
@[simp] theorem stall_core_m (s : State) : (s.stall).core.m = s.core.m := rfl
@[simp] theorem stall_core_t (s : State) : (s.stall).core.t = s.core.t := rfl
@[simp] theorem stall_core_c (s : State) : (s.stall).core.c = s.core.c := rfl
@[simp] theorem stall_core_s (s : State) : (s.stall).core.s = s.core.s := rfl
@[simp] theorem stall_core_csrs (s : State) : (s.stall).core.csrs = s.core.csrs := rfl
@[simp] theorem stall_core_qs (s : State) : (s.stall).core.qs = s.core.qs := rfl
@[simp] theorem stall_core_wid (s : State) : (s.stall).core.wid = s.core.wid := rfl
@[simp] theorem stall_core_rlim (s : State) : (s.stall).core.rlim = s.core.rlim := rfl
@[simp] theorem stall_core_ss (s : State) : (s.stall).core.ss = s.core.ss := rfl
@[simp] theorem stall_core_pp (s : State) : (s.stall).core.pp = s.core.pp := rfl
@[simp] theorem stall_core_p (s : State) : (s.stall).core.p = s.core.p := rfl
@[simp] theorem stall_core_epc (s : State) : (s.stall).core.epc = s.core.epc := rfl
@[simp] theorem stall_core_cause (s : State) : (s.stall).core.cause = s.core.cause := rfl
@[simp] theorem stall_core_tval (s : State) : (s.stall).core.tval = s.core.tval := rfl
@[simp] theorem stall_core_prot (s : State) : (s.stall).core.prot = s.core.prot := rfl
@[simp] theorem stall_core_rhit (s : State) : (s.stall).core.rhit = s.core.rhit := rfl
@[simp] theorem stall_core_locks (s : State) : (s.stall).core.locks = s.core.locks := rfl
@[simp] theorem stall_core_frame (s : State) : (s.stall).core.frame = s.core.frame := rfl
@[simp] theorem stall_core_pc (s : State) : (s.stall).core.pc = s.core.pc := rfl
@[simp] theorem stall_core_npc (s : State) : (s.stall).core.npc = s.core.npc := rfl
@[simp] theorem stall_core_iw (s : State) : (s.stall).core.iw = s.core.iw := rfl
@[simp] theorem stall_core_link (s : State) : (s.stall).core.link = s.core.link := rfl
@[simp] theorem stall_core_snap (s : State) : (s.stall).core.snap = s.core.snap := rfl
@[simp] theorem stall_core_pins (s : State) : (s.stall).core.pins = s.core.pins := rfl
@[simp] theorem stall_core_loc (s : State) : (s.stall).core.loc = s.core.loc := rfl
@[simp] theorem stall_core_sb (s : State) : (s.stall).core.sb = s.core.sb := rfl
@[simp] theorem stall_core_task (s : State) : (s.stall).core.task = s.core.task := rfl
@[simp] theorem stall_core_tstate (s : State) : (s.stall).core.tstate = s.core.tstate := rfl
@[simp] theorem stall_core_wait (s : State) : (s.stall).core.wait = s.core.wait := rfl
@[simp] theorem stall_core_slots (s : State) : (s.stall).core.slots = s.core.slots := rfl
@[simp] theorem stall_core_stalled (s : State) : (s.stall).core.stalled = true := rfl
@[simp] theorem stall_core_completed (s : State) : (s.stall).core.completed = s.core.completed := rfl
@[simp] theorem stall_core_progress (s : State) : (s.stall).core.progress = s.core.progress := rfl
@[simp] theorem stall_core_vmuWait (s : State) : (s.stall).core.vmuWait = s.core.vmuWait := rfl
@[simp] theorem stall_core_owed (s : State) : (s.stall).core.owed = s.core.owed := rfl
@[simp] theorem stall_core_unsent (s : State) : (s.stall).core.unsent = s.core.unsent := rfl
@[simp] theorem stall_core_gaveUp (s : State) : (s.stall).core.gaveUp = s.core.gaveUp := rfl
@[simp] theorem stall_core_freezeDue (s : State) : (s.stall).core.freezeDue = s.core.freezeDue := rfl
@[simp] theorem stall_core_remoteStores (s : State) : (s.stall).core.remoteStores = s.core.remoteStores := rfl
@[simp] theorem stall_core_rorder (s : State) : (s.stall).core.rorder = s.core.rorder := rfl

/-! ### The task parks -/

@[simp] theorem park_others (s : State) (w : Wait) : (s.park w).others = s.others := rfl
@[simp] theorem park_due (s : State) (w : Wait) : (s.park w).due = s.due := rfl
@[simp] theorem park_tick (s : State) (w : Wait) : (s.park w).tick = s.tick := rfl
@[simp] theorem park_free (s : State) (w : Wait) : (s.park w).free = s.free := rfl
@[simp] theorem park_vault (s : State) (w : Wait) : (s.park w).vault = s.vault := rfl
@[simp] theorem park_hbm (s : State) (w : Wait) : (s.park w).hbm = s.hbm := rfl
@[simp] theorem park_mirror (s : State) (w : Wait) : (s.park w).mirror = s.mirror := rfl
@[simp] theorem park_mmio (s : State) (w : Wait) : (s.park w).mmio = s.mmio := rfl
@[simp] theorem park_poison (s : State) (w : Wait) : (s.park w).poison = s.poison := rfl
@[simp] theorem park_layers (s : State) (w : Wait) : (s.park w).layers = s.layers := rfl
@[simp] theorem park_flying (s : State) (w : Wait) : (s.park w).flying = s.flying := rfl
@[simp] theorem park_acks (s : State) (w : Wait) : (s.park w).acks = s.acks := rfl
@[simp] theorem park_lost (s : State) (w : Wait) : (s.park w).lost = s.lost := rfl
@[simp] theorem park_out (s : State) (w : Wait) : (s.park w).out = s.out := rfl
@[simp] theorem park_flits (s : State) (w : Wait) : (s.park w).flits = s.flits := rfl
@[simp] theorem park_queue (s : State) (w : Wait) : (s.park w).queue = s.queue := rfl
@[simp] theorem park_records (s : State) (w : Wait) : (s.park w).records = s.records := rfl
@[simp] theorem park_host (s : State) (w : Wait) : (s.park w).host = s.host := rfl
@[simp] theorem park_walks (s : State) (w : Wait) : (s.park w).walks = s.walks := rfl
@[simp] theorem park_requests (s : State) (w : Wait) : (s.park w).requests = s.requests := rfl
@[simp] theorem park_wells (s : State) (w : Wait) : (s.park w).wells = s.wells := rfl
@[simp] theorem park_terms (s : State) (w : Wait) : (s.park w).terms = s.terms := rfl
@[simp] theorem park_reads (s : State) (w : Wait) : (s.park w).reads = s.reads := rfl
@[simp] theorem park_served (s : State) (w : Wait) : (s.park w).served = s.served := rfl
@[simp] theorem park_timed (s : State) (w : Wait) : (s.park w).timed = s.timed := rfl
@[simp] theorem park_later (s : State) (w : Wait) : (s.park w).later = s.later := rfl
@[simp] theorem park_signals (s : State) (w : Wait) : (s.park w).signals = s.signals := rfl
@[simp] theorem park_slots (s : State) (w : Wait) : (s.park w).slots = s.slots := rfl
@[simp] theorem park_queues (s : State) (w : Wait) : (s.park w).queues = s.queues := rfl
@[simp] theorem park_lastQueue (s : State) (w : Wait) : (s.park w).lastQueue = s.lastQueue := rfl
@[simp] theorem park_quotes (s : State) (w : Wait) : (s.park w).quotes = s.quotes := rfl
@[simp] theorem park_quoted (s : State) (w : Wait) : (s.park w).quoted = s.quoted := rfl
@[simp] theorem park_deadLinks (s : State) (w : Wait) : (s.park w).deadLinks = s.deadLinks := rfl
@[simp] theorem park_orphans (s : State) (w : Wait) : (s.park w).orphans = s.orphans := rfl
@[simp] theorem park_power (s : State) (w : Wait) : (s.park w).power = s.power := rfl
@[simp] theorem park_vmus (s : State) (w : Wait) : (s.park w).vmus = s.vmus := rfl
@[simp] theorem park_core_num (s : State) (w : Wait) : (s.park w).core.num = s.core.num := rfl
@[simp] theorem park_core_x (s : State) (w : Wait) : (s.park w).core.x = s.core.x := rfl
@[simp] theorem park_core_a (s : State) (w : Wait) : (s.park w).core.a = s.core.a := rfl
@[simp] theorem park_core_v (s : State) (w : Wait) : (s.park w).core.v = s.core.v := rfl
@[simp] theorem park_core_m (s : State) (w : Wait) : (s.park w).core.m = s.core.m := rfl
@[simp] theorem park_core_t (s : State) (w : Wait) : (s.park w).core.t = s.core.t := rfl
@[simp] theorem park_core_c (s : State) (w : Wait) : (s.park w).core.c = s.core.c := rfl
@[simp] theorem park_core_s (s : State) (w : Wait) : (s.park w).core.s = s.core.s := rfl
@[simp] theorem park_core_csrs (s : State) (w : Wait) : (s.park w).core.csrs = s.core.csrs := rfl
@[simp] theorem park_core_qs (s : State) (w : Wait) : (s.park w).core.qs = s.core.qs := rfl
@[simp] theorem park_core_wid (s : State) (w : Wait) : (s.park w).core.wid = s.core.wid := rfl
@[simp] theorem park_core_rlim (s : State) (w : Wait) : (s.park w).core.rlim = s.core.rlim := rfl
@[simp] theorem park_core_ss (s : State) (w : Wait) : (s.park w).core.ss = s.core.ss := rfl
@[simp] theorem park_core_pp (s : State) (w : Wait) : (s.park w).core.pp = s.core.pp := rfl
@[simp] theorem park_core_p (s : State) (w : Wait) : (s.park w).core.p = s.core.p := rfl
@[simp] theorem park_core_epc (s : State) (w : Wait) : (s.park w).core.epc = s.core.epc := rfl
@[simp] theorem park_core_cause (s : State) (w : Wait) : (s.park w).core.cause = s.core.cause := rfl
@[simp] theorem park_core_tval (s : State) (w : Wait) : (s.park w).core.tval = s.core.tval := rfl
@[simp] theorem park_core_prot (s : State) (w : Wait) : (s.park w).core.prot = s.core.prot := rfl
@[simp] theorem park_core_rhit (s : State) (w : Wait) : (s.park w).core.rhit = s.core.rhit := rfl
@[simp] theorem park_core_locks (s : State) (w : Wait) : (s.park w).core.locks = s.core.locks := rfl
@[simp] theorem park_core_frame (s : State) (w : Wait) : (s.park w).core.frame = s.core.frame := rfl
@[simp] theorem park_core_pc (s : State) (w : Wait) : (s.park w).core.pc = s.core.pc := rfl
@[simp] theorem park_core_npc (s : State) (w : Wait) : (s.park w).core.npc = s.core.npc := rfl
@[simp] theorem park_core_iw (s : State) (w : Wait) : (s.park w).core.iw = s.core.iw := rfl
@[simp] theorem park_core_link (s : State) (w : Wait) : (s.park w).core.link = s.core.link := rfl
@[simp] theorem park_core_snap (s : State) (w : Wait) : (s.park w).core.snap = s.core.snap := rfl
@[simp] theorem park_core_pins (s : State) (w : Wait) : (s.park w).core.pins = s.core.pins := rfl
@[simp] theorem park_core_loc (s : State) (w : Wait) : (s.park w).core.loc = s.core.loc := rfl
@[simp] theorem park_core_sb (s : State) (w : Wait) : (s.park w).core.sb = s.core.sb := rfl
@[simp] theorem park_core_task (s : State) (w : Wait) : (s.park w).core.task = s.core.task := rfl
@[simp] theorem park_core_tstate (s : State) (w : Wait) : (s.park w).core.tstate = .parked := rfl
@[simp] theorem park_core_wait (s : State) (w : Wait) : (s.park w).core.wait = w := rfl
@[simp] theorem park_core_slots (s : State) (w : Wait) : (s.park w).core.slots = s.core.slots := rfl
@[simp] theorem park_core_stalled (s : State) (w : Wait) : (s.park w).core.stalled = false := rfl
@[simp] theorem park_core_completed (s : State) (w : Wait) : (s.park w).core.completed = s.core.completed := rfl
@[simp] theorem park_core_progress (s : State) (w : Wait) : (s.park w).core.progress = s.core.progress := rfl
@[simp] theorem park_core_vmuWait (s : State) (w : Wait) : (s.park w).core.vmuWait = s.core.vmuWait := rfl
@[simp] theorem park_core_owed (s : State) (w : Wait) : (s.park w).core.owed = s.core.owed := rfl
@[simp] theorem park_core_unsent (s : State) (w : Wait) : (s.park w).core.unsent = s.core.unsent := rfl
@[simp] theorem park_core_gaveUp (s : State) (w : Wait) : (s.park w).core.gaveUp = s.core.gaveUp := rfl
@[simp] theorem park_core_freezeDue (s : State) (w : Wait) : (s.park w).core.freezeDue = s.core.freezeDue := rfl
@[simp] theorem park_core_remoteStores (s : State) (w : Wait) : (s.park w).core.remoteStores = s.core.remoteStores := rfl
@[simp] theorem park_core_rorder (s : State) (w : Wait) : (s.park w).core.rorder = s.core.rorder := rfl

/-! ### A store enters the buffer -/

@[simp] theorem push_others (s : State) (a : Word) (g : List (Home × Nat)) (bs : List Byte) : (s.push a g bs).others = s.others := rfl
@[simp] theorem push_due (s : State) (a : Word) (g : List (Home × Nat)) (bs : List Byte) : (s.push a g bs).due = s.due := rfl
@[simp] theorem push_tick (s : State) (a : Word) (g : List (Home × Nat)) (bs : List Byte) : (s.push a g bs).tick = s.tick := rfl
@[simp] theorem push_free (s : State) (a : Word) (g : List (Home × Nat)) (bs : List Byte) : (s.push a g bs).free = s.free := rfl
@[simp] theorem push_vault (s : State) (a : Word) (g : List (Home × Nat)) (bs : List Byte) : (s.push a g bs).vault = s.vault := rfl
@[simp] theorem push_hbm (s : State) (a : Word) (g : List (Home × Nat)) (bs : List Byte) : (s.push a g bs).hbm = s.hbm := rfl
@[simp] theorem push_mirror (s : State) (a : Word) (g : List (Home × Nat)) (bs : List Byte) : (s.push a g bs).mirror = s.mirror := rfl
@[simp] theorem push_mmio (s : State) (a : Word) (g : List (Home × Nat)) (bs : List Byte) : (s.push a g bs).mmio = s.mmio := rfl
@[simp] theorem push_poison (s : State) (a : Word) (g : List (Home × Nat)) (bs : List Byte) : (s.push a g bs).poison = s.poison := rfl
@[simp] theorem push_layers (s : State) (a : Word) (g : List (Home × Nat)) (bs : List Byte) : (s.push a g bs).layers = s.layers := rfl
@[simp] theorem push_flying (s : State) (a : Word) (g : List (Home × Nat)) (bs : List Byte) : (s.push a g bs).flying = s.flying := rfl
@[simp] theorem push_acks (s : State) (a : Word) (g : List (Home × Nat)) (bs : List Byte) : (s.push a g bs).acks = s.acks := rfl
@[simp] theorem push_lost (s : State) (a : Word) (g : List (Home × Nat)) (bs : List Byte) : (s.push a g bs).lost = s.lost := rfl
@[simp] theorem push_out (s : State) (a : Word) (g : List (Home × Nat)) (bs : List Byte) : (s.push a g bs).out = s.out := rfl
@[simp] theorem push_flits (s : State) (a : Word) (g : List (Home × Nat)) (bs : List Byte) : (s.push a g bs).flits = s.flits := rfl
@[simp] theorem push_queue (s : State) (a : Word) (g : List (Home × Nat)) (bs : List Byte) : (s.push a g bs).queue = s.queue := rfl
@[simp] theorem push_records (s : State) (a : Word) (g : List (Home × Nat)) (bs : List Byte) : (s.push a g bs).records = s.records := rfl
@[simp] theorem push_host (s : State) (a : Word) (g : List (Home × Nat)) (bs : List Byte) : (s.push a g bs).host = s.host := rfl
@[simp] theorem push_walks (s : State) (a : Word) (g : List (Home × Nat)) (bs : List Byte) : (s.push a g bs).walks = s.walks := rfl
@[simp] theorem push_requests (s : State) (a : Word) (g : List (Home × Nat)) (bs : List Byte) : (s.push a g bs).requests = s.requests := rfl
@[simp] theorem push_wells (s : State) (a : Word) (g : List (Home × Nat)) (bs : List Byte) : (s.push a g bs).wells = s.wells := rfl
@[simp] theorem push_terms (s : State) (a : Word) (g : List (Home × Nat)) (bs : List Byte) : (s.push a g bs).terms = s.terms := rfl
@[simp] theorem push_reads (s : State) (a : Word) (g : List (Home × Nat)) (bs : List Byte) : (s.push a g bs).reads = s.reads := rfl
@[simp] theorem push_served (s : State) (a : Word) (g : List (Home × Nat)) (bs : List Byte) : (s.push a g bs).served = s.served := rfl
@[simp] theorem push_timed (s : State) (a : Word) (g : List (Home × Nat)) (bs : List Byte) : (s.push a g bs).timed = s.timed := rfl
@[simp] theorem push_later (s : State) (a : Word) (g : List (Home × Nat)) (bs : List Byte) : (s.push a g bs).later = s.later := rfl
@[simp] theorem push_signals (s : State) (a : Word) (g : List (Home × Nat)) (bs : List Byte) : (s.push a g bs).signals = s.signals := rfl
@[simp] theorem push_slots (s : State) (a : Word) (g : List (Home × Nat)) (bs : List Byte) : (s.push a g bs).slots = s.slots := rfl
@[simp] theorem push_queues (s : State) (a : Word) (g : List (Home × Nat)) (bs : List Byte) : (s.push a g bs).queues = s.queues := rfl
@[simp] theorem push_lastQueue (s : State) (a : Word) (g : List (Home × Nat)) (bs : List Byte) : (s.push a g bs).lastQueue = s.lastQueue := rfl
@[simp] theorem push_quotes (s : State) (a : Word) (g : List (Home × Nat)) (bs : List Byte) : (s.push a g bs).quotes = s.quotes := rfl
@[simp] theorem push_quoted (s : State) (a : Word) (g : List (Home × Nat)) (bs : List Byte) : (s.push a g bs).quoted = s.quoted := rfl
@[simp] theorem push_deadLinks (s : State) (a : Word) (g : List (Home × Nat)) (bs : List Byte) : (s.push a g bs).deadLinks = s.deadLinks := rfl
@[simp] theorem push_orphans (s : State) (a : Word) (g : List (Home × Nat)) (bs : List Byte) : (s.push a g bs).orphans = s.orphans := rfl
@[simp] theorem push_power (s : State) (a : Word) (g : List (Home × Nat)) (bs : List Byte) : (s.push a g bs).power = s.power := rfl
@[simp] theorem push_vmus (s : State) (a : Word) (g : List (Home × Nat)) (bs : List Byte) : (s.push a g bs).vmus = s.vmus := rfl
@[simp] theorem push_core_num (s : State) (a : Word) (g : List (Home × Nat)) (bs : List Byte) : (s.push a g bs).core.num = s.core.num := rfl
@[simp] theorem push_core_x (s : State) (a : Word) (g : List (Home × Nat)) (bs : List Byte) : (s.push a g bs).core.x = s.core.x := rfl
@[simp] theorem push_core_a (s : State) (a : Word) (g : List (Home × Nat)) (bs : List Byte) : (s.push a g bs).core.a = s.core.a := rfl
@[simp] theorem push_core_v (s : State) (a : Word) (g : List (Home × Nat)) (bs : List Byte) : (s.push a g bs).core.v = s.core.v := rfl
@[simp] theorem push_core_m (s : State) (a : Word) (g : List (Home × Nat)) (bs : List Byte) : (s.push a g bs).core.m = s.core.m := rfl
@[simp] theorem push_core_t (s : State) (a : Word) (g : List (Home × Nat)) (bs : List Byte) : (s.push a g bs).core.t = s.core.t := rfl
@[simp] theorem push_core_c (s : State) (a : Word) (g : List (Home × Nat)) (bs : List Byte) : (s.push a g bs).core.c = s.core.c := rfl
@[simp] theorem push_core_s (s : State) (a : Word) (g : List (Home × Nat)) (bs : List Byte) : (s.push a g bs).core.s = s.core.s := rfl
@[simp] theorem push_core_csrs (s : State) (a : Word) (g : List (Home × Nat)) (bs : List Byte) : (s.push a g bs).core.csrs = s.core.csrs := rfl
@[simp] theorem push_core_qs (s : State) (a : Word) (g : List (Home × Nat)) (bs : List Byte) : (s.push a g bs).core.qs = s.core.qs := rfl
@[simp] theorem push_core_wid (s : State) (a : Word) (g : List (Home × Nat)) (bs : List Byte) : (s.push a g bs).core.wid = s.core.wid := rfl
@[simp] theorem push_core_rlim (s : State) (a : Word) (g : List (Home × Nat)) (bs : List Byte) : (s.push a g bs).core.rlim = s.core.rlim := rfl
@[simp] theorem push_core_ss (s : State) (a : Word) (g : List (Home × Nat)) (bs : List Byte) : (s.push a g bs).core.ss = s.core.ss := rfl
@[simp] theorem push_core_pp (s : State) (a : Word) (g : List (Home × Nat)) (bs : List Byte) : (s.push a g bs).core.pp = s.core.pp := rfl
@[simp] theorem push_core_p (s : State) (a : Word) (g : List (Home × Nat)) (bs : List Byte) : (s.push a g bs).core.p = s.core.p := rfl
@[simp] theorem push_core_epc (s : State) (a : Word) (g : List (Home × Nat)) (bs : List Byte) : (s.push a g bs).core.epc = s.core.epc := rfl
@[simp] theorem push_core_cause (s : State) (a : Word) (g : List (Home × Nat)) (bs : List Byte) : (s.push a g bs).core.cause = s.core.cause := rfl
@[simp] theorem push_core_tval (s : State) (a : Word) (g : List (Home × Nat)) (bs : List Byte) : (s.push a g bs).core.tval = s.core.tval := rfl
@[simp] theorem push_core_prot (s : State) (a : Word) (g : List (Home × Nat)) (bs : List Byte) : (s.push a g bs).core.prot = s.core.prot := rfl
@[simp] theorem push_core_rhit (s : State) (a : Word) (g : List (Home × Nat)) (bs : List Byte) : (s.push a g bs).core.rhit = s.core.rhit := rfl
@[simp] theorem push_core_locks (s : State) (a : Word) (g : List (Home × Nat)) (bs : List Byte) : (s.push a g bs).core.locks = s.core.locks := rfl
@[simp] theorem push_core_frame (s : State) (a : Word) (g : List (Home × Nat)) (bs : List Byte) : (s.push a g bs).core.frame = s.core.frame := rfl
@[simp] theorem push_core_pc (s : State) (a : Word) (g : List (Home × Nat)) (bs : List Byte) : (s.push a g bs).core.pc = s.core.pc := rfl
@[simp] theorem push_core_npc (s : State) (a : Word) (g : List (Home × Nat)) (bs : List Byte) : (s.push a g bs).core.npc = s.core.npc := rfl
@[simp] theorem push_core_iw (s : State) (a : Word) (g : List (Home × Nat)) (bs : List Byte) : (s.push a g bs).core.iw = s.core.iw := rfl
@[simp] theorem push_core_link (s : State) (a : Word) (g : List (Home × Nat)) (bs : List Byte) : (s.push a g bs).core.link = s.core.link := rfl
@[simp] theorem push_core_snap (s : State) (a : Word) (g : List (Home × Nat)) (bs : List Byte) : (s.push a g bs).core.snap = s.core.snap := rfl
@[simp] theorem push_core_pins (s : State) (a : Word) (g : List (Home × Nat)) (bs : List Byte) : (s.push a g bs).core.pins = s.core.pins := rfl
@[simp] theorem push_core_loc (s : State) (a : Word) (g : List (Home × Nat)) (bs : List Byte) : (s.push a g bs).core.loc = s.core.loc := rfl
@[simp] theorem push_core_task (s : State) (a : Word) (g : List (Home × Nat)) (bs : List Byte) : (s.push a g bs).core.task = s.core.task := rfl
@[simp] theorem push_core_tstate (s : State) (a : Word) (g : List (Home × Nat)) (bs : List Byte) : (s.push a g bs).core.tstate = s.core.tstate := rfl
@[simp] theorem push_core_wait (s : State) (a : Word) (g : List (Home × Nat)) (bs : List Byte) : (s.push a g bs).core.wait = s.core.wait := rfl
@[simp] theorem push_core_slots (s : State) (a : Word) (g : List (Home × Nat)) (bs : List Byte) : (s.push a g bs).core.slots = s.core.slots := rfl
@[simp] theorem push_core_stalled (s : State) (a : Word) (g : List (Home × Nat)) (bs : List Byte) : (s.push a g bs).core.stalled = s.core.stalled := rfl
@[simp] theorem push_core_completed (s : State) (a : Word) (g : List (Home × Nat)) (bs : List Byte) : (s.push a g bs).core.completed = s.core.completed := rfl
@[simp] theorem push_core_progress (s : State) (a : Word) (g : List (Home × Nat)) (bs : List Byte) : (s.push a g bs).core.progress = s.core.progress := rfl
@[simp] theorem push_core_vmuWait (s : State) (a : Word) (g : List (Home × Nat)) (bs : List Byte) : (s.push a g bs).core.vmuWait = s.core.vmuWait := rfl
@[simp] theorem push_core_owed (s : State) (a : Word) (g : List (Home × Nat)) (bs : List Byte) : (s.push a g bs).core.owed = s.core.owed := rfl
@[simp] theorem push_core_unsent (s : State) (a : Word) (g : List (Home × Nat)) (bs : List Byte) : (s.push a g bs).core.unsent = s.core.unsent := rfl
@[simp] theorem push_core_gaveUp (s : State) (a : Word) (g : List (Home × Nat)) (bs : List Byte) : (s.push a g bs).core.gaveUp = s.core.gaveUp := rfl
@[simp] theorem push_core_freezeDue (s : State) (a : Word) (g : List (Home × Nat)) (bs : List Byte) : (s.push a g bs).core.freezeDue = s.core.freezeDue := rfl
@[simp] theorem push_core_remoteStores (s : State) (a : Word) (g : List (Home × Nat)) (bs : List Byte) : (s.push a g bs).core.remoteStores = s.core.remoteStores := rfl
@[simp] theorem push_core_rorder (s : State) (a : Word) (g : List (Home × Nat)) (bs : List Byte) : (s.push a g bs).core.rorder = s.core.rorder := rfl

/-! ### A trap is delivered -/

@[simp] theorem deliver_others (s : State) (c : Cause) (tv pc : Word) : (s.deliver c tv pc).others = s.others := rfl
@[simp] theorem deliver_due (s : State) (c : Cause) (tv pc : Word) : (s.deliver c tv pc).due = s.due := rfl
@[simp] theorem deliver_tick (s : State) (c : Cause) (tv pc : Word) : (s.deliver c tv pc).tick = s.tick := rfl
@[simp] theorem deliver_free (s : State) (c : Cause) (tv pc : Word) : (s.deliver c tv pc).free = s.free := rfl
@[simp] theorem deliver_vault (s : State) (c : Cause) (tv pc : Word) : (s.deliver c tv pc).vault = s.vault := rfl
@[simp] theorem deliver_hbm (s : State) (c : Cause) (tv pc : Word) : (s.deliver c tv pc).hbm = s.hbm := rfl
@[simp] theorem deliver_mirror (s : State) (c : Cause) (tv pc : Word) : (s.deliver c tv pc).mirror = s.mirror := rfl
@[simp] theorem deliver_mmio (s : State) (c : Cause) (tv pc : Word) : (s.deliver c tv pc).mmio = s.mmio := rfl
@[simp] theorem deliver_poison (s : State) (c : Cause) (tv pc : Word) : (s.deliver c tv pc).poison = s.poison := rfl
@[simp] theorem deliver_layers (s : State) (c : Cause) (tv pc : Word) : (s.deliver c tv pc).layers = s.layers := rfl
@[simp] theorem deliver_flying (s : State) (c : Cause) (tv pc : Word) : (s.deliver c tv pc).flying = s.flying := rfl
@[simp] theorem deliver_acks (s : State) (c : Cause) (tv pc : Word) : (s.deliver c tv pc).acks = s.acks := rfl
@[simp] theorem deliver_lost (s : State) (c : Cause) (tv pc : Word) : (s.deliver c tv pc).lost = s.lost := rfl
@[simp] theorem deliver_out (s : State) (c : Cause) (tv pc : Word) : (s.deliver c tv pc).out = s.out := rfl
@[simp] theorem deliver_flits (s : State) (c : Cause) (tv pc : Word) : (s.deliver c tv pc).flits = s.flits := rfl
@[simp] theorem deliver_queue (s : State) (c : Cause) (tv pc : Word) : (s.deliver c tv pc).queue = s.queue := rfl
@[simp] theorem deliver_records (s : State) (c : Cause) (tv pc : Word) : (s.deliver c tv pc).records = s.records := rfl
@[simp] theorem deliver_host (s : State) (c : Cause) (tv pc : Word) : (s.deliver c tv pc).host = s.host := rfl
@[simp] theorem deliver_walks (s : State) (c : Cause) (tv pc : Word) : (s.deliver c tv pc).walks = s.walks := rfl
@[simp] theorem deliver_requests (s : State) (c : Cause) (tv pc : Word) : (s.deliver c tv pc).requests = s.requests := rfl
@[simp] theorem deliver_wells (s : State) (c : Cause) (tv pc : Word) : (s.deliver c tv pc).wells = s.wells := rfl
@[simp] theorem deliver_terms (s : State) (c : Cause) (tv pc : Word) : (s.deliver c tv pc).terms = s.terms := rfl
@[simp] theorem deliver_reads (s : State) (c : Cause) (tv pc : Word) : (s.deliver c tv pc).reads = s.reads := rfl
@[simp] theorem deliver_served (s : State) (c : Cause) (tv pc : Word) : (s.deliver c tv pc).served = s.served := rfl
@[simp] theorem deliver_timed (s : State) (c : Cause) (tv pc : Word) : (s.deliver c tv pc).timed = s.timed := rfl
@[simp] theorem deliver_later (s : State) (c : Cause) (tv pc : Word) : (s.deliver c tv pc).later = s.later := rfl
@[simp] theorem deliver_signals (s : State) (c : Cause) (tv pc : Word) : (s.deliver c tv pc).signals = s.signals := rfl
@[simp] theorem deliver_slots (s : State) (c : Cause) (tv pc : Word) : (s.deliver c tv pc).slots = s.slots := rfl
@[simp] theorem deliver_queues (s : State) (c : Cause) (tv pc : Word) : (s.deliver c tv pc).queues = s.queues := rfl
@[simp] theorem deliver_lastQueue (s : State) (c : Cause) (tv pc : Word) : (s.deliver c tv pc).lastQueue = s.lastQueue := rfl
@[simp] theorem deliver_quotes (s : State) (c : Cause) (tv pc : Word) : (s.deliver c tv pc).quotes = s.quotes := rfl
@[simp] theorem deliver_quoted (s : State) (c : Cause) (tv pc : Word) : (s.deliver c tv pc).quoted = s.quoted := rfl
@[simp] theorem deliver_deadLinks (s : State) (c : Cause) (tv pc : Word) : (s.deliver c tv pc).deadLinks = s.deadLinks := rfl
@[simp] theorem deliver_orphans (s : State) (c : Cause) (tv pc : Word) : (s.deliver c tv pc).orphans = s.orphans := rfl
@[simp] theorem deliver_power (s : State) (c : Cause) (tv pc : Word) : (s.deliver c tv pc).power = s.power := rfl
@[simp] theorem deliver_vmus (s : State) (c : Cause) (tv pc : Word) : (s.deliver c tv pc).vmus = s.vmus := rfl
@[simp] theorem deliver_core_num (s : State) (c : Cause) (tv pc : Word) : (s.deliver c tv pc).core.num = s.core.num := rfl
@[simp] theorem deliver_core_x (s : State) (c : Cause) (tv pc : Word) : (s.deliver c tv pc).core.x = s.core.x := rfl
@[simp] theorem deliver_core_a (s : State) (c : Cause) (tv pc : Word) : (s.deliver c tv pc).core.a = s.core.a := rfl
@[simp] theorem deliver_core_v (s : State) (c : Cause) (tv pc : Word) : (s.deliver c tv pc).core.v = s.core.v := rfl
@[simp] theorem deliver_core_m (s : State) (c : Cause) (tv pc : Word) : (s.deliver c tv pc).core.m = s.core.m := rfl
@[simp] theorem deliver_core_t (s : State) (c : Cause) (tv pc : Word) : (s.deliver c tv pc).core.t = s.core.t := rfl
@[simp] theorem deliver_core_c (s : State) (c : Cause) (tv pc : Word) : (s.deliver c tv pc).core.c = s.core.c := rfl
@[simp] theorem deliver_core_s (s : State) (c : Cause) (tv pc : Word) : (s.deliver c tv pc).core.s = s.core.s := rfl
@[simp] theorem deliver_core_csrs (s : State) (c : Cause) (tv pc : Word) : (s.deliver c tv pc).core.csrs = s.core.csrs := rfl
@[simp] theorem deliver_core_qs (s : State) (c : Cause) (tv pc : Word) : (s.deliver c tv pc).core.qs = s.core.qs := rfl
@[simp] theorem deliver_core_wid (s : State) (c : Cause) (tv pc : Word) : (s.deliver c tv pc).core.wid = s.core.wid := rfl
@[simp] theorem deliver_core_rlim (s : State) (c : Cause) (tv pc : Word) : (s.deliver c tv pc).core.rlim = s.core.rlim := rfl
@[simp] theorem deliver_core_ss (s : State) (c : Cause) (tv pc : Word) : (s.deliver c tv pc).core.ss = s.core.ss := rfl
@[simp] theorem deliver_core_pp (s : State) (c : Cause) (tv pc : Word) : (s.deliver c tv pc).core.pp = s.core.p := rfl
@[simp] theorem deliver_core_p (s : State) (c : Cause) (tv pc : Word) : (s.deliver c tv pc).core.p = true := rfl
@[simp] theorem deliver_core_epc (s : State) (c : Cause) (tv pc : Word) : (s.deliver c tv pc).core.epc = word4 pc := rfl
@[simp] theorem deliver_core_cause (s : State) (c : Cause) (tv pc : Word) : (s.deliver c tv pc).core.cause = BitVec.ofNat 5 c.code := rfl
@[simp] theorem deliver_core_tval (s : State) (c : Cause) (tv pc : Word) : (s.deliver c tv pc).core.tval = tv := rfl
@[simp] theorem deliver_core_prot (s : State) (c : Cause) (tv pc : Word) : (s.deliver c tv pc).core.prot = s.core.prot := rfl
@[simp] theorem deliver_core_rhit (s : State) (c : Cause) (tv pc : Word) : (s.deliver c tv pc).core.rhit = s.core.rhit := rfl
@[simp] theorem deliver_core_locks (s : State) (c : Cause) (tv pc : Word) : (s.deliver c tv pc).core.locks = s.core.locks := rfl
@[simp] theorem deliver_core_pc (s : State) (c : Cause) (tv pc : Word) : (s.deliver c tv pc).core.pc = ((s.core.task.map (·.hdr.handler)).getD 0) := rfl
@[simp] theorem deliver_core_npc (s : State) (c : Cause) (tv pc : Word) : (s.deliver c tv pc).core.npc = s.core.npc := rfl
@[simp] theorem deliver_core_iw (s : State) (c : Cause) (tv pc : Word) : (s.deliver c tv pc).core.iw = s.core.iw := rfl
@[simp] theorem deliver_core_link (s : State) (c : Cause) (tv pc : Word) : (s.deliver c tv pc).core.link = s.core.link := rfl
@[simp] theorem deliver_core_snap (s : State) (c : Cause) (tv pc : Word) : (s.deliver c tv pc).core.snap = s.core.snap := rfl
@[simp] theorem deliver_core_pins (s : State) (c : Cause) (tv pc : Word) : (s.deliver c tv pc).core.pins = s.core.pins := rfl
@[simp] theorem deliver_core_loc (s : State) (c : Cause) (tv pc : Word) : (s.deliver c tv pc).core.loc = s.core.loc := rfl
@[simp] theorem deliver_core_sb (s : State) (c : Cause) (tv pc : Word) : (s.deliver c tv pc).core.sb = s.core.sb := rfl
@[simp] theorem deliver_core_task (s : State) (c : Cause) (tv pc : Word) : (s.deliver c tv pc).core.task = s.core.task := rfl
@[simp] theorem deliver_core_tstate (s : State) (c : Cause) (tv pc : Word) : (s.deliver c tv pc).core.tstate = s.core.tstate := rfl
@[simp] theorem deliver_core_wait (s : State) (c : Cause) (tv pc : Word) : (s.deliver c tv pc).core.wait = s.core.wait := rfl
@[simp] theorem deliver_core_slots (s : State) (c : Cause) (tv pc : Word) : (s.deliver c tv pc).core.slots = s.core.slots := rfl
@[simp] theorem deliver_core_stalled (s : State) (c : Cause) (tv pc : Word) : (s.deliver c tv pc).core.stalled = false := rfl
@[simp] theorem deliver_core_completed (s : State) (c : Cause) (tv pc : Word) : (s.deliver c tv pc).core.completed = s.core.completed := rfl
@[simp] theorem deliver_core_progress (s : State) (c : Cause) (tv pc : Word) : (s.deliver c tv pc).core.progress = .none := rfl
@[simp] theorem deliver_core_vmuWait (s : State) (c : Cause) (tv pc : Word) : (s.deliver c tv pc).core.vmuWait = s.core.vmuWait := rfl
@[simp] theorem deliver_core_owed (s : State) (c : Cause) (tv pc : Word) : (s.deliver c tv pc).core.owed = s.core.owed := rfl
@[simp] theorem deliver_core_unsent (s : State) (c : Cause) (tv pc : Word) : (s.deliver c tv pc).core.unsent = s.core.unsent := rfl
@[simp] theorem deliver_core_gaveUp (s : State) (c : Cause) (tv pc : Word) : (s.deliver c tv pc).core.gaveUp = s.core.gaveUp := rfl
@[simp] theorem deliver_core_freezeDue (s : State) (c : Cause) (tv pc : Word) : (s.deliver c tv pc).core.freezeDue = s.core.freezeDue := rfl
@[simp] theorem deliver_core_remoteStores (s : State) (c : Cause) (tv pc : Word) : (s.deliver c tv pc).core.remoteStores = s.core.remoteStores := rfl
@[simp] theorem deliver_core_rorder (s : State) (c : Cause) (tv pc : Word) : (s.deliver c tv pc).core.rorder = s.core.rorder := rfl

/-! ### ERET -/

@[simp] theorem eret_others (s : State) : (s.eret).others = s.others := rfl
@[simp] theorem eret_due (s : State) : (s.eret).due = s.due := rfl
@[simp] theorem eret_tick (s : State) : (s.eret).tick = s.tick := rfl
@[simp] theorem eret_free (s : State) : (s.eret).free = s.free := rfl
@[simp] theorem eret_vault (s : State) : (s.eret).vault = s.vault := rfl
@[simp] theorem eret_hbm (s : State) : (s.eret).hbm = s.hbm := rfl
@[simp] theorem eret_mirror (s : State) : (s.eret).mirror = s.mirror := rfl
@[simp] theorem eret_mmio (s : State) : (s.eret).mmio = s.mmio := rfl
@[simp] theorem eret_poison (s : State) : (s.eret).poison = s.poison := rfl
@[simp] theorem eret_layers (s : State) : (s.eret).layers = s.layers := rfl
@[simp] theorem eret_flying (s : State) : (s.eret).flying = s.flying := rfl
@[simp] theorem eret_acks (s : State) : (s.eret).acks = s.acks := rfl
@[simp] theorem eret_lost (s : State) : (s.eret).lost = s.lost := rfl
@[simp] theorem eret_out (s : State) : (s.eret).out = s.out := rfl
@[simp] theorem eret_flits (s : State) : (s.eret).flits = s.flits := rfl
@[simp] theorem eret_queue (s : State) : (s.eret).queue = s.queue := rfl
@[simp] theorem eret_records (s : State) : (s.eret).records = s.records := rfl
@[simp] theorem eret_host (s : State) : (s.eret).host = s.host := rfl
@[simp] theorem eret_walks (s : State) : (s.eret).walks = s.walks := rfl
@[simp] theorem eret_requests (s : State) : (s.eret).requests = s.requests := rfl
@[simp] theorem eret_wells (s : State) : (s.eret).wells = s.wells := rfl
@[simp] theorem eret_terms (s : State) : (s.eret).terms = s.terms := rfl
@[simp] theorem eret_reads (s : State) : (s.eret).reads = s.reads := rfl
@[simp] theorem eret_served (s : State) : (s.eret).served = s.served := rfl
@[simp] theorem eret_timed (s : State) : (s.eret).timed = s.timed := rfl
@[simp] theorem eret_later (s : State) : (s.eret).later = s.later := rfl
@[simp] theorem eret_signals (s : State) : (s.eret).signals = s.signals := rfl
@[simp] theorem eret_slots (s : State) : (s.eret).slots = s.slots := rfl
@[simp] theorem eret_queues (s : State) : (s.eret).queues = s.queues := rfl
@[simp] theorem eret_lastQueue (s : State) : (s.eret).lastQueue = s.lastQueue := rfl
@[simp] theorem eret_quotes (s : State) : (s.eret).quotes = s.quotes := rfl
@[simp] theorem eret_quoted (s : State) : (s.eret).quoted = s.quoted := rfl
@[simp] theorem eret_deadLinks (s : State) : (s.eret).deadLinks = s.deadLinks := rfl
@[simp] theorem eret_orphans (s : State) : (s.eret).orphans = s.orphans := rfl
@[simp] theorem eret_power (s : State) : (s.eret).power = s.power := rfl
@[simp] theorem eret_vmus (s : State) : (s.eret).vmus = s.vmus := rfl
@[simp] theorem eret_core_num (s : State) : (s.eret).core.num = s.core.num := rfl
@[simp] theorem eret_core_x (s : State) : (s.eret).core.x = s.core.x := rfl
@[simp] theorem eret_core_a (s : State) : (s.eret).core.a = s.core.a := rfl
@[simp] theorem eret_core_v (s : State) : (s.eret).core.v = s.core.v := rfl
@[simp] theorem eret_core_m (s : State) : (s.eret).core.m = s.core.m := rfl
@[simp] theorem eret_core_t (s : State) : (s.eret).core.t = s.core.t := rfl
@[simp] theorem eret_core_c (s : State) : (s.eret).core.c = s.core.c := rfl
@[simp] theorem eret_core_s (s : State) : (s.eret).core.s = s.core.s := rfl
@[simp] theorem eret_core_csrs (s : State) : (s.eret).core.csrs = s.core.csrs := rfl
@[simp] theorem eret_core_qs (s : State) : (s.eret).core.qs = s.core.qs := rfl
@[simp] theorem eret_core_wid (s : State) : (s.eret).core.wid = s.core.wid := rfl
@[simp] theorem eret_core_rlim (s : State) : (s.eret).core.rlim = s.core.rlim := rfl
@[simp] theorem eret_core_ss (s : State) : (s.eret).core.ss = s.core.ss := rfl
@[simp] theorem eret_core_pp (s : State) : (s.eret).core.pp = false := rfl
@[simp] theorem eret_core_p (s : State) : (s.eret).core.p = s.core.pp := rfl
@[simp] theorem eret_core_epc (s : State) : (s.eret).core.epc = s.core.epc := rfl
@[simp] theorem eret_core_cause (s : State) : (s.eret).core.cause = s.core.cause := rfl
@[simp] theorem eret_core_tval (s : State) : (s.eret).core.tval = s.core.tval := rfl
@[simp] theorem eret_core_prot (s : State) : (s.eret).core.prot = s.core.prot := rfl
@[simp] theorem eret_core_rhit (s : State) : (s.eret).core.rhit = s.core.rhit := rfl
@[simp] theorem eret_core_locks (s : State) : (s.eret).core.locks = s.core.locks := rfl
@[simp] theorem eret_core_pc (s : State) : (s.eret).core.pc = s.core.epc := rfl
@[simp] theorem eret_core_npc (s : State) : (s.eret).core.npc = s.core.npc := rfl
@[simp] theorem eret_core_iw (s : State) : (s.eret).core.iw = s.core.iw := rfl
@[simp] theorem eret_core_link (s : State) : (s.eret).core.link = s.core.link := rfl
@[simp] theorem eret_core_snap (s : State) : (s.eret).core.snap = s.core.snap := rfl
@[simp] theorem eret_core_pins (s : State) : (s.eret).core.pins = s.core.pins := rfl
@[simp] theorem eret_core_loc (s : State) : (s.eret).core.loc = s.core.loc := rfl
@[simp] theorem eret_core_sb (s : State) : (s.eret).core.sb = s.core.sb := rfl
@[simp] theorem eret_core_task (s : State) : (s.eret).core.task = s.core.task := rfl
@[simp] theorem eret_core_tstate (s : State) : (s.eret).core.tstate = s.core.tstate := rfl
@[simp] theorem eret_core_wait (s : State) : (s.eret).core.wait = s.core.wait := rfl
@[simp] theorem eret_core_slots (s : State) : (s.eret).core.slots = s.core.slots := rfl
@[simp] theorem eret_core_stalled (s : State) : (s.eret).core.stalled = s.core.stalled := rfl
@[simp] theorem eret_core_completed (s : State) : (s.eret).core.completed = true := rfl
@[simp] theorem eret_core_progress (s : State) : (s.eret).core.progress = .none := rfl
@[simp] theorem eret_core_vmuWait (s : State) : (s.eret).core.vmuWait = s.core.vmuWait := rfl
@[simp] theorem eret_core_owed (s : State) : (s.eret).core.owed = s.core.owed := rfl
@[simp] theorem eret_core_unsent (s : State) : (s.eret).core.unsent = s.core.unsent := rfl
@[simp] theorem eret_core_gaveUp (s : State) : (s.eret).core.gaveUp = s.core.gaveUp := rfl
@[simp] theorem eret_core_freezeDue (s : State) : (s.eret).core.freezeDue = s.core.freezeDue := rfl
@[simp] theorem eret_core_remoteStores (s : State) : (s.eret).core.remoteStores = s.core.remoteStores := rfl
@[simp] theorem eret_core_rorder (s : State) : (s.eret).core.rorder = s.core.rorder := rfl

/-! ### A general register is written -/

@[simp] theorem setX_others (s : State) (r : XReg) (w : Word) : (s.setX r w).others = s.others := by rw [setX_eq]
@[simp] theorem setX_due (s : State) (r : XReg) (w : Word) : (s.setX r w).due = s.due := by rw [setX_eq]
@[simp] theorem setX_tick (s : State) (r : XReg) (w : Word) : (s.setX r w).tick = s.tick := by rw [setX_eq]
@[simp] theorem setX_free (s : State) (r : XReg) (w : Word) : (s.setX r w).free = s.free := by rw [setX_eq]
@[simp] theorem setX_vault (s : State) (r : XReg) (w : Word) : (s.setX r w).vault = s.vault := by rw [setX_eq]
@[simp] theorem setX_hbm (s : State) (r : XReg) (w : Word) : (s.setX r w).hbm = s.hbm := by rw [setX_eq]
@[simp] theorem setX_mirror (s : State) (r : XReg) (w : Word) : (s.setX r w).mirror = s.mirror := by rw [setX_eq]
@[simp] theorem setX_mmio (s : State) (r : XReg) (w : Word) : (s.setX r w).mmio = s.mmio := by rw [setX_eq]
@[simp] theorem setX_layers (s : State) (r : XReg) (w : Word) : (s.setX r w).layers = s.layers := by rw [setX_eq]
@[simp] theorem setX_flying (s : State) (r : XReg) (w : Word) : (s.setX r w).flying = s.flying := by rw [setX_eq]
@[simp] theorem setX_acks (s : State) (r : XReg) (w : Word) : (s.setX r w).acks = s.acks := by rw [setX_eq]
@[simp] theorem setX_lost (s : State) (r : XReg) (w : Word) : (s.setX r w).lost = s.lost := by rw [setX_eq]
@[simp] theorem setX_out (s : State) (r : XReg) (w : Word) : (s.setX r w).out = s.out := by rw [setX_eq]
@[simp] theorem setX_flits (s : State) (r : XReg) (w : Word) : (s.setX r w).flits = s.flits := by rw [setX_eq]
@[simp] theorem setX_queue (s : State) (r : XReg) (w : Word) : (s.setX r w).queue = s.queue := by rw [setX_eq]
@[simp] theorem setX_records (s : State) (r : XReg) (w : Word) : (s.setX r w).records = s.records := by rw [setX_eq]
@[simp] theorem setX_host (s : State) (r : XReg) (w : Word) : (s.setX r w).host = s.host := by rw [setX_eq]
@[simp] theorem setX_walks (s : State) (r : XReg) (w : Word) : (s.setX r w).walks = s.walks := by rw [setX_eq]
@[simp] theorem setX_requests (s : State) (r : XReg) (w : Word) : (s.setX r w).requests = s.requests := by rw [setX_eq]
@[simp] theorem setX_wells (s : State) (r : XReg) (w : Word) : (s.setX r w).wells = s.wells := by rw [setX_eq]
@[simp] theorem setX_terms (s : State) (r : XReg) (w : Word) : (s.setX r w).terms = s.terms := by rw [setX_eq]
@[simp] theorem setX_reads (s : State) (r : XReg) (w : Word) : (s.setX r w).reads = s.reads := by rw [setX_eq]
@[simp] theorem setX_served (s : State) (r : XReg) (w : Word) : (s.setX r w).served = s.served := by rw [setX_eq]
@[simp] theorem setX_timed (s : State) (r : XReg) (w : Word) : (s.setX r w).timed = s.timed := by rw [setX_eq]
@[simp] theorem setX_later (s : State) (r : XReg) (w : Word) : (s.setX r w).later = s.later := by rw [setX_eq]
@[simp] theorem setX_signals (s : State) (r : XReg) (w : Word) : (s.setX r w).signals = s.signals := by rw [setX_eq]
@[simp] theorem setX_slots (s : State) (r : XReg) (w : Word) : (s.setX r w).slots = s.slots := by rw [setX_eq]
@[simp] theorem setX_queues (s : State) (r : XReg) (w : Word) : (s.setX r w).queues = s.queues := by rw [setX_eq]
@[simp] theorem setX_lastQueue (s : State) (r : XReg) (w : Word) : (s.setX r w).lastQueue = s.lastQueue := by rw [setX_eq]
@[simp] theorem setX_quotes (s : State) (r : XReg) (w : Word) : (s.setX r w).quotes = s.quotes := by rw [setX_eq]
@[simp] theorem setX_quoted (s : State) (r : XReg) (w : Word) : (s.setX r w).quoted = s.quoted := by rw [setX_eq]
@[simp] theorem setX_deadLinks (s : State) (r : XReg) (w : Word) : (s.setX r w).deadLinks = s.deadLinks := by rw [setX_eq]
@[simp] theorem setX_orphans (s : State) (r : XReg) (w : Word) : (s.setX r w).orphans = s.orphans := by rw [setX_eq]
@[simp] theorem setX_power (s : State) (r : XReg) (w : Word) : (s.setX r w).power = s.power := by rw [setX_eq]
@[simp] theorem setX_vmus (s : State) (r : XReg) (w : Word) : (s.setX r w).vmus = s.vmus := by rw [setX_eq]
@[simp] theorem setX_core_num (s : State) (r : XReg) (w : Word) : (s.setX r w).core.num = s.core.num := by rw [setX_eq]
@[simp] theorem setX_core_a (s : State) (r : XReg) (w : Word) : (s.setX r w).core.a = s.core.a := by rw [setX_eq]
@[simp] theorem setX_core_v (s : State) (r : XReg) (w : Word) : (s.setX r w).core.v = s.core.v := by rw [setX_eq]
@[simp] theorem setX_core_m (s : State) (r : XReg) (w : Word) : (s.setX r w).core.m = s.core.m := by rw [setX_eq]
@[simp] theorem setX_core_t (s : State) (r : XReg) (w : Word) : (s.setX r w).core.t = s.core.t := by rw [setX_eq]
@[simp] theorem setX_core_c (s : State) (r : XReg) (w : Word) : (s.setX r w).core.c = s.core.c := by rw [setX_eq]
@[simp] theorem setX_core_s (s : State) (r : XReg) (w : Word) : (s.setX r w).core.s = s.core.s := by rw [setX_eq]
@[simp] theorem setX_core_csrs (s : State) (r : XReg) (w : Word) : (s.setX r w).core.csrs = s.core.csrs := by rw [setX_eq]
@[simp] theorem setX_core_qs (s : State) (r : XReg) (w : Word) : (s.setX r w).core.qs = s.core.qs := by rw [setX_eq]
@[simp] theorem setX_core_wid (s : State) (r : XReg) (w : Word) : (s.setX r w).core.wid = s.core.wid := by rw [setX_eq]
@[simp] theorem setX_core_rlim (s : State) (r : XReg) (w : Word) : (s.setX r w).core.rlim = s.core.rlim := by rw [setX_eq]
@[simp] theorem setX_core_ss (s : State) (r : XReg) (w : Word) : (s.setX r w).core.ss = s.core.ss := by rw [setX_eq]
@[simp] theorem setX_core_pp (s : State) (r : XReg) (w : Word) : (s.setX r w).core.pp = s.core.pp := by rw [setX_eq]
@[simp] theorem setX_core_p (s : State) (r : XReg) (w : Word) : (s.setX r w).core.p = s.core.p := by rw [setX_eq]
@[simp] theorem setX_core_epc (s : State) (r : XReg) (w : Word) : (s.setX r w).core.epc = s.core.epc := by rw [setX_eq]
@[simp] theorem setX_core_cause (s : State) (r : XReg) (w : Word) : (s.setX r w).core.cause = s.core.cause := by rw [setX_eq]
@[simp] theorem setX_core_tval (s : State) (r : XReg) (w : Word) : (s.setX r w).core.tval = s.core.tval := by rw [setX_eq]
@[simp] theorem setX_core_prot (s : State) (r : XReg) (w : Word) : (s.setX r w).core.prot = s.core.prot := by rw [setX_eq]
@[simp] theorem setX_core_rhit (s : State) (r : XReg) (w : Word) : (s.setX r w).core.rhit = s.core.rhit := by rw [setX_eq]
@[simp] theorem setX_core_locks (s : State) (r : XReg) (w : Word) : (s.setX r w).core.locks = s.core.locks := by rw [setX_eq]
@[simp] theorem setX_core_frame (s : State) (r : XReg) (w : Word) : (s.setX r w).core.frame = s.core.frame := by rw [setX_eq]
@[simp] theorem setX_core_pc (s : State) (r : XReg) (w : Word) : (s.setX r w).core.pc = s.core.pc := by rw [setX_eq]
@[simp] theorem setX_core_npc (s : State) (r : XReg) (w : Word) : (s.setX r w).core.npc = s.core.npc := by rw [setX_eq]
@[simp] theorem setX_core_iw (s : State) (r : XReg) (w : Word) : (s.setX r w).core.iw = s.core.iw := by rw [setX_eq]
@[simp] theorem setX_core_link (s : State) (r : XReg) (w : Word) : (s.setX r w).core.link = s.core.link := by rw [setX_eq]
@[simp] theorem setX_core_snap (s : State) (r : XReg) (w : Word) : (s.setX r w).core.snap = s.core.snap := by rw [setX_eq]
@[simp] theorem setX_core_pins (s : State) (r : XReg) (w : Word) : (s.setX r w).core.pins = s.core.pins := by rw [setX_eq]
@[simp] theorem setX_core_loc (s : State) (r : XReg) (w : Word) : (s.setX r w).core.loc = s.core.loc := by rw [setX_eq]
@[simp] theorem setX_core_sb (s : State) (r : XReg) (w : Word) : (s.setX r w).core.sb = s.core.sb := by rw [setX_eq]
@[simp] theorem setX_core_task (s : State) (r : XReg) (w : Word) : (s.setX r w).core.task = s.core.task := by rw [setX_eq]
@[simp] theorem setX_core_tstate (s : State) (r : XReg) (w : Word) : (s.setX r w).core.tstate = s.core.tstate := by rw [setX_eq]
@[simp] theorem setX_core_wait (s : State) (r : XReg) (w : Word) : (s.setX r w).core.wait = s.core.wait := by rw [setX_eq]
@[simp] theorem setX_core_slots (s : State) (r : XReg) (w : Word) : (s.setX r w).core.slots = s.core.slots := by rw [setX_eq]
@[simp] theorem setX_core_stalled (s : State) (r : XReg) (w : Word) : (s.setX r w).core.stalled = s.core.stalled := by rw [setX_eq]
@[simp] theorem setX_core_completed (s : State) (r : XReg) (w : Word) : (s.setX r w).core.completed = s.core.completed := by rw [setX_eq]
@[simp] theorem setX_core_progress (s : State) (r : XReg) (w : Word) : (s.setX r w).core.progress = s.core.progress := by rw [setX_eq]
@[simp] theorem setX_core_vmuWait (s : State) (r : XReg) (w : Word) : (s.setX r w).core.vmuWait = s.core.vmuWait := by rw [setX_eq]
@[simp] theorem setX_core_owed (s : State) (r : XReg) (w : Word) : (s.setX r w).core.owed = s.core.owed := by rw [setX_eq]
@[simp] theorem setX_core_unsent (s : State) (r : XReg) (w : Word) : (s.setX r w).core.unsent = s.core.unsent := by rw [setX_eq]
@[simp] theorem setX_core_gaveUp (s : State) (r : XReg) (w : Word) : (s.setX r w).core.gaveUp = s.core.gaveUp := by rw [setX_eq]
@[simp] theorem setX_core_freezeDue (s : State) (r : XReg) (w : Word) : (s.setX r w).core.freezeDue = s.core.freezeDue := by rw [setX_eq]
@[simp] theorem setX_core_remoteStores (s : State) (r : XReg) (w : Word) : (s.setX r w).core.remoteStores = s.core.remoteStores := by rw [setX_eq]
@[simp] theorem setX_core_rorder (s : State) (r : XReg) (w : Word) : (s.setX r w).core.rorder = s.core.rorder := by rw [setX_eq]

end Sys2Proof.Machine
end

