-- ==== Sys2Proof/Tests/Slice0.lean ====
section
/-! SUPPORT. Tests on fixed values: which terms are instructions, words of every family decoded, one
step of an instruction with its result from the manual, and for every statement with hypotheses a state
and operands that meet them. -/

namespace Sys2Proof.Tests

-- one proof after another: each evaluates much
set_option Elab.async false

open Sys2Proof Sys2Proof.Machine Sys2Proof.Claims

/-! ### States that the tests start from -/

/-- A launch that runs its first phase and grants everything. -/
def launch0 : Launch :=
  { hdrs := [placedTask.hdr], state := .running
    grants := { barl := 2 ^ 64 - 1, barp := 2 ^ 64 - 1, jnl := 2 ^ 64 - 1, jnp := 2 ^ 64 - 1, trg := 2 ^ 64 - 1
                qp := 2 ^ 256 - 1, cg := 2 ^ 256 - 1, gg := 2 ^ 256 - 1 } }

/-- The registers: addresses in the vaults, local memory, the mirrored region and space 4, and small
numbers. -/
def regs0 : Vector Word 62 :=
  Vector.ofFn fun i => ([0, 0x1000_0000_0000_1000, 0x2000_0000_0000_0100, 0x3000_0000_0000_0020,
    0x4000_0000_0000_0000, 5, 0, -1, 0x1000_0000_0000_2000, 0x2000_0000_0000_0400,
    0x2000_0000_0000_0000] : List Word).getD i.val 0

/-- Core 0 runs a task of the running context 0, with 62 registers, all of local memory, a handler and every
space granted. -/
def user : State :=
  { core := {
      task := some placedTask, rlim := 62, pc := 0x1000_0000_0000_0100, npc := 0x1000_0000_0000_0104, x := regs0
      prot := Vector.ofFn fun i => ([0x9E3F_FFFF_F000_0000, 0xAE3F_FFFF_F000_0000, 0xBE3F_FFFF_F000_0000,
        0xCE3F_FFFF_F000_0000] : List Word).getD i.val 0 }
    mmio := resetRegs.writeN 0x0010_0000 8 1
    slots := [{ id := 0, queue := 0, ctx := 0, sig := 0, sigHost := true, sigval := 1, kind := .launch launch0 }] }

/-- The same in the handler. -/
def priv : State := { user with core := { user.core with p := true } }

theorem usable (s : State) (fields cells : List Nat) (hp : s.poison = []) (h : ∀ i ∈ fields, i = 0 ∨ i < s.core.rlim)
    (hr : s.core.rorder = [] := by rfl) :
    Usable s fields cells := ⟨h, by simp [State.awaits, hr], by simp [hp]⟩

theorem plain_nil : Plain [] := by simp [Plain, InMemory]
theorem plain_vault (off n : Nat) : Plain [(.vault off, n)] := by simp [Plain, InMemory]
theorem plain_hbm (off n : Nat) : Plain [(.hbm off, n)] := by simp [Plain, InMemory]
theorem plain_loc (c off n : Nat) : Plain [(.loc c off, n)] := by simp [Plain, InMemory]
theorem mem_mirror (off n : Nat) : InMemory [(.mirror off, n)] := by simp [InMemory]

theorem heard_user : Heard user := ⟨rfl, by decide +kernel, placedTask, rfl, by decide⟩

theorem granted_user (f : Grants → Nat) (n : Nat) (h : (f launch0.grants).testBit n = true) : Granted user f n :=
  ⟨_, List.mem_singleton.mpr rfl, rfl, launch0, rfl, h⟩

theorem unheard_user : Unheard user := by
  intro k hk
  simp [user] at hk

def flit0 : Flit := { words := List.replicate 8 0 }

/-- A term of core 0 for well 0 of router 0. -/
def term0 (tag : Word) (p : TermPhase) : Term :=
  { src := .core 0, ctx := 0, home := 0, idx := 0, inc := 1, tag := tag, scaled := false, lt := true, bf16 := false
    data := List.replicate 64 0, phase := p }

/-- A read of it. -/
def read0 (gen : Nat) (p : ReadPhase) : WellRead :=
  { core := 0, ctx := 0, home := 0, idx := 0, inc := 1, delta := false, bf16 := false, rd := 61, handle := 0x100_0000
    dst := 0x2000_0000_0000_0400, desc := 0x2000_0000_0000_0100, req := 0, gen := gen, dl := 100, base := 0, phase := p
    d := 1, e := 0, got := [(0, List.replicate 64 (some 0))] }


/-! ### Terms that are no instructions -/

/-- R52: two literals. -/
theorem test_ill_formed_two_literals :
    ([.add 1 (.lit32 0) (.lit32 0), .sel 1 (.lit32 0) (.lit64 0) 2, .madd 1 (.lit64 0) (.lit64 0), .fadd 1 (.lit32 0) (.lit32 0) .rne,
      .beq (.lit32 0) (.lit32 0) 0, .movxw (.lit32 0) (.lit32 0) 0, .amoAdd 1 (.lit64 0) (.lit32 0) true false false,
      .bkopSumS32 1 (.lit32 0) (.lit32 0), .bkopFill (.lit32 0) (.reg 1) (.lit32 0), .rpost (.reg 1) (.lit32 0) (.lit32 0) false false false,
      .ldx 1 (.lit32 0) (.lit32 0) false .b64, .stx (.lit32 0) (.reg 1) (.lit32 0) false .b8, .st (.lit32 0) (.lit32 0) .b8 0,
      .vld 1 (.strided (.lit32 0) (.lit32 0)) none, .gld (.lit32 0) (.lit32 0) 0 0, .sbind 0 (.lit32 0) (.lit32 0) 0,
      .spawn (.lit32 0) (.lit32 0), .barw (.lit32 0) (.lit32 0), .csetup 1 (.lit32 0) (.lit32 0), .cqwait 1 (.lit32 0) (.lit32 0),
      .xinvPage (.lit32 0) (.lit32 0)] : List Instr).all (fun i => !wellFormed i) = true := by decide

/-- R91, R106, R113, R119, R145, R159-R161: the operand limits of single instructions. -/
theorem test_ill_formed_operands :
    ([.ld 3 (.reg 1) 0 .p 0, .ld 0 (.reg 1) 0 .p 0, .ldx 61 (.reg 1) (.reg 2) true .p, .st (.reg 3) (.reg 1) .p 0,
      .st (.lit32 0) (.reg 1) .p 0, .lda 2 (.reg 1) .system .b64 false false 0, .stl (.reg 2) (.reg 1) .package .b8 false false 0,
      .loop 0 0, .spinw 1 (.reg 2) 0 5, .spinw 1 (.reg 2) 0 27, .vtopk 1 2 0 none, .vtopk 1 2 9 none,
      .accrd 1 0 0 false .rne .img, .accst 0 1 2 false false .rne .img, .accld 0 1 0 false false .rne .bf16,
      .accld 0 1 0 false false .rup .f32] : List Instr).all (fun i => !wellFormed i) = true := by decide

/-! ### Words written out from the tables of R53-R66 -/

theorem test_decode_alu :
    decodeWord 0x02188281 0 0 = .ok (.sub 3 (.reg 4) (.reg 5)) ∧ decodeWord 0x0630FFC0 0 0 = .ok (.andi 6 (.reg 7) (-64))
      ∧ decodeWord 0x0C412203 0 0 = .ok (.srai 8 (.reg 9) false 3) ∧ decodeWord 0x0E516602 0 0 = .ok (.mulhu 10 (.reg 11) (.reg 12))
      ∧ decodeWord 0x10188283 0 0 = .ok (.remu 3 (.reg 4) (.reg 5)) ∧ decodeWord 0x12188284 0 0 = .ok (.cmp 3 (.reg 4) (.reg 5) .ltu)
      ∧ decodeWord 0x1430EE64 0 0 = .ok (.cmpi 6 (.reg 7) .gt 100) ∧ decodeWord 0x16188289 0 0 = .ok (.sel 3 (.reg 4) (.reg 5) 9)
      ∧ decodeWord 0x18188280 0 0 = .ok (.extz 3 (.reg 4) (.reg 5)) ∧ decodeWord 0x1A188283 0 0 = .ok (.addsh 3 (.reg 4) (.reg 5) 3)
      ∧ decodeWord 0x1C188289 0 0 = .ok (.fmul 3 (.reg 4) (.reg 5) .rtz) := ⟨rfl, rfl, rfl, rfl, rfl, rfl, rfl, rfl, rfl, rfl, rfl⟩

theorem test_decode_jumps :
    decodeWord 0x2430FFFB 0 0 = .ok (.blt (.reg 6) (.reg 7) (-5)) ∧ decodeWord 0x28281FFD 0 0 = .ok (.loop 5 (-3))
      ∧ decodeWord 0x2E00000C 0 0 = .ok (.call 12) ∧ decodeWord 0x2A002002 0 0 = .ok (.ret (.reg 1))
      ∧ decodeWord 0x2A08E001 0 0 = .ok (.jalr 1 (.reg 7)) ∧ decodeWord 0x1E000000 0 0 = .ok (.hint 0) :=
  ⟨rfl, rfl, rfl, rfl, rfl, rfl⟩

theorem test_decode_moves :
    decodeWord 0x30188000 0 0 = .ok (.mov 3 (.reg 4)) ∧ decodeWord 0x3C1FA001 0 0 = .ok (.li 3 61 1)
      ∧ decodeWord 0x32190007 0 0 = .ok (.movx 3 (.reg 8) 7) ∧ decodeWord 0x34491FFF 0 0 = .ok (.movxw (.reg 9) (.reg 8) (-1))
      ∧ decodeWord 0x3610A000 0 0 = .ok (.movaToPointer 2 (.reg 5)) ∧ decodeWord 0x3E08C000 0 0 = .ok (.movmToMask 1 (.reg 6)) :=
  ⟨rfl, rfl, rfl, rfl, rfl, rfl⟩

theorem test_decode_vectors :
    decodeWord 0x80321401 0 0 = .ok (.vsub 3 4 5 none)
      ∧ decodeWord 0x8E810D80 0 0 = .ok (.vfma 8 2 3 (some 1) .rne)
      ∧ decodeWord 0xA0212000 0 0 = .ok (.vbcast 4 (.reg 9))
      ∧ decodeWord 0xA6286300 0 0 = .ok (.vmovx 5 3 (.reg 6))
      ∧ decodeWord 0xCE20E180 0 0 = .ok (.repf 1 7 1 4) :=
  ⟨rfl, rfl, rfl, rfl, rfl⟩

theorem test_decode_matrix :
    decodeWord 0xB0000503 0 0 = .ok (.mma 0 0 1 true false .c8)
      ∧ decodeWord 0xB2111004 0 0 = .ok (.mmaw 1 2 4 false false .i8)
      ∧ decodeWord 0xC2129800 0 0 = .ok (.tld 1 5 6)
      ∧ decodeWord 0xC4228000 0 0 = .ok (.tst 2 5 0) :=
  ⟨rfl, rfl, rfl, rfl⟩

theorem test_decode_tasks :
    decodeWord 0xD000A003 0 0 = .ok (.yield (.reg 5))
      ∧ decodeWord 0xD200A300 0 0 = .ok (.spawn (.reg 5) (.reg 6))
      ∧ decodeWord 0xD4188280 0 0 = .ok (.barInit 3 (.reg 4) (.reg 5))
      ∧ decodeWord 0xD4308001 0 0 = .ok (.barArr 6 (.reg 4))
      ∧ decodeWord 0xD4008302 0 0 = .ok (.barw (.reg 4) (.reg 6))
      ∧ decodeWord 0xD6188280 0 0 = .ok (.joinArm 3 (.reg 4) (.reg 5))
      ∧ decodeWord 0xD8280000 0 0 = .ok (.msgPoll 5)
      ∧ decodeWord 0xDA28C000 0 0 = .ok (.compose 5 (.reg 6))
      ∧ decodeWord 0xDC000000 0 0 = .ok (.decompose)
      ∧ decodeWord 0xE828C380 0 0 = .ok (.cqwait 5 (.reg 6) (.reg 7)) :=
  ⟨rfl, rfl, rfl, rfl, rfl, rfl, rfl, rfl, rfl, rfl⟩

theorem test_decode_memory :
    decodeWord 0x5A000000 0 0 = .ok (.region)
      ∧ decodeWord 0x70412000 0 0 = .ok (.rnew 8 (.reg 9))
      ∧ decodeWord 0x72406501 0 0 = .ok (.rpost (.reg 8) (.reg 3) (.reg 10) false false true) :=
  ⟨rfl, rfl, rfl⟩

theorem test_decode_system :
    decodeWord 0xF2000005 0 0 = .ok (.trap 5)
      ∧ decodeWord 0xF2080000 0 0 = .ok (.brk 0)
      ∧ decodeWord 0xF4000000 0 0 = .ok (.eret)
      ∧ decodeWord 0xF6008280 0 0 = .ok (.xinvPage (.reg 4) (.reg 5))
      ∧ decodeWord 0xF8308000 0 0 = .ok (.gstop 6 (.reg 4))
      ∧ decodeWord 0xFA308000 0 0 = .ok (.freeze 6 (.reg 4))
      ∧ decodeWord 0xFC308000 0 0 = .ok (.lctlSleep 6 (.reg 4)) :=
  ⟨rfl, rfl, rfl, rfl, rfl, rfl, rfl⟩

/-- R52: literals follow the word; code 62 takes one word and code 63 two, the low one first. -/
theorem test_decode_literals :
    decodeWord 0x18189F00 0x804 0 = .ok (.extz 3 (.reg 4) (.lit32 0x804))
      ∧ decodeWord 0x18189F80 0x804 1 = .ok (.extz 3 (.reg 4) (.lit64 0x1_0000_0804)) := ⟨rfl, rfl⟩

/-- R65: no instruction has major 0x00 or 0x7F, the ALU sub-code 0x12 or two literals. -/
theorem test_decode_refused :
    decodeWord 0 0 0 = .error .major ∧ decodeWord 0xFE000000 0 0 = .error .major
      ∧ (decodeTableWord 32 0x02188292).isNone = true ∧ (decodeTableWord 32 0x021FDF80).isNone = true := by
  refine ⟨rfl, rfl, ?_, ?_⟩ <;> decide +kernel

/-- R51: the bytes that withFetchWord places are fetched and run: ADDI x1, x0, 5 is the first instruction. -/
theorem test_first_instruction :
    (match step (State.reset.withFetchWord 32 0x04080005) with
      | .next t => t.core.x[1] == 5 && t.core.pc == 0x1000_0000_0000_0004
      | _ => false) = true := by decide +kernel

/-! ### Hypotheses met -/

theorem witness_IntegerArithmetic :
    Usable user ((61 : XReg).val :: ((XSrc.reg 60).regs ++ (XSrc.lit32 7).regs))
        ((XSrc.reg 60).cells ++ (XSrc.lit32 7).cells)
      ∧ Usable user [] [cellX 61]
      ∧ 0x12 ≤ (0x17 : BitVec 7).toNat ∧ ¬(0x18 ≤ (0x17 : BitVec 7).toNat ∧ (0x17 : BitVec 7).toNat ≤ 0x1B)
      ∧ 0x12 ≤ (0x1C : BitVec 7).toNat ∧ ¬(0x18 ≤ (0x1C : BitVec 7).toNat ∧ (0x1C : BitVec 7).toNat ≤ 0x1B)
      ∧ 8 ≤ (8 : BitVec 7).toNat := by decide +kernel

theorem witness_IntegerOperands :
    Usable user ((61 : XReg).val :: (XSrc.reg 60).regs) (XSrc.reg 60).cells
      ∧ Usable user ((61 : XReg).val :: ((XSrc.reg 1).regs ++ (XSrc.reg 2).regs ++ [(60 : XReg).val]))
          ((XSrc.reg 1).cells ++ (XSrc.reg 2).cells ++ [cellX (60 : XReg).val])
      -- a task with eight registers: x8 is none of them
      ∧ (let s := { user with core := { user.core with rlim := 8 } }
        Usable s ((7 : XReg).val :: ((XSrc.reg 1).regs ++ (XSrc.reg 2).regs)) [] ∧ ¬Usable s [(8 : XReg).val] [])
      ∧ Usable user [] [cellX 61]
      ∧ 10 ≤ (10 : BitVec 7).toNat ∧ 10 ≤ (10 : BitVec 4).toNat ∧ 3 ≤ (3 : BitVec 7).toNat ∧ (1 : BitVec 6) ≠ 0
      ∧ 8 ≤ (8 : BitVec 7).toNat ∧ (1 : BitVec 7) ≠ 0 := by decide +kernel

theorem witness_ScalarFloats :
    Usable user ((61 : XReg).val :: ((XSrc.reg 60).regs ++ (XSrc.reg 7).regs)) ((XSrc.reg 60).cells ++ (XSrc.reg 7).cells)
      ∧ Usable user [] [cellX 61] ∧ 0 < 1 ∧ 4 % 2 = 0
      -- codes: the greatest, a NaN; -0; a negative number; the greatest finite one
      ∧ 0xFFFF_FFFF < 2 ^ 32 ∧ 0x7F80_0000 < 0xFFFF_FFFF % 2 ^ 31 ∧ 0x8000_0000 % 2 ^ 31 = 0
      ∧ 2 ^ 31 ≤ 0x8000_0001 ∧ 0x8000_0001 % 2 ^ 31 ≠ 0 ∧ 0 < 0x7F7F_FFFF ∧ 0x7F7F_FFFF < 0x7F80_0000 := by decide +kernel

theorem witness_ControlFlow :
    Usable user ((XSrc.reg 1).regs ++ (XSrc.reg 61).regs) ((XSrc.reg 1).cells ++ (XSrc.reg 61).cells)
      ∧ 1 < user.core.rlim ∧ ({ user with core := { user.core with rlim := 1 } } : State).core.rlim ≤ 1
      ∧ (user.src (.reg 1)).toNat % 4 = 0 ∧ (user.src (.reg 5)).toNat % 4 ≠ 0
      ∧ Usable user ((61 : XReg).val :: (XSrc.reg 5).regs) (XSrc.reg 5).cells
      ∧ 3 ≤ (3 : BitVec 7).toNat ∧ (1 : BitVec 6) ≠ 0 ∧ (2 : BitVec 7) ≠ 1 := by decide +kernel

theorem witness_CountedLoops :
    (61 : XReg).val ≠ 0 ∧ Usable user [(61 : XReg).val] [cellX (61 : XReg).val] ∧ (1 : BitVec 6) ≠ 0 := by
  decide +kernel

theorem witness_RegisterMoves :
    Usable user ((61 : XReg).val :: (XSrc.reg 5).regs) (XSrc.reg 5).cells
      -- x5 holds 5, and 5 + 56 is the last register
      ∧ user.src (.reg 5) + (56 : BitVec 13).signExtend 64 = BitVec.ofNat 64 (61 : XReg).val
      ∧ Usable user [(61 : XReg).val] [cellX 61] ∧ Usable user [(61 : XReg).val] []
      ∧ (user.src (.reg 5) + (-6 : BitVec 13).signExtend 64).toInt < 0
      ∧ user.src (.reg 5) + (57 : BitVec 13).signExtend 64 ≠ 0
      ∧ user.core.rlim ≤ (user.src (.reg 5) + (57 : BitVec 13).signExtend 64).toNat
      ∧ Usable user ((XSrc.reg 60).regs ++ (XSrc.reg 5).regs) ((XSrc.reg 60).cells ++ (XSrc.reg 5).cells)
      ∧ Usable user (XSrc.reg 5).regs (XSrc.reg 5).cells ∧ (0 : QReg).val ≠ 7 ∧ user.vmuBusy = false
      ∧ Usable user (XSrc.reg 5).regs (cellA 7 :: (XSrc.reg 5).cells) ∧ Usable user [] [cellA 7]
      ∧ Usable user [61] [cellA 7] ∧ Usable user [61] [cellQs 7] ∧ Usable user [61] [cellM 3]
      ∧ Usable user [] [cellM 3] := by
  and_intros <;> decide +kernel

theorem witness_FlitMoves :
    Usable user (XSrc.reg 5).regs (XSrc.reg 5).cells
      ∧ user.core.csrs.qdst.toNat % 8192 < 6144 ∧ (∀ k < 7, Place.reg user.core.num (cellQs k) ∉ user.poison)
      ∧ user.core.csrs.qdst.getLsbD 63 = false ∧ user.msgBlocked (user.core.csrs.qdst.toNat % 8192) = false
      ∧ (∀ c ∈ user.core.circuits.toList, c = none)
      ∧ (let q : Word := 0x8000_0000_0000_17FF; q.toNat % 8192 < 6144 ∧ q.getLsbD 63 = true)
      ∧ (let q : Word := 0x1800; 6144 ≤ q.toNat % 8192)
      ∧ Usable user [61] [] ∧ (6 : QReg).val ≠ 7
      ∧ ({ user with core := { user.core with latched := some flit0 } } : State).core.latched = some flit0 ∧ flit0.bad = false
      ∧ (let t : Stream := { entry := some 0, start := 0, width := 8, count := 1, buf := [some 7] }
        let s : State := { user with core := { user.core with s := user.core.s.set 7 (some t) } }
        s.core.s[(7 : SReg)] = some t ∧ t.entry.isSome = true ∧ t.pos < t.count ∧ t.buf = some 7 :: [])
      ∧ user.core.s[(7 : SReg)] = none
      ∧ ({ entry := some 0, start := 0, width := 8, count := 1, pos := 1 } : Stream).count ≤ 1 := by decide +kernel

theorem witness_Loads :
    user.orderedBack = false ∧ user.gldHolds [(.vault 0x1000, 8)] = false ∧ user.gldHolds [(.loc 0 0x300, 16)] = false
      ∧ (let a : Word := 0x1000_0000_0000_1000;
        user.check { align := user.loadAlign a 8 false } a 8 = .ok [(.vault 0x1000, 8)]
        ∧ user.mustWait [(.vault 0x1000, 8)] = false
        ∧ Usable user (loadRegs 61 .b64 ++ (XSrc.reg 1).regs) (XSrc.reg 1).cells
        ∧ a = user.src (.reg 1) + BitVec.signExtend 64 (0 : BitVec 6) * BitVec.ofNat 64 (loadSize .b64)
        ∧ user.check { align := user.loadAlign a 8 true } a 8 = .ok [(.vault 0x1000, 8)]
        ∧ a = user.src (.reg 1) + BitVec.signExtend 64 (0 : BitVec 4) * BitVec.ofNat 64 (loadSize .b64)
        ∧ a = user.src (.reg 1) + user.src (.reg 6) * BitVec.ofNat 64 (loadSize .b64)
        ∧ a = user.src (.reg 1) + user.src (.reg 6))
      -- the farthest pair below x2, into x60 and x61
      ∧ (let a : Word := 0x1FFF_FFFF_FFFF_FF00 + 0x400;
        user.check { align := user.loadAlign a 16 false } a 16 = .ok [(.loc 0 0x300, 16)]
        ∧ user.mustWait [(.loc 0 0x300, 16)] = false
        ∧ Usable user (loadRegs 60 .p ++ (XSrc.reg 9).regs) (XSrc.reg 9).cells
        ∧ a = user.src (.reg 9) + BitVec.signExtend 64 (-16 : BitVec 6) * BitVec.ofNat 64 (loadSize .p)) := by
  and_intros <;> decide +kernel

theorem witness_Stores :
    (let a : Word := 0x1000_0000_0000_1000;
      user.check (user.storeAccess a (storeSize .b4) false) a (storeSize .b4) = .ok [(.vault 0x1000, 4)]
      ∧ user.check (user.storeAccess a (storeSize .b4) true) a (storeSize .b4) = .ok [(.vault 0x1000, 4)]
      ∧ Usable user (storeRegs (.reg 61) .b4 ++ (XSrc.reg 1).regs) (storeCells (.reg 61) .b4 ++ (XSrc.reg 1).cells)
      ∧ a = user.src (.reg 1) + BitVec.signExtend 64 (0 : BitVec 10) * BitVec.ofNat 64 (storeSize .b4)
      ∧ a = user.src (.reg 1) + BitVec.signExtend 64 (0 : BitVec 4) * BitVec.ofNat 64 (storeSize .b4)
      ∧ user.settled .system = true
      ∧ a = user.src (.reg 1) + user.src (.reg 6) * BitVec.ofNat 64 (storeSize .b4)
      ∧ a = user.src (.reg 1) + user.src (.reg 6))
    ∧ (let a : Word := 0x3000_0000_0000_0020;
      user.check (user.storeAccess a (storeSize .p) false) a (storeSize .p) = .ok [(.mirror 0x20, 16)]
      ∧ Usable user (storeRegs (.reg 60) .p ++ (XSrc.reg 3).regs) (storeCells (.reg 60) .p ++ (XSrc.reg 3).cells)
      ∧ a = user.src (.reg 3) + BitVec.signExtend 64 (0 : BitVec 10) * BitVec.ofNat 64 (storeSize .p)) := by
  and_intros <;> decide +kernel

theorem witness_StoreThenLoad :
    Plain [(.vault 0x1000, 2)] ∧ [1#8, 2#8].length = ([(Home.vault 0x1000, 2)].map (·.2)).sum
      ∧ (places [(.vault 0x1000, 2)]).Nodup ∧ (places [(.vault 0x1000, 2)])[1]? = some (.vault 0x1001)
      ∧ [1#8, 2#8][1]? = some 2#8 ∧ Home.vault 0x1002 ∉ places [(.vault 0x1000, 2)]
      ∧ InMemory [(.mirror 0x20, 16)] :=
  ⟨plain_vault .., by decide +kernel, by decide +kernel, by decide +kernel, by decide +kernel, by decide +kernel,
    mem_mirror 0x20 16⟩

/-- A task with 256 bytes of local memory. -/
def small : State := { user with core := { user.core with
  task := some { placedTask with hdr := { placedTask.hdr with localSize := 256 } } } }

theorem witness_AccessChecks :
    (0 < 8 ∧ 16384 < 16380 + 8)
      ∧ (252 + 8 ≤ 16384 ∧ Nat.min (small.core.protReach 2 .load 252 8) (small.core.localSize - 252) < 8)
      ∧ (248 + 8 ≤ 16384 ∧ 8 ≤ Nat.min (small.core.protReach 2 .load 248 8) (small.core.localSize - 248)
        ∧ (∀ i : Fin 16, small.core.locks[i] = none) ∧ small.poison = [])
      ∧ (Usable user (loadRegs 61 .b64 ++ (XSrc.lit64 0x5000_0000_0000_0000).regs) (XSrc.lit64 0x5000_0000_0000_0000).cells
        ∧ user.orderedBack = false)
      ∧ (let v := (user.src (.lit64 0x5000_0000_0000_0000)).toNat; 5 * 2 ^ 60 ≤ v ∧ v < 2 ^ 63)
      -- package 1023, with no route and with one
      ∧ (let v := (user.src (.lit64 0xFFE0_0000_0000_0004)).toNat; let s := { user with mmio := user.mmio.writeN 0x0042_07FE 2 1 };
        2 ^ 63 ≤ v ∧ user.route (v / 2 ^ 53 % 1024) = 0 ∧ s.route (v / 2 ^ 53 % 1024) ≠ 0 ∧ v % loadSize .b64 ≠ 0)
      ∧ (let v := (user.src (.lit64 0x1000_0000_4000_0000)).toNat; 2 ^ 60 + 2 ^ 30 ≤ v ∧ v < 2 ^ 61)
      ∧ (let v := (user.src (.lit64 0x2000_0000_0000_4000)).toNat; 2 ^ 61 + 2 ^ 14 ≤ v ∧ v < 3 * 2 ^ 60)
      ∧ (let v := (user.src (.lit64 0x3FFF_FFFF_FFFF_FFFF)).toNat; 3 * 2 ^ 60 + 2 ^ 22 ≤ v ∧ v < 2 ^ 62)
      ∧ (let v := (user.src (.lit64 0x4000_0000_FFFF_FFF8)).toNat;
        2 ^ 62 ≤ v ∧ v + loadSize .b64 ≤ 2 ^ 62 + 2 ^ 32 ∧ v % loadSize .b64 = 0 ∧ user.core.p = false)
      ∧ (let v := (user.src (.lit64 0x1000_0000_000F_FFF7)).toNat;
        2 ^ 60 ≤ v ∧ v < 2 ^ 60 + 2 ^ 30 ∧ v / 2 ^ 21 % 512 < 384 ∧ (user.layer (v / 2 ^ 26 % 16)).state ≠ .retired
          ∧ v % 2 ^ 20 + loadSize .b64 ≤ 2 ^ 20 ∧ v % loadSize .b64 ≠ 0 ∧ user.wellArea (v / 2 ^ 20 % 1024) = 2 ^ 20) := by
  and_intros <;> decide +kernel

theorem witness_VectorMemory :
    user.vmuBusy = false ∧ (∀ i < 64, InMemory [(.vault (0x1000 + 4 * i), 4)])
      ∧ Usable user (modeRegs (.contiguous (.reg 1))) (modeCells (.contiguous (.reg 1)) ++ maskCells none)
      ∧ (∀ i < 64, user.check { allow := .noGlobal, align := 4 } (user.laneAddr (.contiguous (.reg 1)) i) 4
          = .ok [(.vault (0x1000 + 4 * i), 4)])
      ∧ (∀ i < 64, user.mustWait [(.vault (0x1000 + 4 * i), 4)] = false)
      ∧ Usable user (modeRegs (.strided (.reg 1) (.lit32 4)))
          (cellV 31 :: (modeCells (.strided (.reg 1) (.lit32 4)) ++ maskCells (some 3)))
      ∧ (∀ i < 64, user.check { kind := .store, allow := .noGlobal, align := 4 }
          (user.laneAddr (.strided (.reg 1) (.lit32 4)) i) 4 = .ok [(.vault (0x1000 + 4 * i), 4)])
      ∧ (∀ i, Plain [(.vault (0x1000 + 4 * i), 4)] ∧ ([(Home.vault (0x1000 + 4 * i), 4)].map (·.2)).sum = 4) :=
  ⟨by decide +kernel, fun _ _ => (plain_vault ..).1, by decide +kernel, by decide +kernel, by decide +kernel,
    by decide +kernel, by decide +kernel, fun _ => ⟨plain_vault .., rfl⟩⟩

theorem witness_BlockMoves :
    Usable user ((XSrc.reg 2).regs ++ (XSrc.reg 1).regs) ((XSrc.reg 2).cells ++ (XSrc.reg 1).cells)
      ∧ user.spaceOf (user.src (.reg 2)).toNat = .loc 0x100
      ∧ user.check { align := 16 * 2 ^ (3 : BitVec 2).toNat } (user.src (.reg 1)) 128 = .ok [(.vault 0x1000, 128)]
      ∧ user.check { kind := .store, align := 128 } (user.src (.reg 2)) 128 = .ok [(.loc 0 0x100, 128)]
      ∧ user.check { align := 128 } (user.src (.reg 2)) 128 = .ok [(.loc 0 0x100, 128)]
      ∧ user.check { kind := .store, align := 128 } (user.src (.reg 1)) 128 = .ok [(.vault 0x1000, 128)]
      ∧ user.mustWait [(.vault 0x1000, 128)] = false ∧ user.mustWait [(.loc 0 0x100, 128)] = false
      ∧ user.orderedBack = false ∧ user.gldHolds ([(.vault 0x1000, 128)] ++ [(.loc 0 0x100, 128)]) = false
      ∧ user.settled .system = true := by
  and_intros <;> decide +kernel

/-- Two words of a vault: 5 and -2. -/
def words : State := { user with vault := Memory.writeBytes [] 0x1000 (bytesOf 4 5 ++ bytesOf 4 0xFFFF_FFFE) }

theorem witness_AtomicOperations :
    (Usable user ((61 : XReg).val :: ((XSrc.reg 1).regs ++ (XSrc.reg 5).regs))
        (cellX (61 : XReg).val :: ((XSrc.reg 1).cells ++ (XSrc.reg 5).cells))
      ∧ user.check { kind := .atomic, allow := .noMirrorMmio, align := 8 } (user.src (.reg 1)) 8 = .ok [(.vault 0x1000, 8)]
      ∧ user.check { kind := .atomic, allow := .noMirrorMmio, align := 4 } (user.src (.reg 1)) 4 = .ok [(.vault 0x1000, 4)]
      ∧ user.performed = true ∧ user.mustWait [(.vault 0x1000, 8)] = false ∧ user.settled .system = true
      ∧ user.poisonHit [] (.vault 0x1000) 8 = none)
    ∧ (let si := ((List.range 2).map fun i => ofBytes (((words.loadSegs [(.vault 0x1000, 8)]).drop (4 * i)).take 4)).map (toS 32)
      words.bankOk (words.src (.reg 1)) (words.src (.lit32 2)) = true
      ∧ Usable words ((61 : XReg).val :: ((XSrc.reg 1).regs ++ (XSrc.lit32 2).regs)) ((XSrc.reg 1).cells ++ (XSrc.lit32 2).cells)
      ∧ words.check {} (words.src (.reg 1)) (4 * 2) = .ok [(.vault 0x1000, 8)]
      ∧ words.check { kind := .store } (words.src (.reg 1)) (4 * 2) = .ok [(.vault 0x1000, 8)]
      ∧ words.performed = true ∧ words.mustWait [(.vault 0x1000, 8)] = false
      ∧ ([(Home.vault 0x1000, 8)].map (·.2)).sum = 4 * 2 ∧ (places [(.vault 0x1000, 8)]).Nodup
      ∧ si = [5, -2]
      ∧ (-2 : Int) ∈ si ∧ (∀ y ∈ si, -2 ≤ y) ∧ (5 : Int) ∈ si ∧ (∀ y ∈ si, y ≤ 5)
      ∧ si[1]? = some (-2) ∧ (∀ j < 1, si[j]? ≠ some (-2)) ∧ si[0]? = some 5) := by
  and_intros <;> decide +kernel

theorem witness_Ordering :
    user.settled .system = true
      ∧ (let e : SbEntry := { home := .vault 0, addr := 0x1000_0000_0000_0000, bytes := [1] }
        ({ user with core := { user.core with sb := [e] } } : State).settled .system = false)
      ∧ Usable user ((61 : XReg).val :: (XSrc.reg 1).regs) (cellX (61 : XReg).val :: (XSrc.reg 1).cells)
      ∧ user.core.rwait = false ∧ user.frameWait = false
      ∧ user.check { allow := .noLocMmio, align := 8 } (user.src (.reg 1)) 8 = .ok [(.vault 0x1000, 8)]
      ∧ user.mustWait [(.vault 0x1000, 8)] = false
      -- nothing has written the word: it reads as x6 and not as x5
      ∧ BitVec.ofNat 64 (ofBytes (user.loadSegs [(.vault 0x1000, 8)])) = user.rx 6
      ∧ BitVec.ofNat 64 (ofBytes (user.loadSegs [(.vault 0x1000, 8)])) ≠ user.rx 5 ∧ user.core.woken = false
      ∧ (let a := user.src (.reg 1) + (-0x800 : BitVec 12).signExtend 64
        user.check { kind := .store, locks := false, data := false } a 1 = .ok [(.vault 0x800, 1)]
        ∧ 2 ^ 60 ≤ a.toNat ∧ a.toNat < 2 ^ 63) := by
  and_intros <;> decide +kernel

/-- A control block at x2: to 0x1000_0000_0000_2000 from 0x1000_0000_0000_1000, 32 bytes, with `flg`. -/
def block (dst flg : Nat) : State := { user with core := { user.core with
  loc := Memory.writeBytes [] 0x100 (bytesOf 8 dst ++ bytesOf 8 0x1000_0000_0000_1000 ++ bytesOf 4 32 ++ bytesOf 4 flg) } }

/-- What R122 asks of a control block, for the block at x2 of a state. -/
abbrev blockOk (s : State) (dst flg : Nat) : Prop :=
  let bs := s.loadSegs [(.loc 0 0x100, 32)]
  s.spaceOf (s.src (.reg 2)).toNat = .loc 0x100 ∧ (s.src (.reg 2)).toNat % 32 = 0
    ∧ s.check {} (s.src (.reg 2)) 32 = .ok [(.loc 0 0x100, 32)]
    ∧ ofBytes (bs.take 8) = dst ∧ ofBytes ((bs.drop 8).take 8) = 0x1000_0000_0000_1000
    ∧ ofBytes ((bs.drop 16).take 4) = 32 ∧ ofBytes ((bs.drop 20).take 4) = flg ∧ ofBytes (bs.drop 24) = 0 ∧ flg < 4
    ∧ s.check { kind := .load, locks := false, data := false } (BitVec.ofNat 64 0x1000_0000_0000_1000) 32
      = .ok [(.vault 0x1000, 32)]
    ∧ s.core.locks[(0 : Fin 16)] = none ∧ (∀ i : Fin 16, i < 0 → s.core.locks[i] ≠ none)

theorem witness_Copies :
    (let s := block 0x1000_0000_0000_2000 0;
      blockOk s 0x1000_0000_0000_2000 0 ∧ Usable s ((61 : XReg).val :: (XSrc.reg 2).regs) (XSrc.reg 2).cells
      ∧ 0x1000_0000_0000_1000 + 32 ≤ 0x1000_0000_0000_2000
      ∧ s.check { kind := .store, locks := false, data := false } (BitVec.ofNat 64 0x1000_0000_0000_2000) 32
        = .ok [(.vault 0x2000, 32)])
    ∧ (let s := block 0 3;
      blockOk s 0 3 ∧ Usable s (XSrc.reg 2).regs (XSrc.reg 2).cells ∧ 32 % 2 ^ 3 = 0
        ∧ s.core.s[(7 : SReg)] = none)
    ∧ Unheard user := by
  refine ⟨?_, ?_, unheard_user⟩ <;> and_intros <;> decide +kernel

theorem witness_Streams :
    (let t : Stream := { entry := none, start := 0x2000_0000_0000_0100, width := 8, count := 4 }
      let s : State := { user with core := { user.core with s := user.core.s.set 7 (some t) } }
      s.core.s[(7 : SReg)] = some t ∧ t.entry = none ∧ Usable s (XSrc.reg 5).regs (XSrc.reg 5).cells)
    ∧ Usable user ((XSrc.reg 2).regs ++ (XSrc.reg 5).regs) ((XSrc.reg 2).cells ++ (XSrc.reg 5).cells)
    ∧ user.core.s[(7 : SReg)] = none ∧ Unheard user
    ∧ user.check { allow := .onlyLoc, align := 2 ^ BitVec.toNat (3 : BitVec 2), data := false } (user.src (.reg 2))
        ((user.src (.reg 5)).toNat * 2 ^ BitVec.toNat (3 : BitVec 2)) = .ok [(.loc 0 0x100, 40)] ∧ (user.src (.reg 5)).toNat ≠ 0
    -- no element, at the end of local memory
    ∧ user.spaceOf (user.src (.lit64 0x2000_0000_0000_3FF8)).toNat = .loc 0x3FF8
    ∧ (user.src (.lit64 0x2000_0000_0000_3FF8)).toNat % 2 ^ BitVec.toNat (3 : BitVec 2) = 0 ∧ (user.src (.reg 6)).toNat = 0
    ∧ Usable user [61] [] ∧ (user.src (.reg 5)).toNat % 16 = (5 : Fin 16).val ∧ (∀ f : Fin 16, user.core.locks[f] = none)
    ∧ (let k : LockEntry := { kind := .copy, src := 0, dst := 0, len := 1 }
      ({ user with core := { user.core with locks := user.core.locks.set 5 (some k) } } : State).core.locks[(5 : Fin 16)]
        ≠ none) := by
  refine ⟨?_, ?_, ?_, unheard_user, ?_⟩ <;> and_intros <;> decide +kernel

/-- The resource of the VMU is free for the core. -/
def lent (s : State) (array : Bool) : Bool := (s.vmuTake array).isSome

theorem witness_VectorArithmetic :
    lent user false = true ∧ Usable user [] ([cellV (31 : VReg).val, cellV (30 : VReg).val] ++ maskCells (some 3))
      ∧ Usable user [] (cellV (31 : VReg).val :: maskCells none) ∧ Usable user [] [cellV (31 : VReg).val, cellV (0 : VReg).val] := by
  decide +kernel

theorem witness_VectorLanes :
    lent user false = true ∧ Usable user [] ([cellV (31 : VReg).val, cellV (30 : VReg).val] ++ maskCells (some 3))
      ∧ Usable user [] (cellV (31 : VReg).val :: maskCells none) ∧ Usable user [] (maskCells (some 0))
      ∧ Usable user [] [cellM (3 : MReg).val, cellM (0 : MReg).val]
      ∧ Usable user [] [cellV (31 : VReg).val, cellV (30 : VReg).val, cellM (3 : MReg).val]
      ∧ Usable user (XSrc.reg 61).regs (cellV (31 : VReg).val :: (XSrc.reg 61).cells)
      ∧ Usable user ((61 : XReg).val :: (XSrc.reg 7).regs) (cellV (31 : VReg).val :: (XSrc.reg 7).cells)
      ∧ activeLanes user 1 (some 0) = [] ∧ activeLanes user 1 none ≠ []
      -- all zero; a NaN; one infinity; both; finite and not all zero
      ∧ (let lanes (x y : Lane) : List FV :=
          let s := { user with core := { user.core with v := user.core.v.set 1 ((Vector.replicate 64 x).set 63 y) } };
          (activeLanes s 1 none).map fun p => fmtF32.value p.2.toNat
        let inf (l : List FV) (n : Bool) : Bool := l.any (· == FV.inf n)
        (lanes 0 0x8000_0000).all FV.isZero = true ∧ (lanes 0 0x7FC0_0001).any FV.isNan = true
        ∧ (inf (lanes 0 0xFF80_0000) true && !inf (lanes 0 0xFF80_0000) false && !(lanes 0 0xFF80_0000).any FV.isNan) = true
        ∧ (inf (lanes 0x7F80_0000 0xFF80_0000) true && inf (lanes 0x7F80_0000 0xFF80_0000) false) = true
        ∧ (!inf (lanes 0 1) true && !inf (lanes 0 1) false && !(lanes 0 1).any FV.isNan && !(lanes 0 1).all FV.isZero) = true)
      ∧ 1 ≤ (1 : BitVec 5).toNat ∧ (8 : BitVec 5).toNat ≤ 8 := by
  and_intros <;> decide +kernel

theorem witness_TileMoves :
    lent user false = true ∧ Usable user [] [cellT (3 : TReg).val]
      ∧ Memory.wf user.core.t[(3 : TReg)] = true ∧ (∀ p ∈ user.core.t[(3 : TReg)], p.1 < 8192)
      ∧ Usable user [] [cellV (31 : VReg).val] ∧ (∀ r < 64, Plain [(.vault (0x1000 + 128 * r), 128)])
      ∧ (∀ r < 64, ∀ i < 8, Plain [(.vault (0x1000 + 128 * r + 16 * i), 16)]) ∧ user.vmuBusy = false
      ∧ (128 : Word) = (if user.rx (x5 6) = 0 then 128 else user.rx (x5 6))
      ∧ (user.rx (x5 1)).toNat % 16 = 0 ∧ (user.rx (x5 5)).toNat % 16 ≠ 0
      ∧ Usable user [(1 : X5Reg).val, (6 : X5Reg).val] [cellX (1 : X5Reg).val, cellX (6 : X5Reg).val]
      ∧ rowsPass user .load (user.rx (x5 1)) 128 (fun r => [(.vault (0x1000 + 128 * r), 128)])
      ∧ (∀ r < 64, user.mustWait [(.vault (0x1000 + 128 * r), 128)] = false)
      ∧ Usable user [(1 : X5Reg).val, (6 : X5Reg).val] [cellT 3, cellX (1 : X5Reg).val, cellX (6 : X5Reg).val]
      ∧ rowsPass user .store (user.rx (x5 1)) 128 (fun r => [(.vault (0x1000 + 128 * r), 128)])
      ∧ (∀ r < 64, ∀ i < 8, user.check { kind := .store, allow := .mem0123 } (tileAt (user.rx (x5 1)) 128 r i) 16
          = .ok [(.vault (0x1000 + 128 * r + 16 * i), 16)]) := by
  refine ⟨?_, ?_, ?_, ?_, ?_, fun _ _ => plain_vault .., fun _ _ _ _ => plain_vault .., ?_⟩ <;> and_intros <;> decide +kernel

/-- Page 1 of address space 0 lies in frame 3 of stack 0, with what `perms` grants; context 0 of package 0
is imported as address space 0; router 0 has its translation, and x9 points to it. -/
def paged (perms : Nat) : State := { user with
  core := { user.core with x := user.core.x.set 9 0x20_0000 }
  mmio := ((user.mmio.writeN 0x0008_0040 8 0x20_0000).writeN 0x0100_0030 16
      (2 ^ 127 + perms * 2 ^ 122 + 2 ^ 64 + 0xFFFFF * 2 ^ 44)).writeN 0x0140_0004 4 0x8000_0003
  hbm := Memory.writeN [] 0x20_0000 4 0x8000_0000
  tlb := [{ unit := 0, asid := 0, vpn := 1, pa := 0x60_0000, perms := BitVec.ofNat 5 perms, dirty := true, mig := false }] }

/-- Page 1 of `paged 31` stays. -/
theorem paged_stays (n : Nat) (h : 0 < n) (hn : n ≤ 2 ^ 21) : PagesStay (paged 31) 0x20_0000 n := by
  have hs : (paged 31).spaceOf (0x20_0000 : Word).toNat = .virt 0x20_0000 := by decide +kernel
  intro va e q h1 h2
  rw [hs] at e
  injection e with e
  obtain rfl : q = 1 := by omega
  exact ⟨0, 3, by decide +kernel, by decide +kernel⟩

/-- At x1, 128 bytes of ones: the map of an image without zero elements. -/
def ones : State := { user with vault := Memory.writeBytes [] 0x1000 (List.replicate 128 255) }

/-- An image with this map fits where no other begins before the last: its length is 128 bytes and what
its map asks. The map of zeros ends at 16384 in window 31; the map of ones does not. -/
theorem witness_ShareLoads :
    (let acc : Access := { allow := .mem0123, align := 16 };
      let len (s : State) (g : List (Home × Nat)) : Nat := 128 + 8 * ((s.loadSegs g).map fun b => (List.range 8).countP b.getLsbD).sum
      user.vmuBusy = false ∧ Usable user [(1 : X5Reg).val] [cellX (1 : X5Reg).val]
      ∧ user.check acc (user.rx (x5 1)) 128 = .ok [(.vault 0x1000, 128)] ∧ user.mustWait [(.vault 0x1000, 128)] = false
      ∧ 512 * (31 : Fin 32).val + len user [(.vault 0x1000, 128)] ≤ 16384 ∧ len user [(.vault 0x1000, 128)] = 128
      ∧ (∀ va, user.spaceOf (user.rx (x5 1)).toNat ≠ .virt va)
      ∧ ones.check acc (ones.rx (x5 1)) 128 = .ok [(.vault 0x1000, 128)] ∧ ones.mustWait [(.vault 0x1000, 128)] = false
      ∧ 16384 < 512 * (31 : Fin 32).val + len ones [(.vault 0x1000, 128)]
      ∧ (let s := paged 31;
        Usable s [(9 : X5Reg).val] [cellX (9 : X5Reg).val] ∧ s.vmuBusy = false
        ∧ s.check acc (s.rx (x5 9)) 128 = .ok [(.hbm 0x60_0000, 128)] ∧ s.mustWait [(.hbm 0x60_0000, 128)] = false
        ∧ len s [(.hbm 0x60_0000, 128)] = 128 ∧ PagesStay s (s.rx (x5 9)) 128)) := by
  have h : user.spaceOf (user.rx (x5 1)).toNat = .vault 0x1000 := by decide +kernel
  have hr : (paged 31).rx (x5 9) = 0x20_0000 := by decide +kernel
  refine ⟨?_, ?_, ?_, ?_, ?_, ?_, by simp [h], ?_, ?_, ?_, ?_, ?_, ?_, ?_, ?_, ?_⟩
  on_goal 15 => rw [hr]; exact paged_stays 128 (by decide) (by decide)
  all_goals decide +kernel

theorem witness_DecodeTables :
    (let es (s : State) := (List.range 256).map fun i => ofBytes (((s.loadSegs [(.vault 0x1000, 1024)]).drop (4 * i)).take 4);
      let acc : Access := { allow := .mem0123, align := 4 };
      user.vmuBusy = false ∧ Usable user [(1 : X5Reg).val] [cellX (1 : X5Reg).val]
      ∧ user.check acc (user.rx (x5 1)) 1024 = .ok [(.vault 0x1000, 1024)] ∧ user.mustWait [(.vault 0x1000, 1024)] = false
      ∧ (∀ e ∈ es user, e < 2 ^ 19)
      ∧ words.check acc (words.rx (x5 1)) 1024 = .ok [(.vault 0x1000, 1024)] ∧ (∃ e ∈ es words, 2 ^ 19 ≤ e)
      ∧ lent user false = true ∧ Usable user [] [cellV (31 : VReg).val, cellTab] ∧ user.core.table.encOk = true
      ∧ (DTable.loaded (List.replicate 256 0) false).encOk = false) := by
  and_intros <;> decide +kernel

/-- FMTA and FMTB name the format of code 4, and c0 counts integers. -/
def ints : State := { user with core := { user.core with
  csrs := { user.core.csrs with fmta := 4, fmtb := 4 }, c := user.core.c.set 0 { imode := true } } }

/-- The formats of the operands are scaled ones, code 11, with their scales at the start of local memory. -/
def scaled : State := { user with core := { user.core with
  csrs := { user.core.csrs with fmta := 11, fmtb := 11 } } }
/-- The skip log takes 8 bits at the start of local memory; SKCTL is `k` and the next bit is `p`. -/
def skipping (k : BitVec 2) (p : BitVec 16) : State :=
  let q := { user.core.csrs with skctl := k, sklen := 8, skpos := p }
  { user with core := { user.core with erow := 1, csrs := q } }

theorem witness_MatrixMultiply :
    lent user true = true ∧ Usable user [] ([cellT (3 : TReg).val, cellT (0 : TReg).val, cellTab] ++ (List.range 8).map fun i => cellPart (32 * 31 + i))
      ∧ Paired user 1 .any false 64 ∧ Paired ints 0 .i8 true 128
      ∧ ScalesAre user user.core.csrs.fmta 0 [] ∧ (∃ l, ScalesAre scaled scaled.core.csrs.fmtb 3 l)
      ∧ (∃ imode k, Paired scaled 1 .any imode k) ∧ ImageIn user 31
      ∧ Usable user (XSrc.reg 1).regs (XSrc.reg 1).cells
      ∧ user.check { allow := .mem0123, align := 128 } (user.src (.reg 1)) 8192 = .ok [(.vault 0x1000, 8192)]
      ∧ user.mustWait [(.vault 0x1000, 8192)] = false
      -- formats that do not pair, another type, the other mode
      ∧ (∀ imode k, ¬Paired { user with core := { user.core with csrs := { user.core.csrs with fmtb := 4 } } } 1 .any imode k)
      ∧ (∀ imode k, ¬Paired user 1 .i8 imode k) ∧ (∀ imode k, ¬Paired ints 1 .i8 imode k)
      -- the end of the skip log, a bit of it to replay, and one to store
      ∧ (skipping 0 8).core.csrs.skpos = (skipping 0 8).core.csrs.sklen ∧ lent (skipping 0 8) true = true
      ∧ (∀ k ∈ ([0, 2] : List (BitVec 2)), let s : State := skipping k 7;
        lent s true = true ∧ Usable s [] [cellT (3 : TReg).val, cellT (0 : TReg).val, cellTab] ∧ Paired s 1 .any false 64
        ∧ s.core.csrs.skpos ≠ s.core.csrs.sklen
        ∧ s.check { kind := if k = 0 then .store else .load } 0x2000_0000_0000_0000 1 = .ok [(.loc 0 0, 1)])
      ∧ (skipping 2 7).core.csrs.skctl.getLsbD 1 = true ∧ (skipping 0 7).core.csrs.skctl.getLsbD 1 = false
      ∧ (BitVec.ofNat 64 (2 ^ 61 + ((skipping 0 7).core.csrs.skbase.toNat + 7 / 8)) : Word) = 0x2000_0000_0000_0000
      -- rows of zeros are low
      ∧ ((mRow (user.core.csrs.fmta.toNat % 8) 64 user.core.table [] user.core.t[(3 : TReg)] 0).all fun p => p.v.isZero) = true
      ∧ (user.core.c[(0 : CReg)].elems.Pairwise fun p q => p.1 < q.1) ∧ 64 ≤ 64
      ∧ (stepOf user false 64 [] [] false).imode = false ∧ (stepOf ints true 128 [] [] false).imode = true
      -- terms of one step: a NaN product; both infinities, one; zeros; a largest weight
      ∧ FV.nan ∈ mProds { v := .inf true } { v := .fin false 0 0 }
      ∧ FV.inf true ∈ [FV.inf true, .inf false] ∧ FV.inf false ∈ [FV.inf true, .inf false]
      ∧ FV.nan ∉ [FV.inf true, .fin false 1 0] ∧ FV.inf false ∉ [FV.inf true, .fin false 1 0]
      ∧ ([FV.fin true 0 0, .fin true 0 0].all FV.isZero = true)
      ∧ (FV.fin true 3 (-2) ∈ [FV.fin true 3 (-2), .fin false 1 (-9)] ∧ 3 ≠ 0 ∧ (Nat.log2 3 : Int) + -2 = -1
        ∧ (Nat.log2 1 : Int) + -9 ≤ -1) := by
  have hp : mmaPair (user.core.csrs.fmta.toNat % 8) (4 % 8) = none := by decide +kernel
  have hi : ¬(Ty.i8 = .any ∨ Ty.i8.code = user.core.csrs.fmta.toNat % 8) := by decide +kernel
  have hm : mmaPair (ints.core.csrs.fmta.toNat % 8) (ints.core.csrs.fmtb.toNat % 8) = some (true, 128) := by decide +kernel
  have hn : ints.core.c[(1 : CReg)].imode = false := by decide +kernel
  have hc : mmaPair (scaled.core.csrs.fmta.toNat % 8) (scaled.core.csrs.fmtb.toNat % 8) = some (false, 128) := by decide +kernel
  refine ⟨?_, ?_, by unfold Paired; decide +kernel, by unfold Paired; decide +kernel, .inl ⟨by decide +kernel, rfl⟩,
    ⟨_, .inr ⟨by decide +kernel, [(.loc 0 192, 64)], by decide +kernel, rfl⟩⟩, ⟨false, 128, hc, .inl rfl, by decide +kernel⟩,
    ⟨by decide +kernel, by decide +kernel, fun _ _ => List.not_mem_nil⟩, ?_, ?_, ?_, fun _ _ h => by simpa [hp] using h.1, fun _ _ h => hi h.2.1,
    fun _ _ h => ?_, ?_⟩
  on_goal 6 =>
    have h1 := h.1.symm.trans hm
    have h2 := h.2.2
    simp only [Option.some.injEq, Prod.mk.injEq] at h1
    rw [hn, h1.1] at h2
    cases h2
  all_goals try unfold Paired
  all_goals and_intros <;> decide +kernel

/-- A store of four bytes anywhere in local memory passes its checks. -/
theorem check_loc (off : Nat) (h : off + 4 ≤ 16384) :
    user.check { kind := .store, allow := .mem012 } (BitVec.ofNat 64 (2305843009213693952 + off)) 4
      = .ok [(.loc 0 off, 4)] := by
  have hv : (BitVec.ofNat 64 (2305843009213693952 + off)).toNat = 2305843009213693952 + off := by
    rw [BitVec.toNat_ofNat]; exact Nat.mod_eq_of_lt (by omega)
  have hs : user.spaceOf (2305843009213693952 + off) = .loc off := by
    have h1 : bits (2305843009213693952 + off) 63 1 = 0 := by simp only [bits]; omega
    have h2 : bits (2305843009213693952 + off) 60 3 = 2 := by simp only [bits]; omega
    have h3 : bits (2305843009213693952 + off) 14 46 = 0 := by simp only [bits]; omega
    have h4 : bits (2305843009213693952 + off) 0 14 = off := by simp only [bits]; omega
    simp [State.spaceOf, h1, h2, h3, h4]
  have hp : user.core.prot.toList = 0x9E3F_FFFF_F000_0000#64 :: 0xAE3F_FFFF_F000_0000#64 :: 0xBE3F_FFFF_F000_0000#64
      :: 0xCE3F_FFFF_F000_0000#64 :: List.replicate 12 0 := by decide +kernel
  have hc : protCovers 0xAE3F_FFFF_F000_0000#64 2 .store off = true := by
    have hl : protLim 0xAE3F_FFFF_F000_0000#64 = 2 ^ 26 - 1 := by decide +kernel
    have hb : protBase 0xAE3F_FFFF_F000_0000#64 = 0 := by decide +kernel
    have hg : (protV 0xAE3F_FFFF_F000_0000#64 && protSp 0xAE3F_FFFF_F000_0000#64 == 2
        && protGrants 0xAE3F_FFFF_F000_0000#64 .store) = true := by decide +kernel
    simp only [protCovers, hl, hb, hg]; simp; omega
  have hr : user.core.protReach 2 .store off 4 = 4 := by
    have hl : protLim 0xAE3F_FFFF_F000_0000#64 = 2 ^ 26 - 1 := by decide +kernel
    have e (w : Word) (hw : (protV w && protSp w == 2) = false) : protCovers w 2 .store off = false := by
      simp only [protCovers, hw]; simp
    rw [Core.protReach, hp]
    simp only [List.foldl_cons, e 0x9E3F_FFFF_F000_0000#64 (by decide +kernel), e 0xBE3F_FFFF_F000_0000#64 (by decide +kernel),
      e 0xCE3F_FFFF_F000_0000#64 (by decide +kernel), hc, hl, List.replicate, e 0 (by decide +kernel), List.foldl_nil]
    simp; omega
  have hz : user.core.localSize = 16384 := rfl
  have hk : user.core.lockHit .store (2305843009213693952 + off) 4 = none := by
    have hl (i : Fin 16) : user.core.locks[i] = none := by fin_cases i <;> rfl
    simp only [Core.lockHit, hl, Option.bind_none]
    exact List.foldl_fixed ..
  have hf : user.core.protFail (.loc off) .store 4 = none := by
    simp only [Core.protFail, hr, hz]; simp; omega
  have he : user.spaceEnd (.loc off) 4 = none := by simp [State.spaceEnd, h]
  simp [State.check, hv, hs, hf, he, Allow.ok, hk, Nat.mod_one]
  have hn : user.core.num = 0 := rfl
  simp [hn]

theorem writeBytes_zeros (n a : Nat) (l : List Byte) :
    Memory.writeBytes [] a (List.replicate n 0 ++ l) = Memory.writeBytes [] (a + n) l := by
  induction n generalizing a with
  | zero => rfl
  | succ n ih =>
    rw [List.replicate_succ, List.cons_append, Memory.writeBytes]
    have : Memory.write [] a 0 = [] := rfl
    rw [this, ih]
    congr 1
    omega

/-- A store of 16 bytes anywhere in the first slice of vault 0 passes its checks. -/
theorem check_parts (off : Nat) (h : off + 16 ≤ 2 ^ 20) :
    user.check { kind := .store, allow := .mem01 } (BitVec.ofNat 64 (1152921504606846976 + off)) 16
      = .ok [(.vault off, 16)] := by
  have hv : (BitVec.ofNat 64 (1152921504606846976 + off)).toNat = 1152921504606846976 + off := by
    rw [BitVec.toNat_ofNat]; exact Nat.mod_eq_of_lt (by omega)
  have hs : user.spaceOf (1152921504606846976 + off) = .vault off := by
    have h1 : bits (1152921504606846976 + off) 63 1 = 0 := by simp only [bits]; omega
    have h2 : bits (1152921504606846976 + off) 60 3 = 1 := by simp only [bits]; omega
    have h3 : bits (1152921504606846976 + off) 21 9 = 0 := by simp only [bits]; omega
    have h4 : bits (1152921504606846976 + off) 30 30 = 0 := by simp only [bits]; omega
    have h5 : bits (1152921504606846976 + off) 0 30 = off := by simp only [bits]; omega
    have h6 : ((user.layer (layerOfRouter 0)).state != .retired) = true := by decide +kernel
    simp [State.spaceOf, h1, h2, h3, h4, h5, h6, numRouters]
  have hp : user.core.prot.toList = 0x9E3F_FFFF_F000_0000#64 :: 0xAE3F_FFFF_F000_0000#64 :: 0xBE3F_FFFF_F000_0000#64
      :: 0xCE3F_FFFF_F000_0000#64 :: List.replicate 12 0 := by decide +kernel
  have hc : protCovers 0x9E3F_FFFF_F000_0000#64 1 .store off = true := by
    have hl : protLim 0x9E3F_FFFF_F000_0000#64 = 2 ^ 26 - 1 := by decide +kernel
    have hb : protBase 0x9E3F_FFFF_F000_0000#64 = 0 := by decide +kernel
    have hg : (protV 0x9E3F_FFFF_F000_0000#64 && protSp 0x9E3F_FFFF_F000_0000#64 == 1
        && protGrants 0x9E3F_FFFF_F000_0000#64 .store) = true := by decide +kernel
    simp only [protCovers, hl, hb, hg]; simp; omega
  have hr : user.core.protReach 1 .store off 16 = 16 := by
    have hl : protLim 0x9E3F_FFFF_F000_0000#64 = 2 ^ 26 - 1 := by decide +kernel
    have e (w : Word) (hw : (protV w && protSp w == 1) = false) : protCovers w 1 .store off = false := by
      simp only [protCovers, hw]; simp
    rw [Core.protReach, hp]
    simp only [List.foldl_cons, e 0xAE3F_FFFF_F000_0000#64 (by decide +kernel), e 0xBE3F_FFFF_F000_0000#64 (by decide +kernel),
      e 0xCE3F_FFFF_F000_0000#64 (by decide +kernel), hc, hl, List.replicate, e 0 (by decide +kernel), List.foldl_nil]
    simp; omega
  have hk : user.core.lockHit .store (1152921504606846976 + off) 16 = none := by
    have hl (i : Fin 16) : user.core.locks[i] = none := by fin_cases i <;> rfl
    simp only [Core.lockHit, hl, Option.bind_none]
    exact List.foldl_fixed ..
  have hf : user.core.protFail (.vault off) .store 16 = none := by
    simp [Core.protFail, hr]
  have hw : user.wellArea 0 = 2 ^ 20 := by decide +kernel
  have he : user.spaceEnd (.vault off) 16 = none := by
    have h0 : off / 2 ^ 20 = 0 := by omega
    have h1 : off % 2 ^ 20 = off := by omega
    have hl : ((user.layer (layerOfRouter (0 / 2))).state == .retired) = false := by decide +kernel
    simp only [State.spaceEnd, h0, h1, State.vaultEnd, hw, hl]
    rw [if_neg (by decide), if_neg (by omega), if_pos (by omega)]
  simp [State.check, hv, hs, hf, he, Allow.ok, hk, Nat.mod_one]

theorem witness_Accumulators :
    lent user false = true ∧ Usable user [(61 : XReg).val] []
      ∧ user.core.c[(1 : CReg)].imode = false ∧ ints.core.c[(0 : CReg)].imode = true
      -- an element of 2^35 is outside the 36 bits that ACCSTAT bit 0 speaks of, and outside 32 bits
      ∧ (let t : Acc := { imode := true, elems := [(0, 2 ^ 35)] }; Wide t ∧ cut t 0 ≠ (t.elem 0).toInt)
      ∧ user.vmuBusy = false ∧ Usable user [(10 : X5Reg).val, (6 : X5Reg).val] [cellX (10 : X5Reg).val, cellX (6 : X5Reg).val]
      ∧ user.check { allow := .mem012, align := 4 } (user.rx (x5 10)) 16384 = .ok [(.loc 0 0, 16384)]
      ∧ user.mustWait [(.loc 0 0, 16384)] = false ∧ (user.rx (x5 10)).toNat % 4 = 0 ∧ user.rx (x5 6) = 0
      ∧ (BitVec.ofNat 64 (64 * 4) : Word).toNat % 4 = 0
      ∧ (∀ i j, i < 64 → j < 64 → ∃ g, Plain g
          ∧ user.check { kind := .store, allow := .mem012 } (user.rx (x5 10) + BitVec.ofNat 64 (256 * i + 4 * j)) 4 = .ok g)
      ∧ user.check { kind := .store, allow := .mem01, align := 64 } (user.rx (x5 1)) 65600 = .ok [(.vault 0x1000, 65600)]
      ∧ (∀ i < 4100, user.check { kind := .store, allow := .mem01 } (user.rx (x5 1) + BitVec.ofNat 64 (16 * i)) 16
          = .ok [(.vault (0x1000 + 16 * i), 16)])
      ∧ user.check { allow := .mem01, align := 64 } (user.rx (x5 1)) 65600 = .ok [(.vault 0x1000, 65600)]
      ∧ user.mustWait [(.vault 0x1000, 65600)] = false ∧ (∀ va, user.spaceOf (user.rx (x5 1)).toNat ≠ .virt va)
      ∧ imageOk (Memory.writeBytes [] 0 (List.replicate 65599 0 ++ [0])) = true
      ∧ imageOk (Memory.writeBytes [] 0 (List.replicate 65599 0 ++ [1])) = false
      ∧ (let s := paged 31;
        s.check { allow := .mem012, align := 4 } (s.rx (x5 9)) 16384 = .ok [(.hbm 0x60_0000, 16384)]
        ∧ PagesStay s (s.rx (x5 9)) 16384 ∧ s.check { allow := .mem01, align := 64 } (s.rx (x5 9)) 65600 = .ok [(.hbm 0x60_0000, 65600)]
        ∧ PagesStay s (s.rx (x5 9)) 65600) := by
  have h : user.spaceOf (user.rx (x5 1)).toNat = .vault 0x1000 := by decide +kernel
  have hr : (paged 31).rx (x5 9) = 0x20_0000 := by decide +kernel
  refine ⟨?_, ?_, ?_, ?_, by unfold Wide; decide +kernel, ?_, ?_, ?_, ?_, ?_, ?_, ?_,
    fun i j hi hj => ⟨[(.loc 0 (256 * i + 4 * j), 4)], plain_loc .., ?_⟩, ?_, fun i hi => ?_, ?_, ?_, by simp [h],
    by rw [writeBytes_zeros]; decide, by rw [writeBytes_zeros]; decide, ?_,
    by rw [hr]; exact paged_stays _ (by decide) (by decide), ?_, by rw [hr]; exact paged_stays _ (by decide) (by decide)⟩
  on_goal 12 =>
    have h : user.rx (x5 10) = BitVec.ofNat 64 2305843009213693952 := by decide +kernel
    rw [h, ← BitVec.ofNat_add]
    exact check_loc _ (by omega)
  on_goal 13 =>
    have h : user.rx (x5 1) = BitVec.ofNat 64 (1152921504606846976 + 0x1000) := by decide +kernel
    rw [h, ← BitVec.ofNat_add, Nat.add_assoc]
    exact check_parts _ (by omega)
  all_goals decide +kernel

theorem witness_ControlRegisters :
    Usable user [(61 : XReg).val] [cellTab] ∧ user.vmuBusy = false ∧ user.core.members.length ∈ [0, 1, 3, 7, 15]
      ∧ priv.core.p = true ∧ user.core.p = false ∧ 0x800 ≤ (0x800 : BitVec 12).toNat
      ∧ (0x004 : BitVec 12).toNat < 0x800 ∧ (0x004 : BitVec 12).toNat ≠ 0x403
      ∧ (∀ n ∈ [0x001, 0x002, 0x003, 0x005, 0x006, 0x007, 0x008, 0x009, 0x00A, 0x00B, 0x400, 0x401, 0x402, 0x405,
          0x406, 0x407, 0x408], (0x004 : BitVec 12).toNat ≠ n)
      ∧ Usable priv (XSrc.reg 5).regs (XSrc.reg 5).cells ∧ priv.vmuBusy = false
      ∧ (0x404 : BitVec 12).toNat = 0x403 + (1 : CReg).val ∧ (0x80B : BitVec 12).toNat = 0x808 + 3
      ∧ (0x804 : BitVec 12).toNat = 0x804 ∧ priv.core.num / 512 < 12
      -- numbers of no register that is written: read-only ones, LAYERST, and one beside SLOTMAP
      ∧ (∀ m : BitVec 12, m = 0x004 ∨ m = 0x408 ∨ m = 0xC00 ∨ m = 0x80C →
        (∀ n ∈ [0x001, 0x002, 0x003, 0x005, 0x006, 0x007, 0x008, 0x009, 0x00A, 0x00B, 0x800, 0x801, 0x802, 0x803],
          m.toNat ≠ n) ∧ m.toNat ≠ 0x804 ∧ (m.toNat < 0x808 ∨ 0x80B < m.toNat)) := by
  and_intros <;> decide +kernel

theorem witness_TrapDelivery : Heard user := heard_user

theorem witness_Traps :
    Heard user ∧ priv.core.p = true ∧ (1 : BitVec 25) ≠ 0
      ∧ (priv.core.task = some placedTask ∧ priv.dbgEn priv.core.ctx = false ∧ priv.core.memberOf = none
        ∧ priv.core.members = [] ∧ priv.walks = [] ∧ priv.reads = [] ∧ priv.terms = [] ∧ priv.core.num < 6144
        ∧ priv.core.ctx ∉ priv.held)
      ∧ ({ placedTask with hdr := { placedTask.hdr with handler := 0 } } : Task).hdr.handler = 0 := by
  refine ⟨heard_user, ?_⟩
  and_intros <;> decide +kernel

/-- Core 0 replays a frame of the one word `w`; so do the other cores of its quad. -/
def replaying (w : IWord) : State :=
  let f : Frame := { act := true, body := [w], here := true }
  { user with core := { user.core with frame := f }
              others := [1, 2, 3].map fun n => { user.core with num := n, frame := f } }

/-- How long a head has waited is free (log entry 3): of two heads that want a lane group, each has waited for
128 cycles or not, and the clauses about both take either case. -/
theorem witness_Frames :
    (user.core.frame.suspended = false ∧ user.core.frame.act = false)
      ∧ (let s := { replaying 0x80321400 with others := [] };
        s.core.frame.suspended = false ∧ s.core.frame.act = true ∧ s.core.frame.fault = none ∧ s.core.frame.here = true
        ∧ s.core.frozen = false ∧ s.core.task ≠ none ∧ s.core.ctx ∉ s.held ∧ s.core.frame.body[s.core.frame.idx]? = some 0x80321400
        ∧ decodeV (0x80321400 : IWord).toNat = .ok (.vadd 3 4 5 none) ∧ Usable s [] ([cellV 4, cellV 5] ++ maskCells none)
        ∧ decodeV (0x80321580 : IWord).toNat = .ok (.vadd 3 4 5 (some 1)) ∧ Usable s [] ([cellV 4, cellV 5] ++ maskCells (some 1))
        ∧ (s.arbiter (s.vmuOf 0) false (s.heads (s.vmuOf 0) false)).map (·.1) = some (s.core.num % 4))
      ∧ ({ user with core := { user.core with frame := { suspended := true } } } : State).core.frame.suspended = true
      -- all four cores want the array: core 0 follows core 3, which had it last
      ∧ (let s := replaying 0xB0000503;
        (s.vmuOf 0).array = none ∧ (0 : Nat) ∈ (s.heads (s.vmuOf 0) true).map (·.1) ∧ (s.vmuOf 0).last = 3
        ∧ (0 + 3 - 3) % 4 = 0)
      -- one core wants a lane group; two do
      ∧ (let s := { replaying 0x80321400 with others := [] };
        s.heads (s.vmuOf 0) true = [] ∧ (s.vmuOf 0).groups.length < 4 ∧ s.heads (s.vmuOf 0) false = [(0, 0)])
      ∧ (let s := replaying 0x80321400;
        let s := { s with others := s.others.take 1 };
        s.heads (s.vmuOf 0) true = [] ∧ s.heads (s.vmuOf 0) false = [(0, 0), (1, 0)])
      -- a completion of the array and one of a lane group
      ∧ (let s := { user with vmus := [{ quad := 0, array := some 3 }] };
        (∀ c < 4, s.vmuHead (s.getCore (4 * 0 + c)) = none) ∧ (s.vmuOf 0).array = some 3)
      ∧ (let s := { user with vmus := [{ quad := 0, groups := [3, 0] }] };
        (s.vmuOf 0).array = none ∧ (s.vmuOf 0).groups = 3 :: [0])
      -- alone in its quad, and without a lane group
      ∧ user.vmuBusy = false ∧ lent user true = true ∧ (user.vmuOf 0).array = none
      ∧ (∀ k, k ≠ user.core.num % 4 → k ∉ (user.heads (user.vmuOf 0) true).map (·.1))
      ∧ (let s := { user with vmus := [{ quad := 0, groups := [1, 2, 3, 3] }] };
        s.vmuBusy = false ∧ s.vmuTake false = none ∧ Usable s [] [cellV 31, cellV 0]) := by
  have h : user.heads (user.vmuOf 0) true = [] := by decide +kernel
  refine ⟨?_, ?_, ?_, ?_, ?_, ?_, ?_, ?_, ?_, ?_, ?_, by simp [h], ?_⟩ <;> and_intros <;> decide +kernel

/-- The same with no launch: nothing is granted. -/
def bare : State := { user with slots := [] }

theorem not_granted (f : Grants → Nat) (n : Nat) : ¬Granted bare f n := by
  rintro ⟨k, hk, -⟩
  simp [bare] at hk

/-- A state with one barrier, and one with one join. -/
def barred (b : Barrier) : State := { user with barriers := [b] }
def joined (j : Join) : State := { user with joins := [j] }

theorem witness_Barriers :
    (user.src (.lit32 127)).toNat < 128 ∧ Granted user (·.barp) 63 ∧ Granted user (·.barl) 63
      ∧ user.core.late = none ∧ user.core.progress = .none ∧ user.core.woken = false ∧ user.frameWait = false
      ∧ Usable user ((61 : XReg).val :: ((XSrc.lit32 127).regs ++ (XSrc.reg 5).regs)) ((XSrc.lit32 127).cells ++ (XSrc.reg 5).cells)
      ∧ (user.barrier 12 user.core.ctx 63).a = 0 ∧ (user.barrier 12 user.core.ctx 63).n = 0
      ∧ 1 ≤ (user.src (.lit32 65535)).toNat ∧ (user.src (.lit32 65535)).toNat ≤ 65535
      ∧ ¬(1 ≤ (user.src (.lit32 65536)).toNat ∧ (user.src (.lit32 65536)).toNat ≤ 65535)
      ∧ (let s := barred { unit := 12, ctx := 0, num := 63, n := 3, a := 1 };
        let bar := s.barrier 12 s.core.ctx 63;
        bar.n ≠ 0 ∧ s.settled .package = true ∧ bar.a + 1 ≠ bar.n)
      ∧ (let s := barred { unit := 0, ctx := 0, num := 63, n := 3, a := 2, p := 65535 };
        let bar := s.barrier (s.core.num / 512) s.core.ctx 63;
        bar.n ≠ 0 ∧ s.settled .layer = true ∧ bar.a + 1 = bar.n ∧ NoWaiter s bar ∧ bar.p < 65536
        ∧ bar.p = (s.src (.lit32 0x1_FFFF)).toNat % 65536 ∧ bar.p ≠ (s.src (.reg 5)).toNat % 65536) := by
  refine ⟨?_, granted_user _ _ (by decide +kernel), granted_user _ _ (by decide +kernel), ?_⟩ <;> and_intros
    <;> decide +kernel

theorem witness_NumbersNotHeld :
    Usable user ((61 : XReg).val :: ((XSrc.lit32 128).regs ++ (XSrc.reg 5).regs))
        ((XSrc.lit32 128).cells ++ (XSrc.reg 5).cells ++ (List.range 8).map cellQs)
      ∧ 128 ≤ (user.src (.lit32 128)).toNat
      ∧ Usable bare ((61 : XReg).val :: ((XSrc.lit32 63).regs ++ (XSrc.reg 5).regs))
        ((XSrc.lit32 63).cells ++ (XSrc.reg 5).cells ++ (List.range 8).map cellQs)
      ∧ ¬Granted bare (·.barl) 63 ∧ ¬Granted bare (·.jnp) 63 := by
  refine ⟨?_, ?_, ?_, not_granted _ _, not_granted _ _⟩ <;> decide +kernel

theorem witness_Joins :
    (user.src (.lit32 127)).toNat < 128 ∧ Granted user (·.jnp) 63 ∧ Granted user (·.jnl) 0 ∧ user.core.late = none
      ∧ Usable user ((61 : XReg).val :: ((XSrc.lit32 127).regs ++ (XSrc.reg 5).regs))
          ((XSrc.lit32 127).cells ++ (XSrc.reg 5).cells ++ (List.range 8).map cellQs)
      ∧ (user.join 12 user.core.ctx 63).c = 0 ∧ (user.src (.lit64 0xFFFF_FFFF)).toNat < 2 ^ 32
      ∧ ¬(user.src (.lit64 0x1_0000_0000)).toNat < 2 ^ 32
      ∧ user.settled .package = true
      ∧ (let s := joined { unit := 12, ctx := 0, num := 63, c := 2 }; 1 < (s.join 12 s.core.ctx 63).c)
      ∧ (let s := joined { unit := 0, ctx := 0, num := 63, c := 1, flit := flit0 };
        let j := s.join (s.core.num / 512) s.core.ctx 63;
        j.c = 1 ∧ j.flit.qdst.getLsbD 63 = false ∧ j.flit.qdst.getLsbD 16 = false
        ∧ j.flit.qdst.toNat % 8192 < 6144 ∧ s.settled .layer = true)
      ∧ (let s := joined { unit := 0, ctx := 0, num := 63, c := 1, flit := { flit0 with qdst := 0x1_0000 } };
        let j := s.join (s.core.num / 512) s.core.ctx 63;
        j.c = 1 ∧ j.flit.qdst.getLsbD 63 = false ∧ j.flit.qdst.getLsbD 16 = true ∧ j.flit.qdst.toNat % 8192 < 6144
        ∧ s.hdr? j.flit.launch (j.flit.qdst.toNat / 2 ^ 24 % 256) = some placedTask.hdr) := by
  refine ⟨?_, granted_user _ _ (by decide +kernel), granted_user _ _ (by decide +kernel), ?_⟩ <;> and_intros
    <;> decide +kernel

theorem witness_MessagesAndPhases :
    user.core.task = some placedTask ∧ Usable user [(61 : XReg).val] [] ∧ user.core.latched = none ∧ flit0.bad = false ∧ user.core.ctx ∉ user.held
      ∧ ({ user with core := { user.core with latched := some flit0 } } : State).core.latched = some flit0
      ∧ Usable user (XSrc.reg 5).regs (XSrc.reg 5).cells
      ∧ (∀ k ∈ user.slots, ∀ l, k.id = placedTask.launch → k.kind = .launch l → l.phases = placedTask.phase ∧ l.state = .running)
      ∧ (∀ k ∈ user.slots, ∀ l, k.id = placedTask.launch → k.kind = .launch l →
          ¬(l.phases = ({ placedTask with phase := 1 } : Task).phase ∧ l.state = .running))
      ∧ user.core.woken = false ∧ user.frameWait = false ∧ user.src (.reg 5) ≠ 0 ∧ user.src (.reg 6) = 0
      ∧ user.core.members = []
      ∧ ({ user with core := { user.core with woken := true } } : State).core.woken = true := by
  have h (l : Launch) (e : SlotKind.launch launch0 = .launch l) : l = launch0 := by injection e with e; exact e.symm
  refine ⟨?_, ?_, ?_, ?_, ?_, ?_, ?_, ?_, ?_, ?_⟩
  on_goal 8 => simp only [user, List.mem_singleton]; rintro k rfl l - e; rw [h l e]; decide
  on_goal 8 => simp only [user, List.mem_singleton]; rintro k rfl l - e; rw [h l e]; decide
  all_goals and_intros <;> decide +kernel

theorem witness_Spawns :
    (let a : XSrc := .lit64 0x01FF;
      Usable user (a.regs ++ (XSrc.reg 5).regs) (a.cells ++ (XSrc.reg 5).cells) ∧ user.core.task = some placedTask
      ∧ (user.src a).toNat / 2 ^ 40 % 2 ^ 24 = 0 ∧ (user.src a).toNat / 2 ^ 27 % 2 ^ 5 = 0
      ∧ (user.src a).toNat / 2 ^ 9 % 2 ^ 3 = 0 ∧ (user.src a).toNat / 2 ^ 0 % 2 ^ 9 = 0x1FF ∧ user.core.num / 16 < 384
      ∧ (user.layer 0).state = .awake ∧ (user.layer 0).closed = false
      ∧ user.hdr? placedTask.launch ((user.src a).toNat / 2 ^ 32 % 2 ^ 8) = some placedTask.hdr ∧ user.spawns = []
      ∧ user.dispatcherFull 0 = false ∧ user.dispatcherFull 383 = false ∧ (user.layer (383 / 32)).state = .awake
      ∧ (user.layer (383 / 32)).closed = false ∧ user.settled .package = true) := by
  and_intros <;> decide +kernel

theorem witness_Done :
    user.core.task = some placedTask ∧ user.frameWait = false ∧ user.core.members = []
      ∧ (let k : LockEntry := { kind := .copy, src := 0, dst := 0, len := 1 };
        ({ user with core := { user.core with locks := user.core.locks.set 15 (some k) } } : State).core.locks.toList.any
          (·.isSome) = true)
      ∧ ({ user with acks := [{ core := 0, cls := .home }] } : State).settled .system = false
      ∧ user.core.locks.toList.any (·.isSome) = false ∧ user.core.rorder = [] ∧ user.settled .system = true
      ∧ user.core.pins = [] ∧ user.core.circuits.toList.all (·.isNone) = true ∧ waiting user placedTask = []
      -- flits that wait: one latched, of another package, and one in the inbox, of a task of core 1; and another task's
      ∧ (let f : Flit := { flit0 with src := some (7, 3), srcPkg := 1 };
        let g : Flit := { flit0 with src := some (1, 5) };
        let s : State := { user with
          core := { user.core with latched := some f, inbox := [{ task := 0, flit := g }, { task := 9, flit := g }] }
          others := [{ user.core with num := 1, task := some { placedTask with id := 5 } }] };
        waiting s placedTask = [f, g] ∧ f.bounce = false ∧ g.bounce = false ∧ f.srcPkg ≠ s.pkg
        ∧ 5 ≠ placedTask.id ∧ (s.task? 5).isSome = true)
      ∧ user.launch? placedTask.launch = some launch0
      ∧ user.core.num / 16 < 384 ∧ placedTask.hdr.comp < 64 ∧ (63 : Nat) ≠ placedTask.hdr.comp := by
  and_intros <;> decide +kernel

/-- All cores of router 0's domain run tasks. -/
def crowd : State := { user with others := (List.range 15).map fun n => { user.core with num := n + 1 } }

/-- A ligature of cores 0 and 15. -/
def ligature : State := { user with
  core := { user.core with members := [15] }, others := [{ num := 15, memberOf := some 0 }] }

theorem witness_Ligatures :
    Usable user ((61 : XReg).val :: (XSrc.lit32 16).regs) (XSrc.lit32 16).cells
      ∧ (user.src (.lit32 3)).toNat ∉ [2, 4, 8, 16] ∧ ligature.core.members ≠ []
      ∧ (user.src (.lit32 16)).toNat ∈ [2, 4, 8, 16] ∧ user.core.members = [] ∧ priv.core.p = true
      ∧ user.core.p = false ∧ user.frameWait = false ∧ crowd.idleCores crowd.core.num = []
      ∧ (16 ∈ [2, 4, 8, 16] ∧ 16 ≤ (user.idleCores user.core.num).length + 1
        ∧ ∀ k ∈ [2, 4, 8, 16], k ≤ 16 → k ≤ (user.idleCores user.core.num).length + 1 → k ≤ 16)
      ∧ ligature.frameWait = false ∧ ligature.core.sb = [] ∧ ligature.core.rorder = []
      ∧ (ligature.ligature ligature.core.num).all ligature.slotsFree = true
      ∧ ligature.core.num ∉ ligature.core.members ∧ ligature.core.members.Nodup := by
  and_intros <;> decide +kernel

/-- A new task for router 0, one resident at core 1, and a state in which it is queued. -/
def fresh : Task := { placedTask with id := 1, level := 3 }
def waiting : Task := { fresh with resident := true, bound := some 1 }
def queued (t : Task) : State := { user with queue := [t], others := if t.resident
  then [{ user.core with num := 1, task := some t, tstate := .queued }] else [] }

theorem witness_TaskStarts :
    user.eligible 0 = false ∧ user.nextTaskFor 1 = none
      ∧ (1 < 2 ∧ 1 / 16 = 2 / 16 ∧ (queued fresh).canStart 1 = true)
      ∧ (∀ m < 1, m / 16 = 1 / 16 → (queued fresh).canStart m = false)
      ∧ (∀ m < 1, m / 16 = 1 / 16 → (queued waiting).canStart m = false)
      ∧ (queued fresh).eligible 1 = true ∧ (queued fresh).nextTaskFor 1 = some fresh ∧ fresh.resident = false
      ∧ fresh.saved = false ∧ ((queued fresh).getCore 1).task = none ∧ (2 : Nat) ≠ 1
      ∧ (queued waiting).eligible 1 = true ∧ (queued waiting).nextTaskFor 1 = some waiting ∧ waiting.resident = true := by
  and_intros <;> decide +kernel

theorem witness_Aging :
    (∀ k ∈ (queued fresh).queue, k.id = 1 → k = fresh) ∧ fresh ∈ (queued fresh).queue ∧ fresh.id = 1 ∧ fresh.dom = 0
      ∧ fresh.level < 7
      ∧ (let t := { fresh with level := 7 }; 7 ≤ t.level ∧ (∀ k ∈ (queued t).queue, k.id ≠ 1 ∨ k.dom ≠ 0 ∨ 7 ≤ k.level)) := by
  and_intros <;> decide +kernel

/-- Core 0's task parked. -/
def asleep (w : Wait) (h : Option (Home × Bool)) : State :=
  { user with core := { user.core with tstate := .parked, wait := w, watch := h } }

theorem witness_Wakes :
    (let s := asleep (.spinw 26) (some (.vault 0x1000, true));
      s.core.task = some placedTask ∧ s.core.tstate = .parked ∧ s.core.members = [] ∧ s.core.ctx ∉ s.held ∧ s.core.wait = .spinw 26
      ∧ s.core.watch = some (.vault 0x1000, true) ∧ 26 ≠ 0)
    ∧ (asleep (.spinw 0) (some (.vault 0x1000, false))).core.watch = some (.vault 0x1000, false)
    ∧ (∀ p a, Home.vault 0x1000 ≠ .global p a)
    ∧ (asleep (.spinw 0) (some (.global 1 0, false))).core.watch = some (.global 1 0, false)
    ∧ (asleep (.spinw 0) none).core.wait = .spinw 0 ∧ (asleep (.yield 1) none).core.wait = .yield 1 := by
  refine ⟨?_, ?_, fun _ _ => nofun, ?_⟩ <;> and_intros <;> decide +kernel

/-- A flit from core 0's task with the given QDST, and a state in which it is on its way. -/
def flitTo (q : Word) (b : Bool) : Flit := { flit0 with qdst := q, src := some (0, 0), bounce := b }
def flown (q : Word) (b : Bool) : State := { user with flits := [flitTo q b] }

/-- Context 0 may keep one overflow flit. -/
def spilling (q : Word) (p : List InFlit) : State :=
  { flown q false with
    mmio := user.mmio.writeN 0x0010_0028 8 1
    core := { user.core with inbox := p } }

theorem witness_FlitArrivals :
    (let q : Word := 0; let s := flown q false;
      Arrived s 0 (flitTo q false) ∧ (flitTo q false).src = some (0, 0) ∧ (flitTo q false).gateTo = none
      ∧ s.routeHeld (s.flitRoute (flitTo q false)) = false ∧ q.getLsbD 16 = false
      ∧ q.toNat % 8192 = s.core.num ∧ s.taskAt 0 (q.toNat / 2 ^ 24 % 2 ^ 16) = some 0 ∧ s.core.wait ≠ .receive
      ∧ s.core.task.map (·.id) = some 0 ∧ s.recordOf 0 = none ∧ s.overflow = [] ∧ s.core.inbox.length < 32)
    -- the inbox is full: the overflow area has room, or none; then the context drains, or not
    ∧ (let s := spilling 0 (List.replicate 32 { task := 0, flit := flit0 });
      Arrived s 0 (flitTo 0 false) ∧ s.taskAt 0 0 = some 0 ∧ s.waitOf 0 ≠ .receive ∧ s.recordOf 0 = none
      ∧ (flitTo 0 false).words.length = 8 ∧ s.inboxRoom 0 0 = false ∧ s.roomFor 0 0 = true)
    ∧ (let s := { flown 0 false with core := { user.core with inbox := List.replicate 32 { task := 0, flit := flit0 } } };
      Arrived s 0 (flitTo 0 false) ∧ s.taskAt 0 0 = some 0 ∧ s.roomFor 0 0 = false ∧ ¬(s.saving 0 = true ∨ s.ctxState 0 = 3)
      ∧ (let t := { s with held := [0] };
        t.taskAt 0 0 = some 0 ∧ t.roomFor 0 0 = false ∧ t.taskCtx 0 = 0 ∧ t.saving 0 = true ∧ t.recordOf 0 = none
        ∧ (t.task? 0).isSome = true)
      ∧ (({ s with mmio := s.mmio.writeN 0x0010_0000 8 3 } : State).ctxState 0 = 3))
    ∧ (let q : Word := 0xFF_FF00_0000; let s := flown q false;
      Arrived s 0 (flitTo q false) ∧ q.getLsbD 16 = false ∧ q.toNat % 8192 = s.core.num
      ∧ s.taskAt 0 (q.toNat / 2 ^ 24 % 2 ^ 16) = none ∧ (flitTo q false).srcPkg = s.pkg ∧ (s.task? 0).isSome = true)
    ∧ (let q : Word := 0x1_17FF; let s := flown q false;
      Arrived s 0 (flitTo q false) ∧ s.routeHeld (s.flitRoute (flitTo q false)) = false ∧ q.getLsbD 16 = true
      ∧ s.hdr? (flitTo q false).launch (q.toNat / 2 ^ 24 % 2 ^ 16 % 256) = some placedTask.hdr
      ∧ q.toNat / 2 ^ 24 % 2 ^ 16 < 256 ∧ (s.layer (q.toNat % 8192 / 512)).state = .awake
      ∧ (s.layer (q.toNat % 8192 / 512)).closed = false ∧ s.dispatcherFull (q.toNat % 8192 / 16) = false)
    ∧ (let q : Word := 0x17FF; let s := flown q true;
      Arrived s 0 (flitTo q true) ∧ s.routeHeld (s.flitRoute (flitTo q true)) = false ∧ (flitTo q true).bounce = true
      ∧ s.core.task.map (·.id) = some 0 ∧ s.recordOf 0 = none ∧ s.core.wait ≠ .receive) := by
  and_intros <;> decide +kernel

/-- Core 0 with one store in its buffer, and a state with stores on their way. -/
def storing (h : Home) : State :=
  { user with core := { user.core with sb := [{ home := h, addr := 0, bytes := [1] }] } }
def flying (h : Home) (n : Nat) : State :=
  { user with flying := List.replicate n { core := 0, entry := { home := h, addr := 0, bytes := [1] } }
              acks := [{ core := 0, cls := .home }] }
/-- The router `r` is off. -/
def darkened (s : State) (r : Nat) : State := { s with power := [(r, .off)] }

theorem witness_PostedStores :
    ((storing (.loc 0 16383)).core.sb.map (·.home) = [.loc 0 16383])
    ∧ (let s := storing (.mirror 15);
      let x : SbEntry := { home := .mirror 15, addr := 0, bytes := [1] };
      let full : State := s.modLayer 0 fun y => { y with mq := List.replicate 128 { core := 1, off := 0, bytes := [1] } };
      s.core.sb = [x] ++ [] ∧ s.core.num < 6144 ∧ 15 % 16 + x.bytes.length ≤ 16 ∧ x.bytes ≠ [] ∧ x.more = false
      ∧ (s.layer 0).mq.length + 1 ≤ 128 ∧ 128 < (full.layer 0).mq.length + 1 ∧ full.core.sb = [x])
    ∧ ((storing (.global 1 0)).core.sb.map (·.home) = [.global 1 0] ∧ 1 ≠ (storing (.global 1 0)).pkg
      ∧ (storing (.global 1 0)).core.lineOut 1 0 1 = false ∧ (storing (.global 1 0)).flying = []
      ∧ ({ user.core with remoteStores := [(1, 63, 1)] } : Core).lineOut 1 0 1 = true
      -- this package's memory by its global name, behind a store of space 0; and the other way round
      ∧ (storing (.global 0 0)).pkg = 0 ∧ (∃ f ∈ (flying (.hbm 0x1000) 1).flying, f.core = 0 ∧ f.entry.home = .hbm 0x1000)
      ∧ (∃ x ∈ ({ user.core with remoteStores := [(0, 0, 1)] } : Core).remoteStores, x.1 = user.pkg)
      ∧ (storing (.hbm 0x1000)).core.remoteStores = [])
    ∧ ((storing (.vault 0x1000)).core.sb.map (·.home) = [.vault 0x1000]
      ∧ ((storing (.vault 0x1000)).layer 0).twoPhase = false
      ∧ ((storing (.vault 0x1000)).modLayer 0 fun y => { y with twoPhase := true }).layer 0
        = { user.layer 0 with twoPhase := true })
    ∧ Plain [(.hbm 0x1000, 0)] ∧ (flying (.hbm 0x1000) 1).portFrozen 0x1000 = false
    ∧ (flying (.hbm 0x1000) 1).flying.length = 1
    ∧ (∀ g ∈ (flying (.hbm 0x1000) 1).flying.take 0, g.core ≠ 0)
    ∧ (∃ g ∈ (flying (.hbm 0x1000) 2).flying.take 1, g.core = 0) ∧ 0 < (flying (.hbm 0x1000) 1).acks.length
    ∧ (let s := flying (.hbm 0x1000) 1;
      (∀ f ∈ s.flying, s.routeHeld f.route = false) ∧ (∀ a ∈ s.acks, s.routeHeld a.route = false)
      ∧ (∀ f ∈ s.flying, (darkened s 0).routeHeld f.route = true) ∧ (∀ a ∈ s.acks, (darkened s 0).routeHeld a.route = true))
    ∧ ({ flying (.hbm (2 ^ 40)) 1 with frozen := [(3, 16)] } : State).portFrozen (2 ^ 40) = true := by
  refine ⟨?_, ?_, ?_, ?_, plain_hbm .., ?_⟩ <;> and_intros <;> decide +kernel

theorem witness_Circuits :
    Usable user ((61 : XReg).val :: ((XSrc.lit32 6143).regs ++ (XSrc.lit32 4096).regs))
        ((XSrc.lit32 6143).cells ++ (XSrc.lit32 4096).cells)
      ∧ user.core.progress = .none ∧ 6144 ≤ (user.src (.lit32 6144)).toNat ∧ (user.src (.lit32 6143)).toNat < 6144
      ∧ (user.layer 11).state ≠ .retired ∧ 4096 < (user.src (.lit32 4097)).toNat
      ∧ user.core.circuits[(0 : Fin 2)] = none ∧ 1 ≤ (user.src (.lit32 4096)).toNat ∧ (user.src (.lit32 4096)).toNat ≤ 4096
      ∧ (let c : Circuit := { dst := 6143, left := 1 };
        let s : State := { user with core := { user.core with circuits := #v[some c, some c], progress := .asked 0 (some [2]) } };
        s.core.progress = .asked 0 (some [2]) ∧ (∀ j : Fin 2, s.core.circuits[j].isSome = true)
        ∧ s.core.circuits[(1 : Fin 2)] = some c ∧ Usable s (XSrc.lit32 2).regs (XSrc.lit32 2).cells
        ∧ (s.src (.lit32 2)).toNat = (1 : Fin 2).val + 1)
      -- a hop, the last one, and a refused one
      ∧ (let p : SetUp := { core := 0, id := 1, dst := 32, n := 1, path := [0, 1, 2] };
        let s : State := { user with setups := [p, { p with path := [2] }] };
        let full : State := { s with reservations := List.replicate 2 { router := 0, next := 1, core := 5, id := 1 } };
        s.setups[0]? = some p ∧ p.path = 0 :: [1, 2] ∧ s.hopHeld (routePath (0 / 16) (32 / 16)) (p.path.take 2) = false
        ∧ (s.reservations.filter fun x => x.router == 0 && x.next == 1).length < 2
        ∧ s.setups[1]? = some { p with path := [2] } ∧ s.hopHeld (routePath (0 / 16) (32 / 16)) [2] = false
        ∧ (s.reservations.filter fun x => x.router == 2 && x.next == 384 + 32 / 4).length < 2 ∧ s.flits = []
        ∧ 2 ≤ (full.reservations.filter fun x => x.router == 0 && x.next == 1).length)
      ∧ (let r : CircuitReply := { core := 0, id := 2, dst := 32, n := 1, grant := true, path := [2, 1, 0] };
        let s : State := { user with core := { user.core with progress := .asked 0 none, iw := 0xE0000000 }, replies := [r] };
        s.replies[0]? = some r ∧ r.core = s.core.num ∧ s.routeHeld r.path = false ∧ r.id = (1 : Fin 2).val + 1
        ∧ s.core.progress = .asked 0 none ∧ s.core.iw.toNat / 2 ^ 25 % 128 = 0x70)
      ∧ (let t (l : List Nat) : Teardown := { core := 0, dst := 32, id := 1, path := l };
        let s : State := { user with teardowns := [t [0, 1, 2], t []] };
        s.teardowns[0]? = some (t [0, 1, 2]) ∧ (t [0, 1, 2]).lost = false ∧ s.hopHeld (routePath (0 / 16) (32 / 16)) ((t [0, 1, 2]).path.take 2) = false
        ∧ s.teardowns[1]? = some (t []) ∧ s.routeHeld (s.backRoute (32 / 16) 0) = false
        ∧ ∀ f ∈ s.flits, f.src.map (·.1) ≠ some 0 ∨ f.circuit ≠ 1) := by
  and_intros <;> decide +kernel

theorem witness_RouterPowerDown :
    1 < 384 ∧ user.routerPower 1 = none ∧ user.routerIdle 1 = true ∧ user.routerIdle 0 = false
      ∧ ({ user with power := [(1, .proposed)] } : State).routerPower 1 = some .proposed
      ∧ ({ user with power := [(1, .off)] } : State).routerPower 1 = some .off
      ∧ ({ user with power := [(1, .waking)] } : State).routerPower 1 = some .waking
      ∧ (∃ c ∈ user.allCores, c.num / 16 = 0 ∧ (c.task ≠ none ∨ c.sb ≠ []))
      ∧ (∃ x ∈ ({ user with reservations := [{ router := 383, next := 384, core := 0, id := 1 }] } : State).reservations, x.router = 383)
      ∧ (∃ p ∈ ({ user with setups := [{ core := 0, id := 1, dst := 32, n := 1, path := [1, 2] }] } : State).setups, 1 ∈ p.path)
      ∧ (∃ p ∈ ({ user with replies := [{ core := 0, id := 1, dst := 32, n := 1, grant := true, path := [1] }] } : State).replies, 1 ∈ p.path)
      ∧ (∃ t ∈ ({ user with teardowns := [{ core := 0, dst := 32, id := 1, path := [1] }] } : State).teardowns, 1 ∈ t.path)
      ∧ (∃ f ∈ (flying (.vault 0x20_0000) 1).flying, 1 ∈ f.route)
      ∧ (∃ f ∈ (flown 16 false).flits, 1 ∈ (flown 16 false).flitRoute f)
      ∧ (∃ l ∈ ({ user with gateLists := [{ ctx := 0, g := 255, root := 0, pairs := [], at_ := 1 }] } : State).gateLists ++ user.gateHolds,
          l.at_ = 1)
      ∧ (∃ a ∈ (flying (.vault 0x20_0000) 1).acks, 0 ∈ a.route) ∧ (∃ t ∈ [term0 3 .request], t.home = 0 ∨ 0 ∈ t.route)
      ∧ (∃ x ∈ [read0 3 .sent], x.home = 0 ∨ 0 ∈ user.askRoute x.core x.home)
      -- router 33 is passed from 1 to 65, and turned at from 32 to 65
      ∧ (33 ∉ ([] : List Nat) ∧ (1 : Nat) ≠ 33 ∧ (65 : Nat) ≠ 33 ∧ 1 % 32 = 33 % 32 ∧ 65 % 32 = 33 % 32 ∧ 32 % 32 ≠ 33 % 32)
      ∧ (darkened user 1).routerPower 1 ≠ none ∧ 1 ∈ crossed [0, 1] := by
  and_intros <;> decide +kernel

theorem witness_LoadMonitor :
    (user.layer 11).lbal.toNat = 0x20 ∧ 0 < 0x20 ∧ 0x20 * 1 < 16 * 320 * 1 ∧ ¬(0 < 0 ∧ 0x20 * 0 < 16 * 320 * 0)
      ∧ (user.layer 11).twoPhase = false ∧ (user.layer 11).calm = 0
      ∧ (let s := user.modLayer 11 fun y => { y with twoPhase := true, calm := 2 };
        (s.layer 11).twoPhase = true ∧ (s.layer 11).calm < 3)
      ∧ (let s := user.modLayer 11 fun y => { y with twoPhase := true, calm := 3 };
        (s.layer 11).twoPhase = true ∧ 3 ≤ (s.layer 11).calm)
      ∧ (let s := user.modLayer 11 fun y => { y with lbal := 0 }; (s.layer 11).lbal.toNat = 0) := by
  and_intros <;> decide +kernel

theorem witness_PacketsLost :
    (let s := flying (.vault 0x20_0000) 1;
      ∃ f, s.flying[0]? = some f ∧ 1 ∈ f.route ∧ 3 ∉ f.route)
    -- the base die, where the route of a store to HBM ends
    ∧ (∃ f, (flying (.hbm 0x1000) 1).flying[0]? = some f ∧ 0 ∈ f.route ∧ ∃ q ∈ f.route, 384 ≤ q)
    ∧ (∃ a, (flying (.hbm 0x1000) 1).acks[0]? = some a ∧ 0 ∈ a.route)
    ∧ (∀ b : Bool, (flown 0 b).flits[0]? = some (flitTo 0 b) ∧ (flitTo 0 b).src = some (0, 0)
      ∧ 0 ∈ (flown 0 b).flitRoute (flitTo 0 b) ∧ (flitTo 0 b).circuit = 0 ∧ ({ flitTo 0 b with circuit := 1 } : Flit).circuit ≠ 0)
    ∧ (let p : SetUp := { core := 0, id := 1, dst := 32, n := 1, path := [1, 2] };
      ({ user with setups := [p] } : State).setups[0]? = some p ∧ 1 ∈ p.path.take 1)
    ∧ (let p : CircuitReply := { core := 0, id := 1, dst := 32, n := 1, grant := true, path := [1] };
      ({ user with replies := [p] } : State).replies[0]? = some p ∧ 1 ∈ p.path)
    ∧ (let t : Teardown := { core := 0, dst := 32, id := 1, path := [1] };
      ({ user with teardowns := [t] } : State).teardowns[0]? = some t ∧ t.lost = false ∧ 1 ∈ t.path.take 1)
    ∧ (∀ w m : Nat, ({ user with replays := [(7, 3, w, m)] } : State).replays.find?
          (fun x => x.1 == 7 && x.2.1 == 3 && x.2.2.1 == w) = some (7, 3, w, m))
    ∧ 255 + 1 ≠ 257 ∧ 256 + 1 = 257 ∧ 63 < 64 ∧ (∃ port < 64, portTo 0 1 = port) := by
  refine ⟨⟨_, rfl, ?_⟩, ⟨_, rfl, ?_⟩, ⟨_, rfl, ?_⟩, ?_, ?_, ?_, ?_, fun w m => by simp, ?_, ?_, ?_, ⟨_, ?_, rfl⟩⟩ <;> decide +kernel

theorem witness_RemoteRequests :
    (∀ p ∈ [0, 1], let s := { paged 31 with hbm := (paged 31).hbm.writeN 0x20_0400 4 0x8000_0000 };
      let r : Request := { pkg := 0, srcPkg := p, ctx := 0, core := 1, va := 0x20_0010, op := .read 8 };
      let port := s.portUnit p;
      r.bad = [] ∧ s.poison = [] ∧ s.routeHeld (if p = s.pkg then downRoute r.core else []) = false ∧ r.op ≠ .unpin
      ∧ r.part = none ∧ s.importAsid p 0 = some 0 ∧ r.clashes r = true ∧ (∀ q ∈ (∅ : List Request), r.clashes q = false)
      ∧ s.incoming port 0 .load r.va 8 = .ok [(0x60_0010, 8)] ∧ s.incoming port 0 .fetch r.va 8 = .ok [(0x60_0010, 8)]
      ∧ s.incoming port 0 .store r.va 8 = .ok [(0x60_0010, 8)] ∧ s.incoming port 0 .atomic r.va 8 = .ok [(0x60_0010, 8)]
      ∧ s.incoming port 0 .load 0xA0_0000 8 = .absent 0 5
      ∧ (∀ op ∈ [ReqOp.read 8, .fetch 8, .write (List.replicate 8 0), .amo 1 8 0 0, .check 8 .load true],
        s.incomingWaits op 0 (pageNums r.va 8) [(0x60_0010, 8)] = false))
    ∧ (let s := { paged 31 with mig := some { srcT := 0, srcF := 3, dstT := 0, dstF := 4, asid := 0, vpn := 1, st := 2 } };
      s.incomingWaits (.write [1]) 0 (pageNums 0x20_0010 1) [(0x60_0010, 1)] = true)
    ∧ (paged 30).incoming ((paged 30).portUnit 1) 0 .load 0x20_0010 8 = .denied 0
    ∧ (paged 31).importAsid 2 0 = none
    -- the first entry of the bucket names itself as the next one
    ∧ (let s := { paged 31 with mmio := (paged 31).mmio.writeN 0x0100_0030 16 (2 ^ 127 + 3 * 2 ^ 44) };
      ∃ off vpn, s.incoming (s.portUnit 0) 0 .load 0x20_0010 8 = .malformed off vpn)
    ∧ (let q : RSlot := { use := .spinw 61 0, addr := 0, size := 8 };
      let s : State := { user with core := { user.core with slots := user.core.slots.set 7 (some q) } };
      s.core.memberOf = none ∧ s.core.slots[(7 : Fin 8)] = some q ∧ q.use = .spinw 61 0
      ∧ ∀ d e, ({ q with use := .ld 61 .b64 false } : RSlot).use ≠ .spinw d e) := by
  refine ⟨?_, ?_, ?_, ?_, ⟨0, 1, ?_⟩, ?_, ?_, ?_, fun _ _ => nofun⟩ <;> decide +kernel

theorem witness_RemoteResponses :
    (let q : RSlot := { use := .ld 61 .b64 false, addr := 0, size := 8 };
      let r : Response := { core := 0, slot := 7, res := .data 5 };
      let w : Request := { pkg := 1, srcPkg := 0, ctx := 0, core := 0, va := 0, op := .write [1] };
      let s : State := { user with
        core := { user.core with slots := user.core.slots.set 7 (some q), rorder := [(0, 7)], watch := some (.global 1 0, false) }
        responses := [r] };
      s.responses[0]? = some r ∧ r.core = s.core.num ∧ s.routeHeld (upRoute r.core) = false ∧ r.op = .slot
      ∧ r.slot = (7 : Fin 8).val
      ∧ s.core.slots[(7 : Fin 8)] = some q ∧ q.dead = false ∧ s.core.rorder = (s.core.num, 7) :: []
      ∧ q.resp = none ∧ s.core.ss = false ∧ (∀ r ∈ ([] : List (Nat × Fin 8)), r.1 = s.core.num) ∧ ({ q with resp := some (.data 5) } : RSlot).resp = some (.data 5)
      ∧ ({ r with op := .store, store := some w } : Response).store = some w ∧ s.core.owed = none
      ∧ ({ q with resp := some (.trap .prot 7) } : RSlot).resp = some (.trap .prot 7) ∧ s.core.frozen = false
      ∧ s.olderStore q = false ∧ s.core.woken = false ∧ (5 : Word) ≠ s.rx 61 ∧ (0 : Word) = s.rx 61
      ∧ s.core.watch = some (.global 1 0, false)
      ∧ (let g : RSlot := { q with use := .gld 0x2000_0000_0000_0010 16 };
        let t := storing (.loc 0 16);
        t.olderStore g = true)) := by
  and_intros <;> decide +kernel

/-- Entry 15 copies 40 bytes: three parts, of which `done` are written. -/
def copied (done : List Nat) : LockEntry :=
  { kind := .copy, src := 0x1000_0000_0000_1000, dst := 0x1000_0000_0000_2000, len := 40, parts := done }
def copying (done : List Nat) : State :=
  { user with core := { user.core with locks := user.core.locks.set 15 (some (copied done)) } }

theorem witness_CopyEngine :
    (let s := copying [];
      let k := copied [];
      s.core.locks[(15 : Fin 16)] = some k ∧ k.kind = .copy ∧ s.core.num < 6144 ∧ s.engineRuns 0 = true
      ∧ s.engineOrdered 0 = true ∧ s.poison = [] ∧ 16 * 2 < k.len ∧ 2 ∉ k.parts ∧ 2 ∉ k.asked ∧ 2 ∉ k.gone
      ∧ s.lineFree 0 (partAt k.src 2) 8 = true ∧ s.lineFree 0 (partAt k.dst 2) 8 = true
      ∧ k.src = BitVec.ofNat 64 (2 ^ 60 + 0x1000) ∧ k.dst = BitVec.ofNat 64 (2 ^ 60 + 0x2000) ∧ k.len ≤ 2 ^ 24
      ∧ s.reach 0 (s.ctxAsid s.core.ctx) .load (partAt k.src 2) 8 = .ok [(.vault (0x1000 + 16 * 2), 8)]
      ∧ s.reach 0 (s.ctxAsid s.core.ctx) .store (partAt k.dst 2) 8 = .ok [(.vault (0x2000 + 16 * 2), 8)]
      ∧ ((s.layer (s.core.num / 512)).mq.filter fun m => !m.cont).length ≤ 128 ∧ k.parts.length ≠ (k.len + 15) / 16
      ∧ (∀ w ∈ s.engineWays 0 (partAt k.src 2) ++ s.engineWays 0 (partAt k.dst 2), s.routeHeld w = false))
    -- a copy from space 0: page 1 is not readable, page 5 not resident
    ∧ (let k : LockEntry := { copied [] with src := 0x20_0000 };
      let s := { paged 15 with core := { user.core with locks := user.core.locks.set 15 (some k) } };
      s.core.locks[(15 : Fin 16)] = some k ∧ s.engineRuns 0 = true ∧ s.engineOrdered 0 = true ∧ s.core.owed = none
      ∧ s.lineFree 0 (partAt k.src 2) 8 = true ∧ s.lineFree 0 (partAt k.dst 2) 8 = true
      ∧ s.reach 0 (s.ctxAsid s.core.ctx) .load (partAt k.src 2) 8 = .denied 0
      ∧ (∀ w ∈ s.engineWays 0 (partAt k.src 2) ++ s.engineWays 0 (partAt k.dst 2), s.routeHeld w = false))
    ∧ (let k : LockEntry := { copied [] with src := 0xA0_0000 };
      let s := { paged 31 with core := { user.core with locks := user.core.locks.set 15 (some k) } };
      s.engineRuns 0 = true ∧ s.engineOrdered 0 = true ∧ s.core.committed = false ∧ s.terms = []
      ∧ s.reach 0 (s.ctxAsid s.core.ctx) .load (partAt k.src 2) 8 = .absent 5)
    ∧ (copying [2, 0, 1]).copyFinished 0 (copied [2, 0, 1]) = true
    ∧ ({ copying [] with frozen := [(1, 0)] } : State).engineRuns 0 = false := by
  and_intros <;> decide +kernel

theorem witness_Translation :
    (let w : Walk := { core := 0, asid := 0, vpn := 1, kind := .store, va := 0x20_0010 };
      let s : State := { paged 31 with walks := [w] };
      s.walks = [w] ∧ w.core = s.core.num ∧ s.mig = none ∧ w.lost = false ∧ s.routeHeld (downRoute w.core) = false
      ∧ s.walk w.asid w.vpn = .hit 0 3 ∧ (s.tlb.filter (·.unit == 0)).length ≤ 127)
    -- the first entry of the bucket names itself as the next one
    ∧ (let s := { paged 31 with mmio := (paged 31).mmio.writeN 0x0100_0030 16 (2 ^ 127 + 3 * 2 ^ 44) };
      let told := s.postError { code := 0x08, addr := 1 * 2 ^ 21, detail := 0 + 2 ^ 32 * 1 };
      s.walk 0 1 = .malformed ∧ (∀ t f, told.walkTables 0 1 ≠ .hit t f) ∧ s.core.frame.cap = false)
    ∧ user.walk 0 1 = .notResident
    ∧ ((paged 31).cached (some 1) 0 1 true = none ∧ (paged 31).walk 0 1 = .hit 0 3 ∧ (paged 31).cached (some 0) 0 1 true ≠ none ∧ 0 < 16)
    ∧ (let s : State := { paged 31 with faults := [(2047, 0, 1)] };
      s.faults.find? (·.1 == 2047 % 2048) = some (2047 % 2048, 0, 1) ∧ s.walk 0 1 = .hit 0 3)
    ∧ user.parkedTasks.all (fun w => match w.2 with | .translation _ _ => false | _ => true) = true
    ∧ (let s := asleep (.remotePage 0x1000) none;
      s.waitOf 0 = .remotePage 0x1000 ∧ s.core.task = some placedTask ∧ placedTask.id = 0 ∧ s.others = [] ∧ s.records = []) := by
  have h : (({ paged 31 with mmio := (paged 31).mmio.writeN 0x0100_0030 16 (2 ^ 127 + 3 * 2 ^ 44) } : State).postError
      { code := 0x08, addr := 1 * 2 ^ 21, detail := 0 + 2 ^ 32 * 1 }).walkTables 0 1 = .malformed := by decide +kernel
  refine ⟨?_, ⟨?_, fun t f => ?_, ?_⟩, ?_⟩
  on_goal 3 => rw [h]; nofun
  all_goals and_intros <;> decide +kernel

theorem witness_Shootdown :
    user.core.p = false ∧ priv.core.p = true
      ∧ Usable priv ((XSrc.reg 61).regs ++ (XSrc.reg 5).regs) ((XSrc.reg 61).cells ++ (XSrc.reg 5).cells)
      ∧ (∀ c ∈ priv.allCores, ∀ x ∈ c.sb, x.stale = false) ∧ (∀ x ∈ priv.flying, x.entry.stale = false)
      ∧ (∀ w ∈ priv.walks, w.old = false)
      ∧ (let w : Walk := { core := 16, asid := 0, vpn := 1, kind := .store, va := 0x20_0010, old := true };
        ∃ v ∈ ({ priv with walks := [w] } : State).walks, v.old = true)
      ∧ (let x : SbEntry := { home := .hbm 0x60_0010, addr := 0x20_0010, bytes := [1], stale := true };
        let s : State := { priv with core := { priv.core with sb := [x] } };
        s.core.p = true ∧ x ∈ s.core.sb ∧ x.home = .hbm 0x60_0010 ∧ x.stale = true) := by
  and_intros <;> decide +kernel

theorem witness_Migrations :
    (let s := paged 31;
      s.mig = none ∧ s.frameOk (3 / 2 ^ 20 % 16) (3 % 2 ^ 20) = true ∧ s.frameOk 0 32767 = true
      ∧ s.frameOk 0 32768 = false ∧ pteV (s.pte 0 3) = true ∧ pteV (s.pte 0 32767) = false ∧ s.linked 0 32767 = false)
    ∧ (let m : Migration := { srcT := 0, srcF := 3, dstT := 0, dstF := 32767, asid := 0, vpn := 1, st := 1 };
      let s : State := { paged 31 with mig := some m };
      s.mig = some m ∧ m.st = 1 ∧ ptePins (s.pte m.srcT m.srcF) = 0
      ∧ s.drained (fun a v => a == m.asid && v == m.vpn) = true
      ∧ ptePins ((s.setPte 0 3 (s.pte 0 3 + 2 ^ 31)).pte m.srcT m.srcF) ≠ 0
      ∧ ({ m with st := 2 } : Migration).st ≠ 1
      ∧ s.portFrozen (frameBase m.srcT m.srcF) = false ∧ s.portFrozen (frameBase m.dstT m.dstF) = false
      ∧ ({ s with frozen := [(3, 16)] } : State).portFrozen (frameBase 8 0) = true) := by
  and_intros <;> decide +kernel

/-- Layer 1 with the given state, and stores of its mirror queue. -/
def layered (y : Layer) : State := user.modLayer 1 fun _ => y
def piece : MirrorStore := { core := 512, off := 0x20, bytes := [1] }

theorem witness_Mirrors :
    (let s := layered { mq := [piece] };
      1 < 64 ∧ (s.frameMap.toList.getD 1 15).toNat = 1 ∧ s.slotNow < 1 ∧ s.sends 1 = true ∧ s.mirrorQueue 1 ≠ [])
    ∧ (layered { state := .asleep }).sends 1 = false ∧ user.mirrorQueue 1 = [] ∧ 0 ≤ user.slotNow
    ∧ (let x : SentSlot := { slot := 63, src := 1, stores := [piece] };
      ({ user with sent := [x] } : State).sent = [x] ∧ x.src < 12 ∧ x.stores ≠ []
      ∧ (0x8000_0000_0000_0000 : BitVec 64).getLsbD x.slot = true) := by
  and_intros <;> decide +kernel

theorem witness_LayerCommands :
    (let s := { layered { state := .drowsy } with cmds := [.wake 1] };
      1 < 12 ∧ s.cmds = .wake 1 :: [] ∧ (s.layer 1).state = .drowsy)
    ∧ (let s := { user with cmds := [.wake 1] }; s.cmds = .wake 1 :: [] ∧ (s.layer 1).state = .awake)
    ∧ (let s := { layered { state := .asleep } with cmds := [.wake 1] };
      (s.layer 1).state = .asleep ∧ (s.layer 1).waking = none)
    ∧ (let s := { user with cmds := [.drowsy 11] };
      s.cmds = .drowsy 11 :: [] ∧ s.emptied 11 = true ∧ (s.layer 11).state = .awake)
    ∧ ({ user with cmds := [.sleep 11] } : State).cmds = .sleep 11 :: [] ∧ (layered { mq := [piece] }).emptied 1 = false
    ∧ (let s := { layered { state := .asleep } with cmds := [.retire 1] };
      s.cmds = .retire 1 :: [] ∧ (s.layer 1).state = .asleep ∧ s.wells = [])
    ∧ (let w : Waking := { next := 2 ^ 18 - 1 };
      let s := layered { state := .asleep, waking := some w };
      (s.layer 1).waking = some w ∧ w.next < 2 ^ 18 ∧ w.next + 1 = 2 ^ 18 ∧ Memory.wf (s.layer 1).mirror = true
      ∧ s.columnOpen 1 = true
      -- every column's link out of the base die fails
      ∧ ({ s with deadLinks := (List.range 32).map fun k => (384 + k, 10) } : State).columnOpen 1 = false)
    ∧ ({} : Waking).next + 1 < 2 ^ 18
    -- a chunk of which one byte has been written meanwhile, poisoned in the base die
    ∧ (let w : Waking := { next := 5, live := [81] };
      let s := { layered { state := .asleep, waking := some w } with poison := [.mirrorCopy 12 80] };
      (s.layer 1).waking = some w ∧ 16 * w.next + 1 ∈ w.live ∧ 16 * w.next ∉ w.live ∧ Place.mirrorCopy 12 (16 * w.next) ∈ s.poison) := by
  and_intros <;> decide +kernel

theorem witness_LayerControl :
    Usable user ((61 : XReg).val :: (XSrc.lit32 11).regs) (XSrc.lit32 11).cells ∧ user.core.p = false ∧ priv.core.p = true
      ∧ 12 ≤ (priv.src (.lit32 12)).toNat ∧ (priv.src (.lit32 11)).toNat < 12
      ∧ (priv.layer 11).state = .awake ∧ (priv.layer 11).waking = none ∧ priv.core.progress = .none
      ∧ LState.awake ∉ [LState.drowsy, .asleep] ∧ priv.core.num / 512 = 0
      ∧ ¬(priv.layerBusy 11 = true ∨ priv.core.num / 512 = 11) ∧ LState.awake ∈ [LState.awake, .drowsy]
      ∧ (∀ b : Bool, ({ priv with core := { priv.core with progress := .layerTo 11 .asleep b } } : State).core.progress
          = .layerTo 11 .asleep b) := by
  and_intros <;> decide +kernel

/-- Context `c` in the given state, with room for one record in its save area. -/
def inState (s : State) (c n : Nat) : State :=
  { s with mmio := (s.mmio.writeN (0x0010_0000 + 0x400 * c) 1 n).writeN (0x0010_0020 + 0x400 * c) 8 1 }

theorem witness_StopAndGo :
    Usable priv ((61 : XReg).val :: (XSrc.lit32 255).regs) (XSrc.lit32 255).cells ∧ user.core.p = false
      ∧ priv.core.p = true ∧ priv.core.progress = .none ∧ 256 ≤ (priv.src (.lit32 256)).toNat
      ∧ priv.ctxState 255 ≠ 1 ∧ priv.core.ctx = 0 ∧ (priv.src (.lit32 255)).toNat < 256
      ∧ (let s := inState priv 255 1; s.ctxState 255 = 1 ∧ s.core.ctx ≠ 255 ∧ s.stopping 255 = false)
      ∧ (let s := { inState priv 255 1 with cmds := [.gangStop 255] }; s.stopping 255 = true)
      ∧ (let s := { inState priv 255 2 with core := { priv.core with progress := .command } };
        s.core.progress = .command ∧ s.stopping 255 = false ∧ s.ctxState 255 = 2) := by
  and_intros <;> decide +kernel

theorem witness_GangStops :
    (let s := { user with cmds := [.gangStop 0] }; s.cmds = .gangStop 0 :: [] ∧ s.haltsOf 0 = [s.core])
    ∧ user.core.tstate ≠ .queued ∧ user.reads = [] ∧ user.terms = [] ∧ user.walks = [] ∧ (∀ n, user.core.wait ≠ .yield n)
    ∧ (asleep (.yield 5) none).core.wait = .yield 5
    ∧ (let s := { inState user 0 1 with held := [0] };
      s.held.contains 0 = true ∧ s.stopping 0 = true ∧ s.cmds.contains (.gangStop 0) = false ∧ s.ctxDrained 0 = true
      ∧ ((s.haltsOf 0).foldl (fun (r : Option State) k => r.bind (·.saveStopped k.num)) (some s)).isSome = true)
    ∧ (flown 0 false).ctxDrained 0 = false
    ∧ ({ user with cmds := [.resume 1] } : State).cmds = .resume 1 :: []
    ∧ (let k : Record := { ctx := 0, dom := 0, num := 0, image := user.core, st := .running, stop := true, go := true };
      let s := { inState user 0 1 with
        core := { num := 0 }, records := [k]
        queue := [{ placedTask with bound := some 0, saved := true, resident := false }] };
      s.records = [k] ∧ k.stop = true ∧ k.go = true ∧ s.recordState k ≠ none ∧ k.image.num = s.core.num
      ∧ k.image.members = [] ∧ s.core.num < 6144 ∧ s.core.task = none ∧ s.eligible s.core.num = true
      ∧ (∀ m < s.core.num, m / 16 = s.core.num / 16 → s.canStart m = false)
      ∧ (s.nextTaskFor s.core.num).map (·.id) = k.image.task.map (·.id)) := by
  refine ⟨?_, ?_, ?_, ?_, ?_, fun _ => nofun, ?_⟩ <;> and_intros <;> decide +kernel

/-- Group 0 in the given state, root (4) or not, of context 0, with parent 1 and child 2. -/
def grouped (s : State) (st : Nat) : State := { s with
  mmio := ((s.mmio.writeN 0x0020_0000 8 st).writeN 0x0020_0018 2 0x8001).writeN 0x0020_0020 2 0x8002 }

/-- An enclave of packages 0 and 1, whose current key has number 3. -/
def enclave : Enclave :=
  { id := 9, keys := [[1], [2]], quorum := 1, members := [(0, 0), (1, 1)], funcs := [(0, 0)], ctxs := [(0, 0)]
    key := some (3, [1]), old := some (2, [1]), pairs := [(1, [1])] }
def request0 : Request := { pkg := 0, srcPkg := 1, ctx := 0, core := 0, va := 0, op := .read 8 }
def wired (p : Packet) (e : Enclave) : State := { user with wire := [p], enclaves := [e] }

theorem witness_PacketsReceived :
    (let p : Packet := { src := 1, linkOk := false, body := .request request0 };
      let s := wired p enclave; s.wire[0]? = some p ∧ s.route p.src = 0 ∧ p.linkOk = false)
    ∧ (let p : Packet := { src := 1, body := .flit flit0 };
      p.linkOk = true ∧ p.key = 0 ∧ (wired p enclave).fromRevoked p = false ∧ (p.src, 1) ∈ enclave.members)
    -- a revoked participant's packets, with the enclave's key and without one
    ∧ (let e := { enclave with revoked := [1] };
      let p (k : Nat) (b : Body) : Packet := { src := 1, key := k, body := b };
      let s (q : Packet) : State := { wired q e with encCtxs := [(0, 9)] };
      (1, 1) ∈ e.members ∧ 1 ∈ e.revoked ∧ (s (p 3 (.request request0))).keyHolder 3 = some e
      ∧ (s (p 0 (.request request0))).enclaveOf request0.ctx = some e ∧ (s (p 0 (.flit flit0))).enclaveOf flit0.ctx = some e
      ∧ (s (p 0 (.response { core := 0, slot := 0, res := .data 0 }))).enclaveOf ((s (p 0 (.request request0))).getCore 0).ctx = some e
      ∧ (s (p 0 (.agree 9 [] []))).enclaves.find? (·.id == 9) = some e
      ∧ (p 0 (.abortDone 0 0)).body.group = some 0 ∧ (s (p 0 (.abortDone 0 0))).enclaveOf ((s (p 0 (.abortDone 0 0))).groupCtx 0) = some e)
    -- an abort's acknowledgement in sequence, and out of it
    ∧ (let s := grouped user 2; s.groupSt 0 = 2 ∧ s.groupSeq 0 = 0 ∧ s.groupSeq 0 ≠ 1) ∧ user.groupSt 0 ≠ 2
    ∧ (let p : Packet := { src := 1, key := 3, body := .request request0 };
      p.key ≠ 0 ∧ (wired p enclave).fromRevoked p = false ∧ p.authOk = true ∧ (wired p enclave).keyHolder p.key = some enclave
      ∧ (wired p enclave).keyHolder 4 = none ∧ (wired p enclave).badFrom p.src ≠ 3
      ∧ ({ wired p enclave with badAuth := [(1, 3)] } : State).badFrom 1 = 3) := by
  and_intros <;> decide +kernel

theorem witness_LinkFailures :
    3 < 4 ∧ user.frozen.contains (3, 16 + 3) = false ∧ user.mig = none ∧ 4 ≤ 4
      ∧ ({ user with frozen := [(3, 19)] } : State).frozen.contains (3, 16 + 3) = true
      ∧ (let m : Migration := { srcT := 0, srcF := 3, dstT := 8, dstF := 0, asid := 0, vpn := 1, st := 3 };
        m.st = 3 ∧ frameBase m.dstT m.dstF ≤ 2 ^ 40 ∧ 2 ^ 40 + 2 ^ 21 - 1 < frameBase m.dstT m.dstF + 2 ^ 21) := by decide +kernel

/-- Function 0 has a window on page 1 of context 0. -/
def opened : State :=
  { paged 31 with mmio := (paged 31).mmio.writeN 0x0041_0000 8 (2 ^ 63 + 2 ^ 21) }
/-- Page 1 is being moved. -/
def moving (s : State) : State := { s with
  mig := some { srcT := 0, srcF := 3, dstT := 0, dstF := 32767, asid := 0, vpn := 1, st := 2 } }
/-- Page 2 of address space 0 lies in frame 0 behind CXL port 0, which is frozen. -/
def banked (s : State) : State := { s with
  mmio := (s.mmio.writeN 0x0008_0000 8 0x100_0000).writeN 0x0008_0020 8 0x200_0000
  hbm := (s.hbm.writeN 0x200_0008 4 0x8000_0000).writeN 0x100_0000 16 (2 ^ 127 + 31 * 2 ^ 122 + 2 * 2 ^ 64 + 0xFFFFF * 2 ^ 44)
  frozen := [(3, 16)] }

theorem witness_HostWindow :
    (opened.frozen.contains (3, 20) = false ∧ (∀ i ∈ opened.later, opened.hostFunc i ≠ some 0)) ∧ 0 < 64
      ∧ opened.frozen.contains (4, 0) = false
      ∧ opened.hostReach 0 0x10 8 [.load] = .ok [(.hbm 0x60_0010, 8)] ∧ opened.poison = []
      ∧ opened.hostReach 0 0x10 8 [.store] = .ok [(.hbm 0x60_0010, 8)]
      ∧ opened.hostReach 0 0x10 8 [.load, .store] = .ok [(.hbm 0x60_0010, 8)]
      ∧ opened.hostReach 0 0x14 4 [.load, .store] = .ok [(.hbm 0x60_0014, 4)] ∧ user.window 0 = none
      ∧ (moving opened).hostReach 0 0x10 8 [.store] = .moving
      ∧ (banked { opened with mmio := opened.mmio.writeN 0x0041_0000 8 (2 ^ 63 + 2 ^ 22) }).hostReach 0 0x10 8 [.load] = .moving
      ∧ ({ opened with frozen := [(4, 0)] } : State).frozen.contains (4, 0) = true
      ∧ ({ opened with frozen := [(3, 20)] } : State).frozen.contains (3, 20) = true
      ∧ (let s := { opened with later := [.hostWindowRead 0 0x10 8] }; ∃ i ∈ s.later, s.hostFunc i = some 0)
      ∧ user.released = true ∧ 511 < 512 ∧ 1020 < 1024 ∧ 1020 % 4 = 0 ∧ user.sp.st ≠ 1
      ∧ 1 ≤ 6 % 256 ∧ 6 % 256 ≤ 6 ∧ ({ user with sp := { st := 1, cmd := 6 } } : State).sp.st = 1 ∧ 12 < 13 := by
  and_intros <;> decide +kernel

theorem witness_CellErrors :
    15 < 16 ∧ Memory.wf user.mmio = true
      ∧ (let s := { user with struck := [(Place.vault (16 * 3), false)] };
        s.struck = [(Place.vault (16 * 3), false)] ∧ ∀ x ∈ s.struck, x.1 ≠ placeNorm (.vault 64))
      ∧ 12 ≤ 12 ∧ 11 < 12 ∧ 255 < 256
      ∧ (383 < 384 ∧ 1 < 2 ∧ 16 ≤ 16 ∧ (user.layer (layerOfRouter 383)).state ≠ .retired ∧ user.overSaves 1 16 = false
        ∧ user.wellsFit 383 1 16 = true)
      ∧ 16 < 17 ∧ (inState user 1 1).overSaves 1 16 = true ∧ (layered { state := .retired }).layer 1 = { state := .retired }
      ∧ ({ user with wells := [{ home := 383, idx := 0, inc := 1, well := some {
          ctx := 0, d := 512, n := 32, e := 0, late := 0, p := 8, span := 1, banks := List.replicate 512 {} } }] } : State).wellsFit
            383 1 0 = false := by
  and_intros <;> decide +kernel

/-- Page 1 holds the image of a launch with one task header and one node, all zero, on router 0. -/
def imaged : State := { paged 31 with
  hbm := (((paged 31).hbm.writeBytes 0x60_0000 (bytesOf 2 1 ++ bytesOf 2 1 ++ bytesOf 4 0 ++ bytesOf 8 0x0101
      ++ bytesOf 8 0x20_0100 ++ bytesOf 8 0x20_0140 ++ bytesOf 8 0x20_0180 ++ bytesOf 8 0x20_01C0)).writeN 0x60_0180 1 1).writeN
        0x60_01C0 1 1 }

/-- Queue 3 of context 0 with one slot in its ring: kind, arguments' length, image and descriptor. -/
def ring : HostQueue := { num := 3, ctx := 0, pri := 0, base := 0x1000, size := 4, tail := 1 }
def hosted (kind len img : Nat) : State := { imaged with
  queues := [ring]
  host := Memory.writeBytes [] 0x1000 (bytesOf 8 kind ++ bytesOf 8 0x2000 ++ bytesOf 8 len ++ bytesOf 8 0x20_0200
    ++ bytesOf 8 img ++ bytesOf 8 0x3000 ++ bytesOf 8 7 ++ bytesOf 8 1) ++ Memory.writeBytes [] 0x2000
      (bytesOf 8 0x20_0000 ++ bytesOf 8 0x20_1000 ++ bytesOf 8 (2 ^ 32) ++ bytesOf 8 3) }

/-- What the image at an address gives, and what the write of the arguments does. -/
def image (s : State) (a : Nat) : Option Reach := match s.readImage 0 a with
  | .ok _ => none
  | .error e => some e
def argued (s : State) : Option Reach :=
  match s.devWrite 0 0x20_0200 (s.host.readBytes 0x2000 16) with
  | .ok _ => none
  | .error e => some e

theorem witness_HostQueues :
    (hosted 1 16 0x20_0000).queues = [ring] ∧ ring.num = 3 ∧ (hosted 1 16 0x20_0000).behindHost ring.func = false
      ∧ (hosted 1 16 0x20_0000).frozen.contains (4, ring.func) = false
      ∧ ({ hosted 1 16 0 with frozen := [(4, 0)] } : State).frozen.contains (4, ring.func) = true
      ∧ 255 < 256 ∧ (let s := { user with mmio := [] }; s.ctxState 255 = 0 ∧ s.areaOk 255 = true) ∧ user.ctxState 0 ≠ 0
      ∧ (let s := hosted 1 16 0x20_0000;
        let b := s.slotBytes ring;
        s.nextQueue = some ring ∧ fieldOf b 0 1 = 1 ∧ slotOk b = true ∧ ring.ctx = 0 ∧ fieldOf b 32 8 = 0x20_0000
        ∧ fieldOf b 24 8 = 0x20_0200 ∧ fieldOf b 8 8 = 0x2000 ∧ fieldOf b 16 8 = 16 ∧ image s 0x20_0000 = none ∧ argued s = none
        ∧ argued (moving s) = some .moving)
      -- an image that breaks a rule, one that is absent, and one behind a frozen port
      ∧ (let s := hosted 1 16 0x20_2000; s.nextQueue = some ring ∧ image s 0x20_2000 = some (.denied 0))
      ∧ (let s := hosted 1 16 0x40_0000;
        s.nextQueue = some ring ∧ slotOk (s.slotBytes ring) = true ∧ image s 0x40_0000 = some (.absent 2) ∧ ring.missed = none
        ∧ (banked s).nextQueue = some ring ∧ image (banked s) 0x40_0000 = some .moving)
      ∧ (let s := hosted 3 16 0; s.nextQueue = some ring ∧ fieldOf (s.slotBytes ring) 0 1 ≠ 1
        ∧ fieldOf (s.slotBytes ring) 0 1 ≠ 2)
      ∧ (let s := hosted 2 32 0;
        let b := s.slotBytes ring;
        let desc := s.host.readBytes (fieldOf b 8 8) 32;
        s.nextQueue = some ring ∧ fieldOf b 0 1 = 2 ∧ slotOk b = true ∧ fieldOf desc 24 8 < 4 ∧ fieldOf desc 16 8 ≠ 0
        ∧ fieldOf desc 16 8 ≤ 2 ^ 32)
      ∧ (let s := hosted 2 31 0; s.nextQueue = some ring ∧ slotOk (s.slotBytes ring) = false)
      ∧ (let x (h : Bool) (a : Nat) : Slot := { id := 1, queue := 3, ctx := 0, sig := a, sigHost := h, sigval := 7, kind := .rejected
                                                status := some 1 };
        let s (y : Slot) := { hosted 1 16 0 with slots := [y] };
        let ends (y : Slot) : State := { s y with slots := [] };
        (s (x true 0x3000)).slots[0]? = some (x true 0x3000) ∧ (s (x true 0x3000)).slotStatus (x true 0x3000) = some 1
        ∧ (s (x true 0x3000)).queues.find? (·.num == (x true 0x3000).queue) = some ring ∧ (s (x true 0x3000)).signals = []
        ∧ (s (x true 0x3000)).frozen.contains (4, ring.func) = false ∧ (s (x true 0x3000)).frozen.contains (3, 20) = false
        ∧ ({ s (x true 0x3000) with frozen := [(3, 20)] } : State).frozen.contains (3, 20) = true
        ∧ (ends (x false 0x20_3000)).devReach 0 .store 0x20_3000 16 = .ok [(.hbm 0x60_3000, 16)]
        ∧ (moving (ends (x false 0x20_3000))).devReach 0 .store 0x20_3000 16 = .moving
        ∧ (let run (a : Nat) (v : Nat) (u : State) : Option State := match u.devWrite 0 a (bytesOf 8 v) with
            | .ok t => some t
            | .error _ => none;
          ((run 0x20_3008 1 (ends (x false 0x20_3000))).bind (run 0x20_3000 7)).isSome = true))
      ∧ user.slots.map user.slotStatus = [none] := by
  and_intros <;> decide +kernel

/-- A node of one task with one successor, itself, and the launch of a slot in the given state. -/
def node0 : Node := { task := 0, expl := false, plv := 0, sel := 0, count := 1, rtab := 0, xtab := 0, thresh := 0
                      cmask := 2 ^ 64 - 1, next := [0, 0, 0, 0], etab := 0 }
def graph (st : LaunchState) (placed : Nat) (cs : Vector Nat 64) : Launch :=
  { launch0 with nodes := [node0], parts := [1], scheds := [[1]], state := st, counters := cs
                 phase := { node := 0, count := 1, placed := placed, credits := [0], last := [none], lastDone := [none] } }
def graphed (st : LaunchState) (placed : Nat) (cs : Vector Nat 64) : State :=
  { user with slots := user.slots.map fun x => { x with kind := .launch (graph st placed cs) } }

theorem witness_Phases :
    (let l := graph (.due 0) 0 (Vector.replicate 64 0);
      let s := graphed (.due 0) 0 (Vector.replicate 64 0);
      (s.launchAt 0).map (·.2) = some l ∧ s.sequences 0 = true ∧ l.state = .due 0 ∧ l.nodes[0]? = some node0
      ∧ node0.rtab = 0 ∧ node0.xtab = 0 ∧ node0.etab = 0)
    ∧ (graph (.due 1) 0 (Vector.replicate 64 0)).nodes[1]? = none
    ∧ (let l := graph .running 0 (Vector.replicate 64 0);
      let s := graphed .running 0 (Vector.replicate 64 0);
      (s.launchAt 0).map (·.2) = some l ∧ l.phase.placed < l.phase.count ∧ l.nodes[l.phase.node]? = some node0
      ∧ l.hdrs[node0.task]? = some placedTask.hdr
      ∧ (s.placement l node0 placedTask.hdr l.phase.nextIndex).map (fun x => (x.1, x.2.1)) = some (0, none)
      ∧ s.dispatcherFull 0 = false)
    ∧ (let l := graph .running 1 (Vector.replicate 64 0);
      l.state = .running ∧ l.phase.count ≤ l.phase.placed
      ∧ ∀ i < 64, node0.cmask.testBit i = true → l.counters.toList.getD i 0 = 0)
    ∧ (let l := graph .running 1 ((Vector.replicate 64 0).set 63 1);
      node0.cmask.testBit 63 = true ∧ l.counters.toList.getD 63 0 ≠ 0) := by
  and_intros <;> decide +kernel

/-- Slot 0 of router 0's wells holds the well `w`, with the handle 0x100_0000. -/
def well0 : Well := { ctx := 0, d := 1, n := 2, e := 0, late := 1, p := 4, span := 1, banks := [{}], cur := 3, adv := 3 }
def welled (w : Well) : State := { user with wells := [{ home := 0, idx := 0, inc := 1, well := some w }] }

theorem witness_WellHandles :
    Usable user ((61 : XReg).val :: (XSrc.lit64 1).regs) (XSrc.lit64 1).cells
      -- size 0; size 513; home 384; a reserved bit
      ∧ (user.src (.lit64 0)).toNat % 1024 = 0 ∧ 512 < (user.src (.lit64 513)).toNat % 1024
      ∧ 384 ≤ (user.src (.lit64 (384 * 2 ^ 28 + 1))).toNat / 2 ^ 28 % 512 ∧ (user.src (.lit64 (2 ^ 39 + 1))).toNat / 2 ^ 39 ≠ 0
      ∧ (∀ i < 256, user.wellFits 0 i 1 1 4 = false)
      ∧ (let s := { user with mmio := user.mmio.writeN 0x0053_0000 1 16 }; s.wellFits 0 0 1 1 4 = true)
      ∧ user.core.progress = .none ∧ user.wellOf user.core.ctx (user.src (.reg 5)) = none := by
  and_intros <;> decide +kernel

theorem witness_PostsAndTerms :
    (let s := welled well0;
      Usable s ((XSrc.lit64 0x100_0000).regs ++ (XSrc.reg 2).regs ++ (XSrc.lit32 3).regs)
        ((XSrc.lit64 0x100_0000).cells ++ (XSrc.reg 2).cells ++ (XSrc.lit32 3).cells)
      ∧ s.core.progress = .none ∧ s.wellOf s.core.ctx (s.src (.lit64 0x100_0000)) = some well0
      ∧ tagCon (2 * 2 ^ 16) ≥ well0.n ∧ bits (2 ^ 21 : Word).toNat 21 11 ≠ 0 ∧ tagScale (2 ^ 32) ≠ 0
      ∧ ¬(tagCon 0x1_0003 ≥ well0.n ∨ bits (0x1_0003 : Word).toNat 21 11 ≠ 0 ∨ tagScale 0x1_0003 ≠ 0)
      ∧ s.check { align := 4 } (s.src (.reg 2)) (64 * well0.d * 4) = .ok [(.loc s.core.num 0x100, 256)])
    ∧ (let s := { welled well0 with terms := [term0 3 .request] };
      s.terms[0]? = some (term0 3 .request) ∧ s.routeHeld (term0 3 .request).route = false
      ∧ (term0 3 .request).src = .core s.core.num ∧ s.wellAt 0 0 1 = some well0 ∧ well0.ctx = (term0 3 .request).ctx
      ∧ (term0 3 .request).lt = true ∧ ({ term0 3 .request with lt := false } : Term).lt = false
      ∧ (∀ x ∈ s.terms, x.at_ 0 0 = true → x.phase ≠ .queued)
      ∧ s.wellAt 0 0 2 = none ∧ well0.classOf (tagGen 1) = .retired ∧ well0.classOf (tagGen 2) = .open_
      ∧ well0.classOf (tagGen 3) = .open_ ∧ well0.classOf (tagGen 4) = .ahead
      ∧ well0.freeStage = some 0 ∧ ({ well0 with held := [0, 1, 2, 3] } : Well).freeStage = none)
    ∧ (let s := { user with terms := [] ++ term0 3 (.granted 3) :: [] };
      s.core.ss = false ∧ (term0 3 (.granted 3)).src = .core s.core.num ∧ s.routeHeld (term0 3 (.granted 3)).back = false
      ∧ (term0 1 .late).phase = .late ∧ (term0 1 .discarded).phase = .discarded)
    ∧ (let t := term0 3 (.staging 3);
      let s := { welled well0 with terms := [t] };
      s.terms[0]? = some t ∧ (s.wellSlot 0 0).well = some well0 ∧ 0 < well0.d ∧ 0 ∉ t.staged ∧ 0 ∉ t.lost ∧ s.poison = [] ∧ s.routeHeld t.route = false
      ∧ t.src = .core 0 ∧ well0.classOf (tagGen t.tag) = .open_
      ∧ well0.d ≤ 1 ∧ t.staged.length < well0.d ∧ NoReader s 0 0
      ∧ well0.d ≤ ({ t with staged := [0] } : Term).staged.length ∧ (well0.gen 3).tc < 256
      ∧ 256 ≤ ((well0.setGen 3 { tc := 256 }).gen 3).tc ∧ ({ t with lost := [0] } : Term).lost ≠ []) := by
  and_intros <;> decide +kernel

theorem witness_WellBanks :
    (∀ e ∈ [WellEvent.land 3 3, .drop 3, .advance 3, .free, .read 0 3 none none, .read 0 3 (some true) none,
        .read 0 3 none (some true)],
      let w : Well := { well0 with d := 2, banks := [{}, {}], seq := [e] };
      let s := welled w;
      (s.wellSlot 0 0).well = some w ∧ w.banks[0]? = some ({} : Bank) ∧ s.poison = [] ∧ w.seq[({} : Bank).applied - w.seqBase]? = some e
      ∧ w.banks[1]? = some ({} : Bank) ∧ ({} : Bank).applied ≤ w.seqBase)
    ∧ (let w : Well := { well0 with seq := [.land 3 3] };
      w.banks = [{}] ∧ ({} : Bank).applied = w.seqBase ∧ (∀ y ∈ (welled w).terms, y.at_ 0 0 = true → y.phase ≠ .queued)) := by
  and_intros <;> decide +kernel

/-- The descriptor of a read at x2: to x9, generation 3, waiting for the contributors `req`. -/
def asking (req : Nat) : State := { welled well0 with core := { user.core with
  loc := Memory.writeBytes [] 0x100 (bytesOf 8 0x2000_0000_0000_0400 ++ bytesOf 4 req ++ bytesOf 2 3 ++ bytesOf 2 0
    ++ bytesOf 4 100 ++ bytesOf 4 0) } }
def reading (w : Well) (r : WellRead) : State := { welled w with reads := [r] }
/-- Generation 3 holds three terms, and the checkpoints 1 and 2. -/
def well3 : Well := well0.setGen 3 { tc := 3, cp0 := 1, cp1 := 2, log := List.replicate 3 (0, false, false) }

theorem witness_WellReads :
    (let s := asking 0;
      let fld (o k : Nat) : Nat := ofBytes (((s.loadSegs [(.loc 0 0x100, 32)]).drop o).take k);
      Usable s ((61 : XReg).val :: ((XSrc.lit64 0x100_0000).regs ++ (XSrc.reg 2).regs))
          ((XSrc.lit64 0x100_0000).cells ++ (XSrc.reg 2).cells)
      ∧ s.core.progress = .none ∧ s.wellOf s.core.ctx (s.src (.lit64 0x100_0000)) = some well0
      ∧ s.spaceOf (s.src (.reg 2)).toNat = .loc 0x100 ∧ (s.src (.reg 2)).toNat % 32 = 0
      ∧ s.check {} (s.src (.reg 2)) 32 = .ok [(.loc 0 0x100, 32)]
      ∧ s.check { kind := .store, allow := .mem012, align := 4 } (BitVec.ofNat 64 (fld 0 8)) (64 * well0.d * 4)
        = .ok [(.loc 0 0x400, 256)]
      ∧ s.check { kind := .store, align := 8 } (s.src (.reg 2) + 24) 8 = .ok [(.loc 0 0x118, 8)] ∧ fld 14 2 = 0
      ∧ fld 8 4 = 0 ∧ fld 16 4 ≠ 0)
    ∧ (let s := asking 1;
      ofBytes (((s.loadSegs [(.loc 0 0x100, 32)]).drop 8).take 4) ≠ 0)
    ∧ (let a : Word := 0x2000_0000_0000_0108; a.toNat % 32 ≠ 0 ∧ user.spaceOf a.toNat = .loc 0x108)
    -- at the home: no such well, another context's, REQ bits at and above n, ahead, retired
    ∧ (let r := read0 3 .sent;
      let s := reading well0 r;
      s.reads = r :: [] ∧ r.core = s.core.num ∧ s.routeHeld (s.askRoute r.core r.home) = false ∧ s.wellAt 0 0 2 = none ∧ well0.ctx ≠ 1
      ∧ s.wellAt r.home r.idx r.inc = some well0 ∧ well0.ctx = r.ctx ∧ 2 ^ well0.n ≤ 4 ∧ 3 < 2 ^ well0.n
      ∧ well0.classOf (read0 4 .returned).gen = .ahead ∧ well0.classOf (read0 1 .sent).gen = .retired
      ∧ well0.classOf r.gen = .open_ ∧ r.delta = false
      -- its condition does not hold: WAIT is full, or it waits; it holds, or its deadline has passed
      ∧ ({ r with req := 2 } : WellRead).met (well0.gen r.gen) = false ∧ r.expired = false
      ∧ (let w := { read0 3 .waiting with core := 1 };
        16 ≤ ((List.replicate 16 w).filter fun y => y.home == r.home && y.idx == r.idx && y.phase == .waiting).length
        ∧ ∀ x ∈ List.replicate 16 w, x.core ≠ 0)
      ∧ s.postsOut r = false ∧ r.met (well0.gen r.gen) = true ∧ ({ r with expired := true } : WellRead).expired = true
      -- an empty sum, a new ticket, and a checkpoint's own
      ∧ (well0.gen r.gen).tc = 0 ∧ (well3.gen 3).tc ≠ (well3.gen 3).cp0 ∧ (well3.gen 3).tc ≠ (well3.gen 3).cp1)
    ∧ (let r := { read0 3 .sent with delta := true };
      let x := well3.gen 3;
      (reading well3 r).postsOut r = false ∧ well3.classOf r.gen = .open_ ∧ x.tc < 4 ∧ (3 ≠ x.cp0 ∧ 3 ≠ x.cp1 ∧ 3 ≤ x.tc)
      ∧ (1 ≤ x.tc ∧ 1 = x.cp0) ∧ (2 ≤ x.tc ∧ 2 ≠ x.cp0 ∧ 2 = x.cp1) ∧ r.base = 0)
    ∧ (let r := { read0 3 .waiting with req := 2 };
      r.phase = .waiting ∧ r.dl ≠ 0xFFFF_FFFF ∧ (reading well0 r).postsOut r = false
      ∧ ((reading well0 r).wellSlot r.home r.idx).well = some well0
      ∧ (let s := { reading well0 r with terms := [term0 3 (.staging 0)] }; s.postsOut r = true))
    ∧ (read0 3 .retired).phase = .retired ∧ (read0 3 (.refused 3)).phase = .refused 3
    ∧ (let r := read0 3 (.placed 0 0 false false false);
      let s := { reading well0 r with reads := [] };
      s.core.ss = false ∧ s.routeHeld (s.backRoute r.home s.core.num) = false ∧ r.elements r.d = some ((List.replicate 64 (0 : Int)).map some)
      ∧ s.check { kind := .store, allow := .mem012 } r.dst (64 * 4) = .ok [(.loc 0 0x400, 256)]
      ∧ (s.push r.dst (cutRuns 0 [(.loc 0 0x400, 256)]) (List.replicate 256 0)).check { kind := .store, align := 8 } (r.desc + 24) 8
        = .ok [(.loc 0 0x118, 8)]) := by
  and_intros <;> decide +kernel

theorem witness_WellControl :
    (let s := welled well0;
      s.core.progress = .none ∧ s.wellOf s.core.ctx (s.src (.lit64 0x100_0000)) = some well0
      ∧ Usable s ((61 : XReg).val :: ((XSrc.lit64 0x100_0000).regs ++ (XSrc.reg 5).regs))
          ((XSrc.lit64 0x100_0000).cells ++ (XSrc.reg 5).cells)
      ∧ (2 ^ 21 : Word).toNat / 2 ^ 21 ≠ 0 ∧ well0.n ≤ tagCon (2 * 2 ^ 16) ∧ well0.classOf (tagGen 5) = .ahead
      ∧ ¬((3 + 2 ^ 16 : Word).toNat / 2 ^ 21 ≠ 0 ∨ well0.n ≤ tagCon (3 + 2 ^ 16) ∨ well0.classOf (tagGen (3 + 2 ^ 16)) = .ahead)
      ∧ NoReader s (hHome 0x100_0000) (hIdx 0x100_0000) ∧ well0.classOf (tagGen (3 + 2 ^ 16)) = .open_
      ∧ well0.classOf (tagGen 1) = .retired ∧ well0.lastAdv = none ∧ s.terms = [] ∧ s.reads = [])
    ∧ ({ user with core := { user.core with progress := .asked 0 (some []) } } : State).core.progress = .asked 0 (some []) := by
  and_intros <;> decide +kernel

theorem witness_GateActivity :
    Usable user ((61 : XReg).val :: ((XSrc.lit32 255).regs ++ (XSrc.reg 5).regs)) ((XSrc.lit32 255).cells ++ (XSrc.reg 5).cells)
      ∧ Granted user (·.gg) 255 ∧ ¬Granted bare (·.gg) 255 ∧ 256 ≤ (user.src (.lit32 256)).toNat
      ∧ (let bad (n : Nat) : Bool := n / 2 ^ 20 != 0 || n % 2 ^ 16 == 0 || decide (4096 < n % 2 ^ 16) || n / 2 ^ 16 % 16 == 0
          || decide (8 < n / 2 ^ 16 % 16);
        bad 0x8_1000 = false ∧ bad 0x8_1001 = true ∧ bad 0x9_1000 = true ∧ bad 0x8_0000 = true ∧ bad 0x0_1000 = true
        ∧ user.gates = [])
      ∧ Usable user (XSrc.lit64 0).regs (cellV 31 :: (XSrc.lit64 0).cells)
      ∧ (let bad (n : Nat) : Bool := n / 2 ^ 48 != 0 || n / 2 ^ 28 % 16 != 0 || n / 2 ^ 13 % 8 != 0 || n / 2 ^ 24 % 16 == 0
          || decide (8 < n / 2 ^ 24 % 16) || decide (6144 ≤ n % 2 ^ 13);
        bad 0xFFFF_08FF_17FF = false ∧ bad 0xFFFF_08FF_1800 = true ∧ bad 0xFFFF_00FF_17FF = true)
      ∧ user.vmuBusy = false
      ∧ (let l : GateList := { ctx := 0, g := 255, root := 0, pairs := [], at_ := 383 };
        let s := { user with gateLists := [l] };
        s.gateLists[0]? = some l ∧ l.at_ ≠ 384 ∧ s.routeHeld l.hop = false ∧ ({ s with gateHolds := [l] } : State).gateHolds = [l] ∧ l.same l = true
        ∧ (∀ h ∈ s.gateHolds, h.at_ ≠ l.at_ ∨ h.same l = false) ∧ (s.gateHolds.filter (·.at_ == l.at_)).length < 8
        ∧ (let full : State := { s with gateHolds := List.replicate 8 { l with g := 254 } };
          8 ≤ (full.gateHolds.filter (·.at_ == l.at_)).length ∧ ∀ h ∈ full.gateHolds, h.at_ ≠ l.at_ ∨ h.same l = false))
      ∧ (let l : GateList := { ctx := 0, g := 255, root := 0, pairs := [], at_ := 384 };
        let x (m : Nat) : Gate := { ctx := 0, g := 255, root := 0, task := 0, m := m, k := 8, got := 1 };
        ({ user with gates := [x 2] } : State).gates = [x 2] ∧ (x 2).root = l.root ∧ (x 3).got + l.count < (x 3).m
        ∧ (x 2).got + l.count = (x 2).m ∧ (x 1).m < (x 1).got + l.count ∧ (x 2).k ≤ 8 ∧ (x 2).pairs = []
        -- two kept pairs of 0.375 and 0.125 (R183); one that is infinite
        ∧ ((rankPairs [(0x3EC0_0000, 4), (0x3E00_0000, 7)]).take 8 = [(0x3EC0_0000, 4), (0x3E00_0000, 7)]
          ∧ fmtF32.value 0x3EC0_0000 = .fin false 0xC0_0000 (-25) ∧ fmtF32.value 0x3E00_0000 = .fin false 0x80_0000 (-26)
          ∧ 0xC0_0000 * 2 ^ 124 + 0x80_0000 * 2 ^ 123 = 2 ^ 148 ∧ 0 < 2 ^ 148 ∧ fmtF32.value 0x7F80_0000 = .inf false)) := by
  refine ⟨?_, granted_user _ _ (by decide +kernel), not_granted _ _, ?_⟩ <;> and_intros <;> decide +kernel

/-- Expert 0 of context 0: vectors of one segment, room for `cap` tokens from page 1 on, through core 0. -/
def expert (s : State) (cap : Nat) : State := { s with
  mmio := s.mmio.writeN 0x0030_0000 20 (0x20_0000 + cap * 2 ^ 64 + 2 ^ 96 + 0x8000 * 2 ^ 128) }
/-- A token's block at x2. -/
def token (e : Nat) : State := { expert (paged 31) 1 with core := { user.core with
  loc := Memory.writeBytes [] 0x100 (bytesOf 8 0x2000_0000_0000_0400 ++ bytesOf 4 e ++ bytesOf 4 0 ++ bytesOf 8 0x100_0000
    ++ bytesOf 8 3) } }
def slotReq (well : Word) (n : Option Nat) : SlotReq :=
  { core := 0, d := 61, ctx := 0, exp := 0, well := well, tag := 3, data := List.replicate 256 0, answer := n }

theorem witness_Dispatches :
    (let s := token 0;
      let fld (o n : Nat) := ofBytes (((s.loadSegs [(.loc 0 0x100, 32)]).drop o).take n);
      Usable s ((61 : XReg).val :: (XSrc.reg 2).regs) (XSrc.reg 2).cells ∧ s.core.progress = .none
      ∧ s.spaceOf (s.src (.reg 2)).toNat = .loc 0x100 ∧ (s.src (.reg 2)).toNat % 32 = 0
      ∧ s.check {} (s.src (.reg 2)) 32 = .ok [(.loc 0 0x100, 32)]
      ∧ fld 12 4 < 2 ^ 13 ∧ s.expertOk s.core.ctx (fld 8 4) (fld 12 4) = true
      ∧ s.check { align := s.expSize 0 } (BitVec.ofNat 64 (fld 0 8)) (s.expLen 0) = .ok [(.loc s.core.num 0x400, s.expLen 0)]
      ∧ s.expGlobal 0 = false ∧ s.settled .package = true)
    ∧ (let s := token 4096; s.expertOk s.core.ctx 4096 0 = false)
    ∧ (∀ off, user.spaceOf (user.src (.reg 1)).toNat ≠ .loc off) ∧ (user.src (.lit64 0x2000_0000_0000_0110)).toNat % 32 ≠ 0
    ∧ (let s := { expert user 1 with slotReqs := [slotReq 0 none] };
      s.slotReqs = [slotReq 0 none] ∧ (slotReq 0 none).core = s.core.num ∧ s.core.ss = false
      ∧ s.routeHeld (s.slotRoute (slotReq 0 none)) = false ∧ s.expCnt 0 < s.expCap 0)
    ∧ (let s := { expert (welled well0) 0 with slotReqs := [slotReq 0x100_0000 none] };
      s.expCap 0 ≤ s.expCnt 0 ∧ s.wellOf 0 0x100_0000 = some well0 ∧ well0.badAbsent 3 = false ∧ s.reads = []
      ∧ s.wellOf 0 0 = none)
    ∧ (let r := slotReq 0 (some 0);
      let s := { expert (paged 31) 1 with slotReqs := [r] };
      let to_ := s.expSlot 0 0;
      let at_ (o n : Nat) : Prop := s.reach r.core (s.ctxAsid 0) .store (to_ + BitVec.ofNat 64 o) n = .ok [(.hbm (0x60_0000 + o), n)];
      s.expGlobal 0 = false ∧ s.poison = [] ∧ s.reach 0 (s.ctxAsid 0) .store to_ 320 = .ok [(.hbm 0x60_0000, 320)]
      ∧ at_ 0 56 ∧ at_ 64 r.data.length ∧ at_ 56 8 ∧ r.sent = false ∧ ({ r with sent := true } : SlotReq).sent = true
      ∧ s.settled .system = true ∧ ({ s with acks := [{ core := 0, cls := .home }] } : State).settled .system = false) := by
  have h : user.spaceOf (user.src (.reg 1)).toNat = .vault 0x1000 := by decide +kernel
  refine ⟨?_, ?_, by simp [h], ?_⟩ <;> and_intros <;> decide +kernel

theorem witness_Triggers :
    Usable user ((61 : XReg).val :: ((XSrc.lit32 63).regs ++ (XSrc.reg 5).regs)) ((XSrc.lit32 63).cells ++ (XSrc.reg 5).cells)
      ∧ 64 ≤ (user.src (.lit32 64)).toNat ∧ ¬Granted bare (·.trg) 63 ∧ Granted user (·.trg) 63
      ∧ user.settled .package = true ∧ (user.trigger user.core.ctx 63).ab = false
      ∧ (user.trigger user.core.ctx 63).v < (user.src (.reg 5)).toNat % 2 ^ 63
      ∧ (user.src (.reg 6)).toNat % 2 ^ 63 ≤ (user.trigger user.core.ctx 63).v
      ∧ (let s := { user with triggers := [{ ctx := 0, num := 63, v := 1, ab := true }] };
        (s.trigger s.core.ctx 63).ab = true) := by
  refine ⟨?_, ?_, not_granted _ _, granted_user _ _ (by decide +kernel), ?_⟩ <;> and_intros <;> decide +kernel

/-- A copy of 16 bytes within page 1 for that group, and its block of 64 bytes at x2. -/
def centry : CEntry :=
  { ctx := 0, op := 1, red := 0, grp := 0, fin := false, trig := 0, ltrig := 0xFF, dtrig := 0xFF, thr := 0, src := 0x20_0010
    dst := 0x20_0020, len := 16, chunk := 0, dpkg := none, tag := 0 }
def posting : State := { grouped (paged 31) 1 with core := { user.core with
  loc := Memory.writeBytes [] 0x100 ([1, 0, 0, 0, 0, 255, 255, 0] ++ bytesOf 8 0 ++ bytesOf 8 0x20_0010
    ++ bytesOf 8 0x20_0020 ++ bytesOf 4 16) } }

theorem witness_Collectives :
    (let s := posting;
      Usable s ((61 : XReg).val :: ((XSrc.reg 2).regs ++ (XSrc.lit32 255).regs)) ((XSrc.reg 2).cells ++ (XSrc.lit32 255).cells)
      ∧ s.spaceOf (s.src (.reg 2)).toNat = .loc 0x100 ∧ (s.src (.reg 2)).toNat % 64 = 0
      ∧ s.check {} (s.src (.reg 2)) 64 = .ok [(.loc 0 0x100, 64)]
      ∧ s.entryOf s.core.ctx (s.loadSegs [(.loc 0 0x100, 64)]) = some centry ∧ s.settled .package = true
      ∧ (s.qp 255).entries.length < 256 ∧ s.groupSt centry.grp = 1 ∧ user.entryOf 0 (List.replicate 64 0) = none
      ∧ (grouped user 2).groupSt centry.grp = 2 ∧ (grouped user 3).groupSt centry.grp = 3)
    ∧ Granted user (·.qp) 255 ∧ ¬Granted bare (·.qp) 255 ∧ 256 ≤ (user.src (.lit32 256)).toNat
    ∧ (user.src (.lit64 0x2000_0000_0000_0120)).toNat % 64 ≠ 0
    ∧ (let s := { posting with qps := [{ num := 255, entries := [centry] }] };
      (s.qp 255).entries = centry :: [] ∧ s.frozen.contains (2, 255) = false ∧ s.held.contains centry.ctx = false
      ∧ s.ctxState centry.ctx = 1 ∧ (s.trigger 0 0).ab = false ∧ centry.thr ≤ (s.trigger 0 0).v ∧ s.groupSt 0 = 1
      ∧ s.imageReach 0 .load 0x20_0010 16 = .ok [(.hbm 0x60_0010, 16)] ∧ s.poison = [] ∧ centry.op = 1 ∧ centry.len = 16
      ∧ centry.dpkg = none ∧ (banked s).imageReach 0 .load 0x40_0000 16 = .moving
      ∧ (grouped (paged 15) 1).imageReach 0 .load 0x20_0010 16 = .denied 0 ∧ Memory.wf s.mmio = true ∧ s.groupRoot 0 = false
      ∧ s.groupParent 0 = some 1
      ∧ (s.trigger 0 0).v < ({ centry with thr := 1 } : CEntry).thr
      ∧ ({ s with triggers := [{ ctx := 0, num := 0, ab := true }] } : State).trigger 0 0 = { ctx := 0, num := 0, ab := true })
    ∧ (let p : Part := { pkg := 0, id := 0, grp := 0, seq := 0, op := 2, red := 0, dst := 0x20_0020, bytes := List.replicate 16 0 };
      let s := { posting with parts := [p] };
      s.parts[0]? = some p ∧ s.inSequence p.grp p.seq = true ∧ p.pkg = s.pkg ∧ s.inSequence p.grp 1 = false
      ∧ s.imageReach (s.groupCtx p.grp) .store p.dst p.bytes.length = .ok [(.hbm 0x60_0020, p.bytes.length)]
      ∧ (moving s).imageReach (s.groupCtx p.grp) .store p.dst p.bytes.length = .moving)
    ∧ (let f (e : CEntry) (n : Nat) : Fired := { id := 0, e := e, seq := 0, left := n };
      ({ posting with fired := [f centry 0] } : State).fired[0]? = some (f centry 0) ∧ (f centry 0).left = 0
      ∧ (f centry 1).left ≠ 0 ∧ ({ centry with dtrig := 63 } : CEntry).dtrig ≠ 0xFF ∧ (f centry 0).done = false
      ∧ posting.inSequence 0 0 = true ∧ posting.inSequence 0 1 = false ∧ centry.dpkg = none ∧ centry.fin = false
      ∧ ({ centry with ltrig := 63 } : CEntry).ltrig ≠ 0xFF) := by
  refine ⟨?_, granted_user _ _ (by decide +kernel), not_granted _ _, ?_⟩ <;> and_intros <;> decide +kernel

theorem witness_GroupAborts :
    Memory.wf user.mmio = true
      ∧ Usable user ((61 : XReg).val :: (XSrc.reg 6).regs) (XSrc.reg 6).cells ∧ (user.src (.reg 6)).toNat = 0
      ∧ 256 ≤ (user.src (.lit32 256)).toNat ∧ ¬Granted bare (·.cg) 255 ∧ Granted user (·.cg) 0 ∧ user.groupSt 0 ≠ 1
      ∧ (let s := grouped user 1; Memory.wf s.mmio = true ∧ s.groupSt 0 = 1 ∧ s.groupRoot 0 = false ∧ s.groupParent 0 = some 1)
      ∧ (let s := grouped user 5; s.groupSt 0 = 1 ∧ s.groupRoot 0 = true)
      ∧ (let s := grouped user 2; s.groupSt 0 = 2 ∧ (s.group 0).told = false) ∧ user.groupSt 0 = 0 ∧ (grouped user 3).groupSt 0 = 3
      ∧ (1 : Nat) ≠ user.groupSeq 0 ∧ (0 : Nat) ≠ (user.groupSeq 0 + 1) % 2 ^ 32
      -- at the root, and below it
      ∧ (∀ st ∈ [6, 2], let s := { grouped user st with groups := [{ num := 0, told := true }] };
        s.groupSt 0 = 2 ∧ (s.group 0).told = true ∧ (s.group 0).passed = false ∧ s.groupRoot 0 = decide (st = 6)
        ∧ s.groupParent 0 = some 1 ∧ (∀ c ∈ s.groupChildren 0, c = 2 ∨ c ∈ (s.group 0).acked)) := by
  refine ⟨?_, ?_, ?_, ?_, not_granted _ _, granted_user _ _ (by decide +kernel), ?_⟩ <;> and_intros <;> decide +kernel

theorem witness_MastersAndContexts :
    Usable priv ((61 : XReg).val :: (XSrc.lit32 5).regs) (XSrc.lit32 5).cells ∧ user.core.p = false ∧ priv.core.p = true
      ∧ (priv.src (.lit64 0x8_0000)).toNat / 2 ^ 19 ≠ 0 ∧ (priv.src (.lit32 0x2000)).toNat / 2 ^ 13 % 8 ≠ 0
      ∧ 4 < (priv.src (.lit32 0x5_0000)).toNat / 2 ^ 16 ∧ (priv.src (.reg 6)).toNat = priv.core.num
      ∧ priv.core.num < 6144 ∧ priv.core.memberOf = none ∧ priv.core.frozen = false
      ∧ (priv.src (.lit32 (0x1_0000 + 383))).toNat = 2 ^ 16 + 383 ∧ priv.frozen.contains (1, 383) = false
      ∧ ({ priv with frozen := [(1, 383)] } : State).frozen.contains (1, 383) = true
      ∧ (∀ c ∈ priv.allCores, priv.hasLost c.num = false)
      -- a queue pair, a port and a function
      ∧ (∀ k ∈ [(2, 255), (3, 20), (4, 63)], (priv.src (.lit32 (BitVec.ofNat 32 (k.1 * 2 ^ 16 + k.2)))).toNat = k.1 * 2 ^ 16 + k.2
        ∧ k.2 < (if k.1 = 2 then 256 else if k.1 = 3 then 21 else 64) ∧ priv.frozen.contains k = false
        ∧ ({ priv with frozen := [k] } : State).frozen.contains k = true)
      ∧ priv.signals = [] ∧ (priv.qp 255).entries = []
      ∧ ({ priv with qps := [{ num := 255, entries := [centry] }] } : State).qp 255 = { num := 255, entries := [centry] }
      ∧ (let g : Signal := { slot := 0, func := 63, ctx := 0, addr := 0, toHost := true, status := 0, val := 1 };
        let s : State := { priv with signals := [g], frozen := [(4, 63)] };
        s.signals = [g] ∧ g.func = 63 ∧ g.toHost = true ∧ s.frozen.contains (3, 20) = false)
      ∧ (priv.src (.lit32 6143)).toNat = 6143 ∧ 6143 ≠ priv.core.num ∧ priv.core.members = []
      ∧ (priv.getCore 6143).memberOf = none ∧ (priv.getCore 6143).members = [] ∧ (priv.getCore 6143).frozen = false
      ∧ (priv.getCore 6143).freezeDue = false ∧ (priv.getCore 6143).task = none
      -- another core's task: it runs, or its context is being stopped
      ∧ (let c : Core := { user.core with num := 6143 };
        let s : State := { priv with others := [c] };
        s.getCore 6143 = c ∧ c.task ≠ none ∧ s.saving c.ctx = false ∧ c.tstate ≠ .queued
        ∧ ({ s with held := [0] } : State).saving c.ctx = true)
      ∧ ({ priv with others := [{ num := 6143, frozen := true }] } : State).getCore 6143 = { num := 6143, frozen := true }
      ∧ Memory.wf user.mmio = true ∧ user.ctxState 0 = 1 ∧ (inState user 0 2).ctxState 0 = 2
      ∧ (inState user 255 3).ctxState 255 = 3 ∧ Memory.wf (inState user 255 3).mmio = true
      ∧ (inState user 255 3).ctxDrained 255 = true
      ∧ (let s := inState user 0 3; s.ctxDrained 0 = true ∧ s.core.ctx = 0 ∧ s.core.task ≠ none ∧ ∀ k ∈ s.others, k.num ≠ s.core.num)
      ∧ (let s := inState (flown 0 false) 0 3; s.ctxState 0 = 3 ∧ s.ctxDrained 0 = false) ∧ user.ctxState 255 = 0 := by
  and_intros <;> decide +kernel

/-- The mailbox works on command `k` with these arguments. -/
def mailed (k : Nat) (args : List Byte) : State :=
  { user with sp := { st := 1, cmd := k }, mmio := user.mmio.writeBytes 0x0060_1000 args, enclaves := [enclave] }

/-- Package 3, whose enclave 9 has revoked nobody; it is not the leading member. -/
def third : Enclave := { enclave with
  keys := [[1], [2], [3]], members := [(3, 0), (1, 1), (2, 2)], pairs := [(1, [1]), (2, [1])] }

/-- What the firmware says of an image, a record, a policy or a wrapped key is free (log entries 59, 60 and 98):
the clauses about those ask for one of the two answers each, and every state has one of them. -/
theorem witness_PackageControl :
    (mailed 1 []).sp = { st := 1, cmd := 1 } ∧ (mailed 6 []).sp = { st := 1, cmd := 6 } ∧ (mailed 3 []).sp = { st := 1, cmd := 3 }
      ∧ (let s := mailed 2 (bytesOf 1 7 ++ bytesOf 2 4000);
        s.sp.cmd = 2 ∧ s.mmio.readN (0x0060_1000 + 0) 1 = 7 ∧ s.mmio.readN (0x0060_1000 + 1) 2 = 4000)
      ∧ (let s := mailed 2 (bytesOf 1 7 ++ bytesOf 2 4001); 4000 < s.mmio.readN (0x0060_1000 + 1) 2)
      ∧ (mailed 2 [1]).mmio.readN (0x0060_1000 + 0) 1 < 2
      ∧ (let s := { mailed 4 (bytesOf 8 9 ++ bytesOf 8 1 ++ bytesOf 8 1 ++ bytesOf 8 3) with frames := [(9, 3)] };
        s.sp.st = 1 ∧ s.sp.cmd = 4 ∧ s.mmio.readN (0x0060_1000 + 16) 8 = 1 ∧ s.mmio.readN (0x0060_1000 + 24) 8 = 3
        ∧ (∃ e ∈ s.enclaves, e.id = s.mmio.readN (0x0060_1000 + 0) 8) ∧ 3 < 2 ^ 24 ∧ 3 % 2 ^ 20 < framesOf (3 / 2 ^ 20)
        ∧ s.mmio.readN (0x0060_1000 + 8) 8 = 1 ∧ (9, 3) ∈ s.frames)
      ∧ (let s := mailed 4 (bytesOf 8 9 ++ bytesOf 8 2 ++ bytesOf 8 1); 1 < s.mmio.readN (0x0060_1000 + 8) 8)
      ∧ ¬(user.sp.st = 1 ∧ user.sp.cmd = 1)
      -- another package's participant is revoked: the enclave's leading member, and a member that is not; a group aborts
      ∧ (let s := { mailed 5 (bytesOf 8 9 ++ bytesOf 4 1 ++ [1]) with encCtxs := [(0, 9)] };
        s.enclaves.find? (·.id == enclave.id) = some enclave
        ∧ enclave.epoch < 1 ∧ 1 < enclave.keys.length ∧ enclave.quorum ≤ signers 1 enclave.keys.length 1
        ∧ ¬enclave.epoch < 0 ∧ s.sp.st = 1 ∧ s.sp.cmd = 5 ∧ s.mmio.readN 0x0060_1000 8 = enclave.id
        ∧ s.mmio.readN 0x0060_1008 4 = 1 ∧ s.mmio.readN 0x0060_100C 1 = 1 ∧ s.sigMask enclave = s.sigMask enclave
        ∧ (s.pkg, 1) ∉ enclave.members ∧ ({ enclave with revoked := [1] } : Enclave).leads s.pkg = true
        ∧ ({ third with revoked := [2] } : Enclave).leads 3 = false
        ∧ (let g := grouped s 1;
          Memory.wf g.mmio = true ∧ g.inEnclave 9 (g.groupCtx 0) = true ∧ g.groupSt 0 = 1 ∧ g.groupRoot 0 = false
          ∧ g.groupParent 0 = some 1 ∧ (1, 1) ∈ enclave.members)
        -- its own
        ∧ enclave.quorum ≤ signers 2 enclave.keys.length 0 ∧ (s.pkg, 0) ∈ enclave.members ∧ s.others = []
        ∧ (0, s.core.num) ∈ s.mastersOf enclave.id)
      ∧ (let s := { user with keyBox := [(9, 4, 0, [1])], enclaves := [{ enclave with pairs := [(0, [1])] }] };
        s.keyBox.find? (·.2.1 == 4) = some (9, 4, 0, [1])
        ∧ s.enclaves.find? (·.id == 9) = some { enclave with pairs := [(0, [1])] }
        ∧ ({ enclave with pairs := [(0, [1])] } : Enclave).leads 0 = true
        ∧ ({ enclave with pairs := [(0, [1])] } : Enclave).pairs.find? (·.1 == 0) = some (0, [1])
        ∧ enclave.leads 1 = false ∧ ∀ x ∈ s.keyBox, x.2.1 = 5 → ∀ e ∈ s.enclaves, e.id ≠ x.1)
      ∧ (mailed 0 []).enclaves = [enclave] ∧ enclave.old ≠ none ∧ (∀ e ∈ user.enclaves, e.old = none)
      -- before and after the exchange of ephemeral keys
      ∧ user.ephemerals = [] ∧ (∃ x ∈ ({ user with ephemerals := [(9, 1, [])] } : State).ephemerals, x.1 = 9)
      ∧ user.released = true ∧ user.behindHost 0 = false ∧ user.frozen.contains (4, 0) = false
      ∧ ({ user with released := false, image := [1] } : State).released = false := by
  and_intros <;> decide +kernel

/-- The words at the PC, in the vault of router 0, in the first step after tick 0. -/
def placed (ws : List Nat) : State :=
  { user with tick := 1, vault := Memory.writeBytes [] 0x100 (ws.flatMap fun w => bytesOf 4 w) }

theorem fetches (ws : List Nat) (a : Word) (w off : Nat)
    (h : (placed ws).check fetchAccess a 4 = .ok [(.vault off, 4)]) (hm : (placed ws).mustWait [(.vault off, 4)] = false)
    (hw : ofBytes ((placed ws).loadSegs [(.vault off, 4)]) = w) (hs : (placed ws).spaceOf a.toNat = .vault off) :
    Fetches (placed ws) a w :=
  ⟨by rfl, by simp [hs], _, h, hm, hw⟩

theorem witness_StepRunsDecoded :
    Ready (placed [0x18189F80, 0x804, 1]) ∧ (placed [0x18189F80, 0x804, 1]).frameFirst = false
      ∧ Fetches (placed [0x18189F80, 0x804, 1]) 0x1000_0000_0000_0100 0x18189F80
      ∧ Fetches (placed [0x18189F80, 0x804, 1]) 0x1000_0000_0000_0104 0x804
      ∧ Fetches (placed [0x18189F80, 0x804, 1]) 0x1000_0000_0000_0108 1
      ∧ wordsOf 0x18189F80 = 3 ∧ wordsOf 0x18189F00 = 2 ∧ wordsOf 0x02188281 = 1
      ∧ decodeWord 0x18189F80 0x804 1 = .ok (.extz 3 (.reg 4) (.lit64 0x1_0000_0804))
      ∧ decodeWord 0x02188281 0 0 = .ok (.sub 3 (.reg 4) (.reg 5)) ∧ ∃ e, decodeWord 0 0 0 = .error e := by
  refine ⟨by decide +kernel, by decide +kernel, fetches _ _ _ 0x100 ?_ ?_ ?_ ?_, fetches _ _ _ 0x104 ?_ ?_ ?_ ?_, fetches _ _ _ 0x108 ?_ ?_ ?_ ?_,
    ?_, ?_, ?_, rfl, rfl, _, rfl⟩ <;> decide +kernel

theorem witness_DecodeEncode :
    wellFormed (.vadd 31 30 29 (some 3)) = true ∧ wellFormed (.add 61 (.lit64 0xFFFF_FFFF_FFFF_FFFF) (.reg 61)) = true
      ∧ wellFormed (.ld 60 (.reg 61) 15 .p (-32)) = true ∧ wellFormed (.accrd 31 1 63 true .rup .s32) = true := by
  decide

theorem witness_SlotZeroKept : State.reset.slot0 ∧ ∃ t, step State.reset = .next t := ⟨by unfold State.slot0; decide, _, rfl⟩

/-! ### One step of an instruction, with the result that the rules give -/

/-- The instruction runs and what follows it passes the check. -/
def ran (i : Instr) (s : State) (f : State → Bool) : Bool :=
  match exec i s with
  | .next t => f t
  | _ => false
/-- The instruction writes the value to x11 and goes on. -/
def gives (i : Instr) (s : State) (v : Word) : Bool := ran i s fun t => t.core.x[11] == v && t.core.pc == s.core.npc
/-- The instruction enters the handler with this cause and TVAL (R186). -/
def traps (i : Instr) (s : State) (cause : BitVec 5) (tval : Word) : Bool := ran i s fun t =>
  t.core.cause == cause && t.core.tval == tval && t.core.epc == s.core.pc && t.core.p && t.core.pc == 0x1000_0000_0000_0100
    && t.core.x == s.core.x

/-- R14, R80: sums wrap; word results are sign-extended; shifts take the amount modulo 64. -/
theorem test_alu : (gives (.add 11 (.reg 7) (.reg 5)) user 4 && gives (.addW 11 (.lit32 0x7FFF_FFFF) (.lit32 1)) user 0xFFFF_FFFF_8000_0000
    && gives (.sll 11 (.reg 5) (.lit32 65)) user 10 && gives (.sra 11 (.reg 7) (.lit32 63)) user (-1)
    && gives (.sraW 11 (.lit64 0x8000_0000) (.lit32 40)) user (-1) && gives (.andn 11 (.reg 7) (.reg 5)) user (-6)) = true := by
  decide +kernel
/-- R36: x0 discards what is written. -/
theorem test_x0 : ran (.add 0 (.reg 5) (.reg 5)) user (fun t => t.core.x == user.core.x && t.core.pc == user.core.npc) = true := by
  decide +kernel
/-- R15, R83, R84: division by zero, the quotient that overflows, and the upper halves of products. -/
theorem test_divide : (gives (.div 11 (.reg 5) (.reg 6)) user (-1) && gives (.remu 11 (.reg 5) (.reg 6)) user 5
    && gives (.div 11 (.lit64 0x8000_0000_0000_0000) (.reg 7)) user 0x8000_0000_0000_0000
    && gives (.rem 11 (.lit64 (-7)) (.reg 5)) user (-2) && gives (.mulhsu 11 (.reg 7) (.reg 5)) user (-1)
    && gives (.mulhu 11 (.reg 7) (.reg 5)) user 4) = true := by decide +kernel
/-- R87: a field of 8 bits at bit 4 of 0xABC: 0xAB, sign-extended by EXTS. -/
theorem test_fields : (gives (.extz 11 (.lit32 0xABC) (.lit32 0x804)) user 0xAB
    && gives (.exts 11 (.lit32 0xABC) (.lit32 0x804)) user (0xFFFF_FFFF_FFFF_FFAB) && gives (.clz 11 (.reg 5)) user 61
    && gives (.ctz 11 (.reg 6)) user 64 && gives (.bswap 11 (.reg 5)) user 0x0500_0000_0000_0000) = true := by decide +kernel
/-- R21, R89: 1 + 2^-24 is a tie, which goes to the even 1; upward it is the next number. 1 / 0 is infinite. -/
theorem test_floats : (gives (.fadd 11 (.lit32 0x3F80_0000) (.lit32 0x3380_0000) .rne) user 0x3F80_0000
    && gives (.fadd 11 (.lit32 0x3F80_0000) (.lit32 0x3380_0000) .rup) user 0x3F80_0001
    && gives (.fdiv 11 (.lit32 0x3F80_0000) (.reg 6) .rne) user 0x7F80_0000
    && gives (.fcvti 11 (.lit32 0xBF80_0000) .rne) user (-1) && gives (.feq 11 (.lit32 0x7FC0_0000) (.lit32 0x7FC0_0000)) user 0) = true := by
  decide +kernel
/-- R90, R91, R93: targets count from PC; a counter of 0 wraps; JALR reads its source before it links. -/
theorem test_jumps :
    (ran (.beq (.reg 6) (.reg 0) (-1)) user (fun t => t.core.pc == 0x1000_0000_0000_00FC)
    && ran (.loop 6 2) user (fun t => t.core.x[6] == -1 && t.core.pc == 0x1000_0000_0000_0108)
    && ran (.jalr 1 (.reg 1)) user (fun t => t.core.pc == 0x1000_0000_0000_1000 && t.core.x[1] == 0x1000_0000_0000_0104)
    && traps (.jr (.reg 5)) user 3 5) = true := by decide +kernel
/-- R97: x5 + 57 = 62 is no register of the task. -/
theorem test_relative : (gives (.movx 11 (.reg 5) 2) user (-1) && traps (.movx 11 (.reg 5) 57) user 2 62) = true := by decide +kernel
/-- R111, R112: a store is seen by the core's next load, least significant byte first and extended. -/
theorem test_store_load : (ran (.st (.lit32 0x80FE) (.reg 2) .b2 1) user fun t =>
    gives (.ld 11 (.reg 2) 0 .s8 2) t (-2) && gives (.ld 11 (.reg 2) 0 .z8 3) t 0x80 && gives (.ld 11 (.reg 2) 0 .z16 1) t 0x80FE) = true := by
  decide +kernel
/-- R57, R102, R123: a stream that is unbound raises ILL, though the destination is no register of the task; an
empty one is bound at the end of local memory. -/
theorem test_streams :
    (let s := { user with core := { user.core with rlim := 8 } };
      traps (.movs 11 7) s 1 0 && traps (.sctlSkip 7 (.reg 9)) s 1 0
      && ran (.sbind 7 (.lit64 0x2000_0000_0000_3FF8) (.reg 6) 3) user (fun t => t.core.s[7].map (·.count) == some 0)) = true := by
  decide +kernel
/-- R147: a base or a stride that is no multiple of 16 raises ALIGN before any row is read. -/
theorem test_tile_align : (traps (.tld 0 5 6) user 3 5 && traps (.tld 0 1 5) user 3 0x1000_0000_0000_1005) = true := by
  decide +kernel
/-- R52: a rejected word of another kind keeps its literal; one of the three kinds of R52 has none. -/
theorem test_rejected_words : wordsOf 0x301FC080 = 2 ∧ wordsOf 0 = 1 := by decide
/-- R104: past local memory ADDR, with the first byte that fails. -/
theorem test_load_end : traps (.ld 11 (.lit64 0x2000_0000_0000_3FFC) 0 .b64 0) user 11 0x2000_0000_0000_4000 = true := by
  decide +kernel
/-- R116, R117: an atomic changes its word and returns the old one; a bank adds up 5 and -2. -/
theorem test_atomics : (ran (.amoAdd 11 (.reg 8) (.reg 5) true false false) user
      (fun t => t.core.x[11] == 0 && t.vault.read 0x2000 == 5)
    && gives (.bkopSumS32 11 (.reg 1) (.lit32 2)) words 3) = true := by decide +kernel
/-- R138, R139: lanes outside the mask keep their value; a saturated sum stays at the greatest number. -/
theorem test_vectors :
    (let s := { user with core := { user.core with
        v := (user.core.v.set 1 (Vector.replicate 64 0x7FFF_FFFF#32)).set 2 (Vector.replicate 64 1#32), m := #v[5, 0, 0, 0] } };
      ran (.vadds 3 1 2 (some 0)) s (fun t => t.core.v[3][0] == 0x7FFF_FFFF && t.core.v[3][1] == 0 && t.core.v[3][2] == 0x7FFF_FFFF)
      && ran (.vadd 3 1 2 none) s (fun t => t.core.v[3][63] == 0x8000_0000)
      && ran (.vredSumS32 3 2 none) s (fun t => t.core.v[3][0] == 64 && t.core.v[3][1] == 0)) = true := by decide +kernel
/-- R29, R154: one step of integers on one row and two columns: the row 2, 3, 0, … times the column 5, -1, 0, … is 7. -/
theorem test_matrix :
    (let s := { ints with core := { ints.core with erow := 1, ecol := 2, t := #v[[(0, 2), (1, 3)], [(0, 5), (1, 0xFF)], [], []] } };
      ran (.mma 0 0 1 false true .i8) s (fun t => t.core.c[0].elem 0 == 7 && t.core.c[0].elem 1 == 0)) = true := by decide +kernel
/-- R46, R64, R185: a privileged register from task code raises PRIV; a read-only one cannot be written. -/
theorem test_control : (traps (.csrr 11 0x800) user 10 0 && gives (.csrr 11 0x402) user (62 + 64 * 256)
    && traps (.csrw (.reg 5) 0x400) user 1 0 && ran (.csrw (.reg 7) 0x003) user (fun t => t.core.csrs.qwgt == 15)) = true := by
  decide +kernel
/-- R187, R189: TRAP enters the handler, and ERET there returns; in task code ERET raises PRIV. -/
theorem test_traps : (traps (.trap 5) user 15 5 && traps .eret user 10 0
    && ran .eret { priv with core := { priv.core with epc := 0x1000_0000_0000_2000 } } (fun t => t.core.pc == 0x1000_0000_0000_2000 && !t.core.p)) = true := by
  decide +kernel
/-- R59: REPF captures and runs nothing of its body. -/
theorem test_repf : ran (.repf 3 7 1 4) user (fun t =>
    t.core.frame.cap && t.core.frame.km1 == 3 && t.core.frame.bodyPc == user.core.npc && !t.core.frame.act) = true := by decide +kernel
/-- R171: the last of two arrivals changes the phase and answers the old one. -/
theorem test_barrier : (let s := barred { unit := 0, ctx := 0, num := 1, n := 2, a := 1, p := 7 };
    ran (.barArr 11 (.lit32 1)) s fun t => t.core.x[11] == 7 && (t.barrier 0 0 1).p == 8 && (t.barrier 0 0 1).a == 0) = true := by
  decide +kernel
/-- R165, R179: a trigger counts modulo 2^63; a number that is not granted raises PROT. -/
theorem test_trigger : (ran (.trigAdd (.reg 5) (.reg 7)) { user with triggers := [{ ctx := 0, num := 5, v := 3 }] }
      (fun t => (t.trigger 0 5).v == 2) && traps (.trigAdd (.reg 5) (.reg 7)) bare 4 5) = true := by decide +kernel
/-- R128, R258: the first well of a home has the handle of slot 0 with incarnation 1; without room it is 0. -/
theorem test_wells : (ran (.rnew 11 (.lit32 1)) { user with mmio := user.mmio.writeN 0x0053_0000 1 16 }
      (fun t => t.core.x[11] == 0x100_0000) && gives (.rnew 11 (.lit32 1)) user 0) = true := by decide +kernel
/-- R170: SPAWN puts a task at its dispatcher and counts it. -/
theorem test_spawn : ran (.spawn (.lit32 0x0500_01FF) (.reg 5)) user (fun t =>
    t.queue.map (fun q => (q.wid, q.pri, q.dom)) == [(5, 5, 0)]) = true := by decide +kernel

end Sys2Proof.Tests
end

section
/-! SUPPORT. Byte memories and bytes of numbers, as the host's accesses and the mailbox need them. -/

namespace Sys2Proof.Machine

theorem Memory.readBytes_eq_map (m : Memory) : ∀ n a : Nat,
    m.readBytes a n = (List.range n).map fun i => m.read (a + i)
  | 0, _ => rfl
  | n + 1, a => by
    simp [Memory.readBytes, Memory.readBytes_eq_map m n, List.range_succ_eq_map, Function.comp_def,
      Nat.add_comm, Nat.add_left_comm]

theorem Memory.readN_eq_ofBytes (m : Memory) : ∀ n a : Nat, m.readN a n = ofBytes (m.readBytes a n)
  | 0, _ => rfl
  | n + 1, a => by simp [Memory.readN, Memory.readBytes, ofBytes, Memory.readN_eq_ofBytes m n]

theorem Memory.readN_lt (m : Memory) : ∀ n a : Nat, m.readN a n < 256 ^ n
  | 0, _ => by simp [Memory.readN]
  | n + 1, a => by
    have ih := Memory.readN_lt m n (a + 1)
    have hb : (m.read a).toNat < 256 := (m.read a).isLt
    rw [Memory.readN, Nat.pow_succ]
    omega

theorem Memory.writeN_eq_writeBytes : ∀ (n : Nat) (m : Memory) (a v : Nat),
    m.writeN a n v = m.writeBytes a (bytesOf n v)
  | 0, _, _, _ => rfl
  | n + 1, _, _, _ => Memory.writeN_eq_writeBytes n _ _ _

/-- Only the low bytes of a number are taken. -/
theorem bytesOf_mod : ∀ n v : Nat, bytesOf n (v % 256 ^ n) = bytesOf n v
  | 0, _ => rfl
  | n + 1, v => by
    have hlow : BitVec.ofNat 8 (v % 256 ^ (n + 1)) = BitVec.ofNat 8 v := by
      apply BitVec.eq_of_toNat_eq
      simp only [BitVec.toNat_ofNat]
      exact Nat.mod_mod_of_dvd v ⟨256 ^ n, by rw [Nat.pow_succ, Nat.mul_comm]⟩
    have hhigh : v % 256 ^ (n + 1) / 256 = v / 256 % 256 ^ n := by
      rw [Nat.pow_succ, Nat.mul_comm, Nat.mod_mul_right_div_self]
    rw [bytesOf, bytesOf, hlow, hhigh, bytesOf_mod n]

theorem bytesOf_wrap (n v : Nat) : bytesOf n (v % 2 ^ (8 * n)) = bytesOf n v := by
  rw [Nat.pow_mul]
  exact bytesOf_mod n v

theorem Memory.writeN_mod (m : Memory) (a n v : Nat) : m.writeN a n (v % 256 ^ n) = m.writeN a n v := by
  rw [Memory.writeN_eq_writeBytes, Memory.writeN_eq_writeBytes, bytesOf_mod]

/-- No listed byte stands at an address that is cleared. -/
theorem Memory.read_clear (m : Memory) {a n b : Nat} (lo : a ≤ b) (hi : b < a + n) :
    (m.clear a n).read b = 0 := by
  induction m with
  | nil => rfl
  | cons c t ih =>
    simp only [Memory.clear, List.filter_cons] at ih ⊢
    split
    · rename_i hc
      have : c.1 ≠ b := by rintro rfl; simp [lo, hi] at hc
      rw [Memory.read_cons, if_neg this, ih]
    · exact ih

/-- The bits of a number below a power of two that is not exceeded are all of it. -/
theorem land_low {v k : Nat} (h : v < 2 ^ k) : Nat.land v (2 ^ k - 1) = v :=
  (Nat.and_two_pow_sub_one_eq_mod v k).trans (Nat.mod_eq_of_lt h)

end Sys2Proof.Machine
end

section
/-! SUPPORT. The host's accesses: what waits, what is read and written without poison, and what a write
of one register of space 4 does. -/

namespace Sys2Proof.Machine

/-! ### The arms of the steps -/

theorem exec_hostWindowRead (f off n : Nat) (s : State) :
    exec (.hostWindowRead f off n) s = execHostWindowRead f off n s := rfl
theorem exec_hostWindowWrite (f off n v : Nat) (s : State) :
    exec (.hostWindowWrite f off n v) s = execHostWindowWrite f off n v s := rfl
theorem exec_hostAtomic (f off op : Nat) (w : Bool) (v e : Nat) (s : State) :
    exec (.hostAtomic f off op w v e) s = execHostAtomic f off op w v e s := rfl
theorem exec_space4RegisterWrite (off n v : Nat) (s : State) :
    exec (.space4RegisterWrite off n v) s = execSpace4RegisterWrite off n v s := rfl
theorem exec_erdropRead (s : State) : exec .erdropRead s = execErdropRead s := rfl

/-! ### Waiting (R326) -/

theorem behindHost_iff (s : State) (f : Nat) :
    s.behindHost f = true ↔ s.frozen.contains (3, 20) = true ∨ ∃ i ∈ s.later, s.hostFunc i = some f := by
  simp [State.behindHost, State.hostHeld]

/-! ### Reading and writing without poison -/

theorem poisonedAt_of_clean {s : State} (h : s.poison = []) (l : Nat) (x : Home) : s.poisonedAt l x = false := by
  cases x <;> simp only [State.poisonedAt, Home.part, h] <;> simp
  split <;> simp
  intro _
  cases windowPlace _ _ <;> simp

theorem poisonHit_of_clean {s : State} (h : s.poison = []) (sb : List SbEntry) (x : Home) (n : Nat) :
    s.poisonHit sb x n = none := by simp [State.poisonHit, h]

theorem engineRead_of_clean {s : State} (h : s.poison = []) (l : Nat) (x : Home) (n : Nat) :
    s.engineRead l [(x, n)] = ((List.range n).map fun i => s.homeByte l (x.plus i), []) := by
  simp only [State.engineRead, List.map_cons, List.map_nil, List.flatten_cons, List.flatten_nil, List.append_nil,
    List.map_map, Function.comp_def, Prod.mk.injEq, true_and, List.filter_eq_nil_iff]
  intro i _
  cases ((List.range n).map x.plus)[i]? <;> simp [poisonedAt_of_clean h]

theorem engineRead_hbm {s : State} (h : s.poison = []) (l pa n : Nat) :
    s.engineRead l [(.hbm pa, n)] = (s.hbm.readBytes pa n, []) := by
  rw [engineRead_of_clean h, Memory.readBytes_eq_map]
  rfl

theorem engineRead_mmio {s : State} (h : s.poison = []) (l off n : Nat) :
    s.engineRead l [(.mmio off, n)] = ((List.range n).map fun i => s.mmioByte (off + i), []) :=
  engineRead_of_clean h l _ n

theorem engineWrite_hbm (s : State) (c pa n v : Nat) :
    s.engineWrite c [(.hbm pa, n)] (bytesOf n v) [] = s.storeHome (.hbm pa) (bytesOf n v) := by
  have : (bytesOf n v).take n = bytesOf n v := by simp [bytesOf_length]
  simp [State.engineWrite, State.engineStore, State.taint, this]

theorem hostBytes_clean (s : State) (f a : Nat) (bs : List Byte) :
    s.hostBytes f a (bs, []) = s.tellHost (.completion f bs false) := rfl

/-- R116: at HBM the old word is what stands there, and the new one is stored. -/
theorem amoHome_hbm (s : State) (pa op n b e : Nat) :
    s.amoHome (.hbm pa) op n b e =
      (s.hbm.readN pa n, s.storeHome (.hbm pa) (bytesOf n (amoOp op n (s.hbm.readN pa n) b e))) := by
  have : ofBytes ((List.range n).map fun i => s.homeByte (layerOf s.core.num) ((Home.hbm pa).plus i))
      = s.hbm.readN pa n := by
    rw [Memory.readN_eq_ofBytes, Memory.readBytes_eq_map]
    rfl
  simp only [State.amoHome, this]

/-! ### The outcomes of a host access (R325, R326, R363) -/

section
variable {s : State} {f : Nat}

theorem hostReach_closed (h : s.window f = none) (off n : Nat) (ks : List Kind) :
    s.hostReach f off n ks = .denied 0 := by simp [State.hostReach, h]

theorem hostWindowRead_waits (hf : f < 64) (hb : s.behindHost f = true) (off n : Nat) :
    exec (.hostWindowRead f off n) s = .next { s with later := s.later ++ [.hostWindowRead f off n] } := by
  have : f ≠ bar2 := by unfold bar2; omega
  simp [exec_hostWindowRead, execHostWindowRead, this, hb, State.holdHost]

theorem hostWindowWrite_waits (hb : s.behindHost f = true) (off n v : Nat) :
    exec (.hostWindowWrite f off n v) s = .next { s with later := s.later ++ [.hostWindowWrite f off n v] } := by
  simp [exec_hostWindowWrite, execHostWindowWrite, hb, State.holdHost]

theorem hostAtomic_waits (hb : s.behindHost f = true) (off op : Nat) (w : Bool) (v e : Nat) :
    exec (.hostAtomic f off op w v e) s = .next { s with later := s.later ++ [.hostAtomic f off op w v e] } := by
  simp [exec_hostAtomic, execHostAtomic, hb, State.holdHost]

theorem hostWindowRead_frozen (hf : f < 64) (hb : s.behindHost f = false) (hz : s.frozen.contains (4, f) = true)
    (off n : Nat) : exec (.hostWindowRead f off n) s = .next (s.tellHost (.completerAbort f)) := by
  have : f ≠ bar2 := by unfold bar2; omega
  simp only [exec_hostWindowRead, execHostWindowRead, this, hb, hz, if_true, if_false, Bool.false_eq_true]

theorem hostWindowWrite_frozen (hb : s.behindHost f = false) (hz : s.frozen.contains (4, f) = true)
    (off n v : Nat) : exec (.hostWindowWrite f off n v) s = .next s := by
  simp only [exec_hostWindowWrite, execHostWindowWrite, hb, hz, if_true, if_false, Bool.false_eq_true]

theorem hostAtomic_frozen (hb : s.behindHost f = false) (hz : s.frozen.contains (4, f) = true)
    (off op : Nat) (w : Bool) (v e : Nat) :
    exec (.hostAtomic f off op w v e) s = .next (s.tellHost (.completerAbort f)) := by
  simp only [exec_hostAtomic, execHostAtomic, hb, hz, if_true, if_false, Bool.false_eq_true]

variable (hb : s.behindHost f = false) (hz : s.frozen.contains (4, f) = false)
include hb hz

theorem hostWindowRead_ok (hf : f < 64) {off n : Nat} {segs : List (Home × Nat)}
    (hr : s.hostReach f off n [.load] = .ok segs) :
    exec (.hostWindowRead f off n) s = .next ((s.markPages none (s.hostAsid f) (s.hostVa f off) n false).hostBytes f
        (s.hostVa f off).toNat (s.engineRead 0 segs)) := by
  have : f ≠ bar2 := by unfold bar2; omega
  simp only [exec_hostWindowRead, execHostWindowRead, this, hb, hz, hr, if_false, Bool.false_eq_true]

theorem hostWindowRead_moving (hf : f < 64) {off n : Nat} (hr : s.hostReach f off n [.load] = .moving) :
    exec (.hostWindowRead f off n) s = .next { s with later := s.later ++ [.hostWindowRead f off n] } := by
  have : f ≠ bar2 := by unfold bar2; omega
  simp only [exec_hostWindowRead, execHostWindowRead, this, hb, hz, hr, if_false, Bool.false_eq_true, State.holdHost]

theorem hostWindowRead_denied (hf : f < 64) {off n i : Nat} (hr : s.hostReach f off n [.load] = .denied i) :
    exec (.hostWindowRead f off n) s = .next ((s.hostRefuse f off (.denied i)).tellHost (.completerAbort f)) := by
  have : f ≠ bar2 := by unfold bar2; omega
  simp only [exec_hostWindowRead, execHostWindowRead, this, hb, hz, hr, if_false, Bool.false_eq_true]

theorem hostWindowWrite_ok {off n v : Nat} {segs : List (Home × Nat)} (hr : s.hostReach f off n [.store] = .ok segs) :
    exec (.hostWindowWrite f off n v) s = .next
      ((s.markPages none (s.hostAsid f) (s.hostVa f off) n true).engineWrite 0 segs (bytesOf n v) []) := by
  simp only [exec_hostWindowWrite, execHostWindowWrite, hb, hz, hr, if_false, Bool.false_eq_true]

theorem hostWindowWrite_moving {off n v : Nat} (hr : s.hostReach f off n [.store] = .moving) :
    exec (.hostWindowWrite f off n v) s = .next { s with later := s.later ++ [.hostWindowWrite f off n v] } := by
  simp only [exec_hostWindowWrite, execHostWindowWrite, hb, hz, hr, if_false, Bool.false_eq_true, State.holdHost]

theorem hostWindowWrite_denied {off n v i : Nat} (hr : s.hostReach f off n [.store] = .denied i) :
    exec (.hostWindowWrite f off n v) s = .next (s.hostRefuse f off (.denied i)) := by
  simp only [exec_hostWindowWrite, execHostWindowWrite, hb, hz, hr, if_false, Bool.false_eq_true]

/-- R326: FetchAdd, Swap and CAS are the members 1, 0 and 9 of AMO (R116). -/
theorem hostAtomic_hbm {off pa : Nat} {w : Bool} (hp : s.poison = []) (op v e : Nat)
    (hr : s.hostReach f off (if w then 8 else 4) [.load, .store] = .ok [(.hbm pa, if w then 8 else 4)]) :
    let n := if w then 8 else 4
    let u := s.markPages none (s.hostAsid f) (s.hostVa f off) n true
    let old := u.hbm.readN pa n
    exec (.hostAtomic f off op w v e) s = .next ((u.storeHome (.hbm pa) (bytesOf n
      (amoOp (if op = 0 then 1 else if op = 1 then 0 else 9) n old (v % 2 ^ (8 * n)) (e % 2 ^ (8 * n))))).tellHost
        (.completion f (bytesOf n old) false)) := by
  simp only [exec_hostAtomic, execHostAtomic, hb, hz, hr, if_false, Bool.false_eq_true, poisonHit_of_clean hp,
    amoHome_hbm]

theorem hostAtomic_denied {off i : Nat} {w : Bool} (op v e : Nat)
    (hr : s.hostReach f off (if w then 8 else 4) [.load, .store] = .denied i) :
    exec (.hostAtomic f off op w v e) s = .next ((s.hostRefuse f off (.denied i)).tellHost (.completerAbort f)) := by
  simp only [exec_hostAtomic, execHostAtomic, hb, hz, hr, if_false, Bool.false_eq_true]

end

end Sys2Proof.Machine

namespace Sys2Proof.Claims

open Sys2Proof.Machine

/-- Each clause is one outcome of a host access. -/
theorem hostAccesses : HostAccesses := by
  intro s f off n v e pa read write atomic open_ marked waits behind hf
  have hbehind : behind ↔ s.behindHost f = true := (behindHost_iff s f).symm
  have hfree : ¬behind → s.behindHost f = false := fun h => by simpa using fun hb => h (hbehind.2 hb)
  refine ⟨fun h hz => ?_, fun h hz => ?_, fun h => ?_⟩
  · have hb := hfree h
    refine ⟨?read, ?write, ?atomic, ?closed, ?readMoving, ?writeMoving⟩
    case read =>
      rintro ⟨hr, hp⟩
      have := hostWindowRead_ok hb hz hf hr
      rw [engineRead_hbm hp, hostBytes_clean] at this
      exact this
    case write =>
      rintro ⟨hr, -⟩
      have := hostWindowWrite_ok hb hz (v := v) hr
      rw [engineWrite_hbm] at this
      exact this
    case atomic =>
      rintro wide m ⟨hr, hp⟩ old w does
      have hx (op : Nat) := hostAtomic_hbm hb hz hp op v e hr
      refine ⟨?add, ?swap, ?cas⟩
      case add =>
        have := hx 0
        simp only [if_true, amoOp, bytesOf_wrap] at this
        exact this
      case swap => exact hx 1
      case cas => exact hx 2
    case closed =>
      intro hw
      exact ⟨hostWindowRead_denied hb hz hf (hostReach_closed hw ..),
        hostWindowWrite_denied hb hz (hostReach_closed hw ..),
        fun op wide => hostAtomic_denied hb hz op v e (hostReach_closed hw ..)⟩
    case readMoving => exact hostWindowRead_moving hb hz hf
    case writeMoving => exact hostWindowWrite_moving hb hz
  · have hb := hfree h
    exact ⟨hostWindowRead_frozen hf hb hz off n, hostWindowWrite_frozen hb hz off n v,
      fun op wide => hostAtomic_frozen hb hz off op wide v e⟩
  · have hb := hbehind.1 h
    exact ⟨hostWindowRead_waits hf hb off n, hostWindowWrite_waits hb off n v,
      fun op wide => hostAtomic_waits hb off op wide v e⟩

end Sys2Proof.Claims
end

section
/-! SUPPORT. Function 0's window of space 4: a whole register is written, and ERDROP is read (R325, R360, R384). -/

namespace Sys2Proof.Machine

/-! ### A write of one register of 8 bytes -/

theorem windowAt_low {r : Nat} (h : r < 0x2000_0000) : windowAt r = none := by
  simp only [windowAt, ite_eq_right_iff, Bool.and_eq_true, decide_eq_true_eq]
  omega

theorem merged_whole (s : State) (r v : Nat) : s.merged r r (bytesOf 8 v) = v % 2 ^ 64 := by
  have : ((List.range 8).map fun i => if r ≤ r + i && r + i < r + (bytesOf 8 v).length then
      (bytesOf 8 v).getD (r + i - r) 0 else s.mmioByte (r + i)) = bytesOf 8 v := by
    simp [List.range_succ, bytesOf]
  rw [State.merged, this, ofBytes_bytesOf, show 256 ^ 8 = 2 ^ 64 by norm_num]

theorem with_poison_nil {s : State} (h : s.poison = []) (x : Home) (n : Nat) :
    ({ s with poison := clearPoison s.poison x n } : State) = s := by
  rw [h]
  obtain ⟨c⟩ := s
  simp only at h
  subst h
  rfl

theorem mmioWrite_reg {s : State} {r : Nat} (hrel : s.released = true) (hp : s.poison = []) (hr : r < 0x2000_0000)
    (h8 : r % 8 = 0) (v : Nat) : s.mmioWrite r (bytesOf 8 v) = s.regWrite r (v % 2 ^ 64) := by
  have hcount : (r + 8 - 1) / 8 - r / 8 + 1 = 1 := by omega
  have hreg : 8 * (r / 8) = r := by omega
  have hsome : (bytesOf 8 v).isEmpty = false := rfl
  rw [State.mmioWrite, if_neg (by simp [hrel]), windowAt_low hr]
  simp only [with_poison_nil hp, bytesOf_length, hcount, hsome]
  simp [hreg, merged_whole]

/-- No register above the page tables' and the contexts' does anything of its own, but for the counters of
corrected errors, WAREA and SPCMD. -/
theorem regWrite_plain {r : Nat} (s : State) (v : Nat) (hlo : 0x0040_0000 ≤ r)
    (hcec : r < 0x0051_0000 ∨ 0x0051_0068 ≤ r) (hwarea : r < 0x0053_0000 ∨ 0x0053_1800 ≤ r) (hcmd : r ≠ 0x0060_0000) :
    s.regWrite r v = s.plainWrite r v := by
  have hctx : ¬r < 0x0014_0000 := by omega
  rw [State.regWrite, if_neg (by omega), if_neg (by omega), if_neg (by simp [hctx]),
    if_neg (by simp; omega), if_neg (by simp; omega), if_neg hcmd]

theorem regWrite_cec {l : Nat} (h : l < 13) (s : State) (v : Nat) :
    s.regWrite (0x0051_0000 + 8 * l) v = { s with mmio := s.mmio.clear (0x0051_0000 + 8 * l) 8 } := by
  have hl : (0x0051_0000 + 8 * l - 0x0051_0000) / 8 = l := by omega
  rw [State.regWrite, if_neg (by omega), if_neg (by omega), if_neg (by simp; omega), if_pos (by simp; omega),
    hl, execCecClear, if_pos (by omega)]
  rfl

theorem plainWrite_closed {s : State} {r : Nat} (v : Nat) (h : plainMask r = 0) : s.plainWrite r v = s := by
  simp [State.plainWrite, h]

/-- A register whose 64 bits can all be written takes what is written. -/
theorem plainWrite_open {s : State} {r : Nat} (v : Nat) (hm : plainMask r = 2 ^ 64 - 1) (hr : 0x0040_1000 ≤ r) :
    s.plainWrite r (v % 2 ^ 64) = { s with mmio := s.mmio.writeN r 8 v } := by
  have hold : s.mmio.readN r 8 < 2 ^ 64 := Memory.readN_lt s.mmio 8 r
  have hv : v % 2 ^ 64 < 2 ^ 64 := Nat.mod_lt _ (by norm_num)
  have hlock : s.regLocked r = false := by
    rw [State.regLocked, if_neg (by simp; omega), if_neg (by simp; omega)]
  have hval : plainValue r (s.mmio.readN r 8) (v % 2 ^ 64) = v % 2 ^ 64 := by
    rw [plainValue, hm, land_low hv, land_low hold, Nat.sub_self]
    simp only [show ∀ x, Nat.lor x 0 = x from Nat.or_zero]
    rw [if_neg (by simp; omega)]
  rw [State.plainWrite, if_neg (by simp [hm, hlock]), hval, if_neg (by simp; omega)]
  congr 1
  exact Memory.writeN_mod s.mmio r 8 v

theorem plainMask_sparg {i : Nat} (h : i < 512) : plainMask (0x0060_1000 + 8 * i) = 2 ^ 64 - 1 := by
  rw [plainMask]
  iterate 7 rw [if_neg (by simp; omega)]
  iterate 4 rw [if_neg (by omega)]
  rw [if_pos (by simp; omega)]

theorem plainMask_route {p : Nat} (h : p < 1024) : plainMask (0x0042_0000 + 2 * p) = 2 ^ 64 - 1 := by
  rw [plainMask]
  iterate 6 rw [if_neg (by simp; omega)]
  rw [if_pos (by simp; omega)]

/-! ### The window of function 0 -/

section
variable {s : State}

theorem space4RegisterWrite_waits (hb : s.behindHost 0 = true) (off n v : Nat) :
    exec (.space4RegisterWrite off n v) s = .next { s with later := s.later ++ [.space4RegisterWrite off n v] } := by
  simp [exec_space4RegisterWrite, execSpace4RegisterWrite, hb, State.holdHost]

theorem erdropRead_waits (hb : s.behindHost 0 = true) :
    exec .erdropRead s = .next { s with later := s.later ++ [.erdropRead] } := by
  simp [exec_erdropRead, execErdropRead, hb, State.holdHost]

theorem space4RegisterWrite_frozen (hb : s.behindHost 0 = false) (hz : s.frozen.contains (4, 0) = true)
    (off n v : Nat) : exec (.space4RegisterWrite off n v) s = .next s := by
  simp only [exec_space4RegisterWrite, execSpace4RegisterWrite, hb, hz, if_true, if_false, Bool.false_eq_true]

theorem erdropRead_frozen (hb : s.behindHost 0 = false) (hz : s.frozen.contains (4, 0) = true) :
    exec .erdropRead s = .next (s.tellHost (.completerAbort 0)) := by
  simp only [exec_erdropRead, execErdropRead, State.bar2Read, hb, hz, if_true, if_false, Bool.false_eq_true]

variable (hz : s.frozen.contains (4, 0) = false)
include hz

theorem bar2Read_clean (hp : s.poison = []) (off n : Nat) :
    s.bar2Read off n = (s.loaded [(.mmio off, n)]).tellHost
      (.completion 0 ((List.range n).map fun i => s.mmioByte (off + i)) false) := by
  simp only [State.bar2Read, hz, engineRead_mmio hp, hostBytes_clean, if_false, Bool.false_eq_true]

variable (hb : s.behindHost 0 = false)
include hb

theorem space4RegisterWrite_runs (off n v : Nat) :
    exec (.space4RegisterWrite off n v) s = .next (s.mmioWrite off (bytesOf n v)) := by
  simp only [exec_space4RegisterWrite, execSpace4RegisterWrite, hb, hz, if_false, Bool.false_eq_true]

theorem space4RegisterWrite_reg (hrel : s.released = true) (hp : s.poison = []) {r : Nat} (hr : r < 0x2000_0000)
    (h8 : r % 8 = 0) (v : Nat) :
    exec (.space4RegisterWrite r 8 v) s = .next (s.regWrite r (v % 2 ^ 64)) := by
  rw [space4RegisterWrite_runs hz hb, mmioWrite_reg hrel hp hr h8]

theorem hostWindowRead_bar2 (hp : s.poison = []) (off n : Nat) :
    exec (.hostWindowRead 64 off n) s = .next ((s.loaded [(.mmio off, n)]).tellHost
      (.completion 0 ((List.range n).map fun i => s.mmioByte (off + i)) false)) := by
  have : (if 64 = bar2 then 0 else 64) = 0 := rfl
  rw [exec_hostWindowRead, execHostWindowRead, this, hb, ← bar2Read_clean hz hp]
  rfl

theorem erdropRead_runs (hrel : s.released = true) (hp : s.poison = []) :
    exec .erdropRead s = .next { s with
      out := s.out ++ [.completion 0 (s.mmio.readBytes 0x0050_0018 8) false]
      mmio := s.mmio.clear 0x0050_0018 8 } := by
  have hbytes : ((List.range 8).map fun i => s.mmioByte (0x0050_0018 + i)) = s.mmio.readBytes 0x0050_0018 8 := by
    rw [Memory.readBytes_eq_map]
    refine List.map_congr_left fun i hi => ?_
    have hi : i < 8 := List.mem_range.1 hi
    simp only [State.mmioByte, hrel, windowAt_low (show 0x0050_0018 + i < 0x2000_0000 by omega)]
    rw [if_neg (by simp; omega), if_neg (by simp), if_neg (by simp; omega), if_neg (by simp; omega),
      if_neg (by simp; omega)]
  have hloaded : s.loaded [(.mmio 0x0050_0018, 8)] = { s with mmio := s.mmio.clear 0x0050_0018 8 } := rfl
  rw [exec_erdropRead, execErdropRead, hb, bar2Read_clean hz hp, hbytes, hloaded]
  rfl

end

/-- R384: only a read of ERDROP changes anything. -/
theorem loaded_elsewhere (s : State) {off n : Nat} (h : off + n ≤ 0x0050_0018 ∨ 0x0050_0020 ≤ off) :
    s.loaded [(.mmio off, n)] = s := by
  have : firstCommon off n 0x0050_0018 8 = none := by
    simp only [firstCommon, ite_eq_right_iff, Nat.max_def, Nat.min_def]
    split <;> split <;> omega
  simp [State.loaded, this]

theorem spCommand_taken {s : State} (h : s.sp.st ≠ 1) {v : Nat} (lo : 1 ≤ v % 256) (hi : v % 256 ≤ 6) :
    s.spCommand v = { s with sp := { st := 1, cmd := v % 256 } } := by
  simp [State.spCommand, h, lo, hi]

end Sys2Proof.Machine

namespace Sys2Proof.Claims

open Sys2Proof.Machine

/-- Waiting, frozen, or what one register does. -/
theorem controlWindow : ControlWindow := by
  intro s hrel hp write behind waits
  have hbehind : behind ↔ s.behindHost 0 = true := (behindHost_iff s 0).symm
  have hfree : ¬behind → s.behindHost 0 = false := fun h => by simpa using fun hb => h (hbehind.2 hb)
  refine ⟨fun h => ?_, fun h hz => ?_, fun h hz => ?_⟩
  · have hb := hbehind.1 h
    exact ⟨fun off v => space4RegisterWrite_waits hb off 8 v, erdropRead_waits hb⟩
  · have hb := hfree h
    exact ⟨fun off v => space4RegisterWrite_frozen hb hz off 8 v, erdropRead_frozen hb hz⟩
  · have hb := hfree h
    have hreg {r : Nat} (hr : r < 0x2000_0000) (h8 : r % 8 = 0) (v : Nat) :
        write r v = .next (s.regWrite r (v % 2 ^ 64)) := space4RegisterWrite_reg hz hb hrel hp hr h8 v
    have hlow (v : Nat) : v % 2 ^ 64 % 256 = v % 256 := by omega
    have hcmd (v : Nat) : write 0x0060_0000 v = .next (s.spCommand (v % 2 ^ 64)) := hreg (by norm_num) rfl v
    refine ⟨hostWindowRead_bar2 hz hb hp, fun off n => loaded_elsewhere s, fun i v hi => ?sparg,
      fun p hi v h4 => ?route, fun v => ⟨?ert, ?reserved⟩, fun v hst lo hi => ?command, fun v hst => ?busy,
      fun l v hl => ?cec, erdropRead_runs hz hb hrel hp⟩
    case sparg =>
      rw [hreg (by omega) (by omega), regWrite_plain s _ (by omega) (by omega) (by omega) (by omega),
        plainWrite_open v (plainMask_sparg hi) (by omega)]
    case route =>
      rw [hreg (by omega) (by omega), regWrite_plain s _ (by omega) (by omega) (by omega) (by omega),
        plainWrite_open v (plainMask_route hi) (by omega)]
    case ert =>
      rw [hreg (by norm_num) rfl, regWrite_plain s _ (by omega) (by omega) (by omega) (by omega),
        plainWrite_closed _ rfl]
    case reserved =>
      rw [hreg (by norm_num) rfl, regWrite_plain s _ (by omega) (by omega) (by omega) (by omega),
        plainWrite_closed _ rfl]
    case command =>
      rw [hcmd, spCommand_taken hst (by omega) (by omega), hlow]
    case busy => rw [hcmd, State.spCommand, if_pos hst]
    case cec => rw [hreg (by omega) (by omega), regWrite_cec hl]

end Sys2Proof.Claims

/-- Settles O40: the outcomes of a host access, and what a register of space 4 does that function 0 writes
or reads. -/
theorem hostWindow : Obligations.HostWindow :=
  ⟨Sys2Proof.Claims.hostAccesses, Sys2Proof.Claims.controlWindow⟩
end

section
/-! SUPPORT. The mailbox's commands and the reset of the package (R370-R372, R375, R382). -/

namespace Sys2Proof.Machine

theorem exec_quote (s : State) : exec .quote s = execQuote s := rfl
theorem exec_extend (s : State) : exec .extend s = execExtend s := rfl
theorem exec_policy (s : State) : exec .policy s = execPolicy s := rfl
theorem exec_frames (s : State) : exec .frames s = execFrames s := rfl
theorem exec_revoke (s : State) : exec .revoke s = execRevoke s := rfl
theorem exec_report (s : State) : exec .report s = execReport s := rfl
theorem exec_packageReset (s : State) : exec .packageReset s = execPackageReset s := rfl

/-! ### The mailbox -/

theorem spBusy_iff (s : State) (k : Nat) : s.spBusy k = true ↔ s.sp.st = 1 ∧ s.sp.cmd = k := by
  simp [State.spBusy]

/-- A refusal changes SPST and draws a reason. -/
theorem refuses_of {s : State} {o : Out} (h : o = .next s.spRefuse) : ∃ u, o = .next u ∧ u.sp.st = 3
    ∧ ({ u with sp := s.sp, free := s.free } : State) = s := ⟨_, h, rfl, rfl⟩

section
variable {s : State}

theorem exec_quote_busy (h : s.spBusy 1 = true) : exec .quote s = .next (s.spDone (s.quote (s.arg 0 32))) := by
  rw [exec_quote, execQuote, if_pos h]

theorem exec_report_busy (h : s.spBusy 6 = true) : exec .report s = .next (s.spDone
    (Config.evidence (s.failing.map placeNums) ++ s.sign (Config.evidence (s.failing.map placeNums)))) := by
  simp only [exec_report, execReport, h, if_true]

theorem exec_extend_refused (h : s.spBusy 2 = true) (bad : s.argN 0 1 < 2 ∨ 7 < s.argN 0 1 ∨ 4000 < s.argN 1 2) :
    exec .extend s = .next s.spRefuse := by
  have : (s.argN 0 1 < 2 || 7 < s.argN 0 1 || 4000 < s.argN 1 2) = true := by simpa [or_assoc] using bad
  simp only [exec_extend, execExtend, h, this, if_true, Bool.not_true, if_false, Bool.false_eq_true]

theorem exec_extend_done (h : s.spBusy 2 = true) (lo : 2 ≤ s.argN 0 1) (hi : s.argN 0 1 ≤ 7) (hn : s.argN 1 2 ≤ 4000) :
    exec .extend s = .next (({ s with
      measures := s.measures.set (s.argN 0 1)
        (shake256 (s.measures.getD (s.argN 0 1) [] ++ s.arg 3 (s.argN 1 2)) 64) } : State).spDone []) := by
  have : ¬(s.argN 0 1 < 2 || 7 < s.argN 0 1 || 4000 < s.argN 1 2) = true := by simp; omega
  simp only [exec_extend, execExtend, h, this, Bool.not_true, if_false, Bool.false_eq_true]

/-- A command of the mailbox acts only where it is the one that the processor works on. -/
theorem exec_command_idle {i : Instr} {k : Nat}
    (hi : (i, k) ∈ [(Instr.quote, 1), (.extend, 2), (.policy, 3), (.frames, 4), (.revoke, 5), (.report, 6)])
    (h : s.spBusy k = false) : exec i s = .next s := by
  simp only [List.mem_cons, Prod.mk.injEq, List.not_mem_nil, or_false] at hi
  rcases hi with ⟨rfl, rfl⟩ | ⟨rfl, rfl⟩ | ⟨rfl, rfl⟩ | ⟨rfl, rfl⟩ | ⟨rfl, rfl⟩ | ⟨rfl, rfl⟩
  · simp [exec_quote, execQuote, h]
  · simp [exec_extend, execExtend, h]
  · simp [exec_policy, execPolicy, h]
  · simp [exec_frames, execFrames, h]
  · simp [exec_revoke, execRevoke, h]
  · simp [exec_report, execReport, h]

/-! ### One frame of an enclave (R375) -/

theorem frameArgs_one (h : s.argN 16 8 = 1) : s.frameArgs = [s.argN 24 8] := by
  simp [State.frameArgs, h]

/-- The enclave is here, and the frame reference names a frame. -/
def State.frameKnown (s : State) (id f : Nat) : Prop :=
  (∃ e ∈ s.enclaves, e.id = id) ∧ f < 2 ^ 24 ∧ f % 2 ^ 20 < framesOf (f / 2 ^ 20)

variable (h : s.spBusy 4 = true) (one : s.argN 16 8 = 1)
include h one

theorem exec_frames_refused (bad : ¬s.frameKnown (s.argN 0 8) (s.argN 24 8) ∨ 1 < s.argN 8 8) :
    exec .frames s = .next s.spRefuse := by
  rw [exec_frames, execFrames]
  simp only [h, one, frameArgs_one one, Bool.not_true, Bool.false_eq_true, if_false]
  split
  · rfl
  · rename_i hok
    obtain ⟨hflag, henc⟩ : s.argN 8 8 ≤ 1 ∧ ∃ e ∈ s.enclaves, e.id = s.argN 0 8 := by simpa using hok
    have hframe : ¬(s.argN 24 8 < 2 ^ 24 ∧ s.argN 24 8 % 2 ^ 20 < framesOf (s.argN 24 8 / 2 ^ 20)) := fun hf =>
      bad.elim (fun hk => hk ⟨henc, hf⟩) (by omega)
    rw [if_pos (by simp at hframe ⊢; omega)]

theorem exec_frames_added (known : s.frameKnown (s.argN 0 8) (s.argN 24 8)) (add : s.argN 8 8 = 0) :
    exec .frames s = .next (({ s with
      frames := (s.frames ++ [(s.argN 0 8, s.argN 24 8)]).eraseDups } : State).spDone []) := by
  obtain ⟨he, hlt, hin⟩ := known
  rw [exec_frames, execFrames]
  simp only [h, one, frameArgs_one one, add]
  rw [if_neg (by simp), if_neg (by simpa using he), if_neg (by simp at hin ⊢; omega)]
  rfl

theorem exec_frames_removed (known : s.frameKnown (s.argN 0 8) (s.argN 24 8)) (del : s.argN 8 8 = 1)
    (mem : (s.argN 0 8, s.argN 24 8) ∈ s.frames) :
    exec .frames s = .next ((({ s with frames := s.frames.filter fun x =>
      !(x.1 == s.argN 0 8 && [s.argN 24 8].contains x.2) } : State).zeroFrame (s.argN 24 8)).spDone []) := by
  obtain ⟨he, hlt, hin⟩ := known
  have hgone : ([s.argN 24 8].filter fun f => s.frames.contains (s.argN 0 8, f)) = [s.argN 24 8] := by simp [mem]
  rw [exec_frames, execFrames]
  simp only [h, one, frameArgs_one one, del, hgone]
  rw [if_neg (by simp), if_neg (by simpa using he), if_neg (by simp at hin ⊢; omega)]
  rfl

end

/-! ### Reset (R382) -/

theorem exec_packageReset_running {s : State} (h : s.released = true) :
    exec .packageReset s = .next (({ s with image := [], record := [] } : State).inReset {} []) := by
  rw [exec_packageReset, execPackageReset, if_pos h]

section
variable {s : State} (h : s.released = false)
include h

theorem exec_packageReset_badImage (hi : Config.imageOk s.image = false) :
    exec .packageReset s = .next (s.stayReset 1 []) := by
  rw [exec_packageReset, execPackageReset, if_neg (by simp [h]), if_pos (by simp [hi])]

theorem exec_packageReset_badRecord (hi : Config.imageOk s.image = true) (hr : recordOk s.image s.record = false) :
    exec .packageReset s = .next (s.stayReset 2 [s.m0]) := by
  rw [exec_packageReset, execPackageReset, if_neg (by simp [h]), if_neg (by simp [hi]), if_pos (by simp [hr])]

theorem exec_packageReset_badIdentity (hi : Config.imageOk s.image = true) (hr : recordOk s.image s.record = true)
    (hd : identityOk s.record = false) : exec .packageReset s = .next (s.stayReset 3 [s.m0, s.m1]) := by
  rw [exec_packageReset, execPackageReset, if_neg (by simp [h]), if_neg (by simp [hi]), if_neg (by simp [hr]),
    if_pos (by simp [hd])]

theorem exec_packageReset_verified (hi : Config.imageOk s.image = true) (hr : recordOk s.image s.record = true)
    (hd : identityOk s.record = true) : exec .packageReset s = .next s.releasePackage := by
  rw [exec_packageReset, execPackageReset, if_neg (by simp [h]), if_neg (by simp [hi]), if_neg (by simp [hr]),
    if_neg (by simp [hd])]

/-- One byte that the host writes in reset. -/
theorem space4RegisterWrite_boot (hb : s.behindHost 0 = false) (hz : s.frozen.contains (4, 0) = false) (off v : Nat) :
    exec (.space4RegisterWrite off 1 v) s = .next (s.bootWrite off [BitVec.ofNat 8 v]) := by
  rw [space4RegisterWrite_runs hz hb, State.mmioWrite, if_pos (by simp [h])]
  rfl

end

theorem setByte_inside {l : List Byte} {i : Nat} (h : i < l.length) (b : Byte) : setByte l i b = l.set i b := by
  rw [setByte, if_pos h]

theorem bootWrite_image {s : State} {off i : Nat} (hi : Config.bootPlace off = some (false, i))
    (lt : i < s.image.length) (b : Byte) : s.bootWrite off [b] = { s with image := s.image.set i b } := by
  simp [State.bootWrite, hi, setByte_inside lt]

theorem bootWrite_record {s : State} {off i : Nat} (hi : Config.bootPlace off = some (true, i))
    (lt : i < s.record.length) (b : Byte) : s.bootWrite off [b] = { s with record := s.record.set i b } := by
  simp [State.bootWrite, hi, setByte_inside lt]

theorem bits_one_eq_testBit (w l : Nat) : (bits w l 1 == 1) = w.testBit l := by
  rw [Nat.testBit_eq_decide_div_mod_eq]
  rfl

theorem retireSlots_get (ret : Nat) (m : Vector (BitVec 4) 64) (k : Fin 64) :
    (retireSlots ret m)[k] = if m[k].toNat < 12 ∧ ret.testBit m[k].toNat = true then 15#4 else m[k] := by
  simp [retireSlots, bits_one_eq_testBit]

theorem releasePackage_layer (s : State) (l : Fin 12) : s.releasePackage.layers[l] =
    if (recN s.bootRecord 10 2).testBit l.val = true then { state := .retired } else {} := by
  simp [State.releasePackage, ← bits_one_eq_testBit]

end Sys2Proof.Machine

namespace Sys2Proof.Claims

open Sys2Proof.Machine

/-- One clause for each command. -/
theorem mailbox : Mailbox_ := by
  intro s args num busy finished refuses body shown
  have hbusy (k : Nat) : busy k ↔ s.spBusy k = true := (spBusy_iff s k).symm
  refine ⟨fun h => ?quote, fun h lo hi hn => ?extend, fun h bad => ?extendBad, fun h => ?report, fun h one => ?frames,
    fun m hm h => ?idle⟩
  case quote => exact exec_quote_busy ((hbusy 1).1 h)
  case extend => exact exec_extend_done ((hbusy 2).1 h) lo hi hn
  case extendBad => exact refuses_of (exec_extend_refused ((hbusy 2).1 h) bad)
  case report => exact exec_report_busy ((hbusy 6).1 h)
  case idle => exact exec_command_idle hm (by simpa using fun hb => h ((hbusy m.2).2 hb))
  case frames =>
    have hb := (hbusy 4).1 h
    refine ⟨fun known add => exec_frames_added hb one known add, fun known del mem => ?removed,
      fun bad => refuses_of (exec_frames_refused hb one bad)⟩
    case removed =>
      intro pa
      refine ⟨_, exec_frames_removed hb one known del mem, ?_, ?_, rfl⟩
      · simp [State.zeroFrame, num, State.argN, spArg]
      · intro x hx
        exact Memory.read_clear s.hbm (Nat.le_add_right ..) (Nat.add_lt_add_left hx _)

/-- One clause for each outcome of a reset. -/
theorem packageResets : PackageResets := by
  intro s image record identity r zeros z afresh held stays
  have hstays (n : Nat) (ms : List (List Byte)) (h : exec .packageReset s = .next (s.stayReset n ms)) :
      stays n (ms ++ List.replicate (8 - ms.length) (List.replicate 64 0)) :=
    ⟨s.stayReset n ms, ⟨h, rfl, ⟨rfl, rfl, rfl, rfl, rfl, rfl, rfl⟩, rfl, rfl, rfl, rfl⟩, rfl, rfl, rfl, rfl⟩
  refine ⟨fun h => ?enters, fun off size v h hb hz => ⟨fun i hi lt one => ?image, fun i hi lt one => ?record⟩,
    fun h hi => hstays 1 [] (exec_packageReset_badImage h hi),
    fun h hi hr => hstays 2 [s.m0] (exec_packageReset_badRecord h hi hr),
    fun h hi hr hd => hstays 3 [s.m0, s.m1] (exec_packageReset_badIdentity h hi hr hd), fun h hi hr hd => ?released⟩
  case enters =>
    exact ⟨({ s with image := [], record := [] } : State).inReset {} [], ⟨exec_packageReset_running h, rfl,
      ⟨rfl, rfl, rfl, rfl, rfl, rfl, rfl⟩, rfl, rfl, rfl, rfl⟩, rfl, rfl, rfl, rfl⟩
  case image =>
    subst one
    rw [space4RegisterWrite_boot h hb hz, bootWrite_image hi lt]
  case record =>
    subst one
    rw [space4RegisterWrite_boot h hb hz, bootWrite_record hi lt]
  case released =>
    intro ret slots
    have hslots : slots (retireSlots ret z.slotmap) := retireSlots_get ret z.slotmap
    exact ⟨s.releasePackage, exec_packageReset_verified h hi hr hd, rfl, rfl, ⟨rfl, rfl, rfl, rfl, rfl, rfl, rfl⟩,
      rfl, rfl, hslots, hslots, rfl, rfl, releasePackage_layer s⟩

end Sys2Proof.Claims
end

section
/-! SUPPORT. Forming an enclave: what each stage of POLICY sends and leaves (R373). -/

namespace Sys2Proof.Machine

/-! ### Sending to many -/

/-- Steps that only append to what leaves the package append all of it. -/
theorem foldl_out {α : Type} {s : State} {g : State → α → State} {msgs : α → List OutMsg}
    (h : ∀ out a, g { s with out := out } a = { s with out := out ++ msgs a }) (l : List α) :
    l.foldl g s = { s with out := s.out ++ l.flatMap msgs } := by
  suffices ∀ out, l.foldl g { s with out := out } = { s with out := out ++ l.flatMap msgs } from this s.out
  induction l with
  | nil => simp
  | cons a t ih => intro out; simp [h, ih]

theorem foldl_await (f : α → Instr) (l : List α) (s : State) :
    l.foldl (fun (s : State) x => s.await (f x)) s = { s with due := s.due ++ l.map fun x => .event (f x) } := by
  induction l generalizing s with
  | nil => simp
  | cons a t ih =>
    rw [List.foldl_cons, ih]
    simp [State.await]

/-! ### Quotes -/

/-- Where this package has not sent its quote, it goes to every other package of the record. -/
theorem sendQuotes_new {s : State} {id : Nat} (p : Config.Policy) (h : id ∉ s.quoted) :
    s.sendQuotes id p = { s with
      quoted := id :: s.quoted, free := s.free + 1
      out := s.out ++ p.packages.flatMap fun k => if k.1 = s.pkg then [] else
        [.packet k.1 0 0 (.quote id (s.quote (Config.quoteNonce s.free)) (certOf s.record))] } := by
  rw [State.sendQuotes, if_neg (by simpa using h)]
  refine foldl_out (fun out k => ?_) p.packages
  split <;> simp_all [State.sendPacket]

theorem sendQuotes_old {s : State} {id : Nat} (p : Config.Policy) (h : id ∈ s.quoted) : s.sendQuotes id p = s := by
  rw [State.sendQuotes, if_pos (by simpa using h)]

theorem quotesMissing_iff (s : State) (id : Nat) (p : Config.Policy) :
    s.quotesMissing id p = true ↔ ∃ k ∈ p.packages, k.1 ≠ s.pkg ∧ s.quoteOf id k.1 = none := by
  simp [State.quotesMissing]

/-- R373: a participant is admitted with all of its packages or with none. -/
theorem mem_admitted (s : State) (id : Nat) (p : Config.Policy) (k : Nat × Nat) :
    k ∈ s.admitted id p ↔ k ∈ p.packages ∧ ∀ j ∈ p.packages, j.2 = k.2 → s.memberOk id p j.1 = true := by
  simp only [State.admitted, List.mem_filter, Bool.not_eq_true', and_congr_right_iff, List.contains_eq_mem,
    decide_eq_false_iff_not, List.mem_map, not_exists, not_and]
  refine fun _ => forall_congr' fun j => ?_
  constructor
  · intro h hj he
    by_contra hn
    exact h ⟨hj, by simpa using hn⟩ he
  · rintro h ⟨hj, hn⟩ he
    simp [h hj he] at hn

theorem memberOk_badSignature {s : State} {id k : Nat} {p : Config.Policy} {x : List Byte × List Byte}
    {y : Nat × Nat × List Byte × List Byte} {d : List Byte} (hk : k ≠ s.pkg) (hx : s.quoteOf id k = some x)
    (hd : Config.certKey x.2 = some d) (hy : s.agreed.find? (fun z => z.1 == k && z.2.1 == id) = some y)
    (bad : edVerify d y.2.2.1 y.2.2.2 = false) : s.memberOk id p k = false := by
  simp [State.memberOk, hk, hx, State.keyOf, hy, signedBy, hd, bad]

/-! ### Ephemeral keys -/

/-- One ephemeral key is drawn and sent. -/
def State.sendKey (id : Nat) (s : State) (k : Nat) : State :=
  ({ s with
    free := s.free + 1
    ephemerals := s.ephemerals ++ [(id, k, Config.ephemeral s.free)] }).sendPacket k
      (.agree id (x448Public (Config.ephemeral s.free)) (s.sign (x448Public (Config.ephemeral s.free))))

theorem sendKeys_eq (s : State) (id : Nat) (p : Config.Policy) : s.sendKeys id p =
    if s.ephemerals.any (·.1 == id) then s else (s.peers id p).foldl (State.sendKey id) s := rfl

/-- Every key that is drawn is kept, and its public half sent with its signature; nothing else changes. -/
theorem foldl_sendKey (id : Nat) (l : List Nat) (s : State) : ∃ f eph o, l.foldl (State.sendKey id) s
      = { s with free := f, ephemerals := s.ephemerals ++ eph, out := s.out ++ o }
    ∧ ∀ k ∈ l, ∃ priv, (id, k, priv) ∈ eph
      ∧ .packet k 0 0 (.agree id (x448Public priv) (s.sign (x448Public priv))) ∈ o := by
  induction l generalizing s with
  | nil => exact ⟨s.free, [], [], by simp, by simp⟩
  | cons a t ih =>
    obtain ⟨f, eph, o, he, hk⟩ := ih (State.sendKey id s a)
    refine ⟨f, (id, a, Config.ephemeral s.free) :: eph, .packet a 0 0 (.agree id
      (x448Public (Config.ephemeral s.free)) (s.sign (x448Public (Config.ephemeral s.free)))) :: o, ?_, ?_⟩
    · rw [List.foldl_cons, he]
      simp [State.sendKey, State.sendPacket]
    · intro k hm
      rcases List.mem_cons.1 hm with rfl | hm
      · exact ⟨_, List.mem_cons_self, List.mem_cons_self⟩
      · obtain ⟨priv, h1, h2⟩ := hk k hm
        exact ⟨priv, List.mem_cons_of_mem _ h1, List.mem_cons_of_mem _ h2⟩

theorem keyOf_eq_none (s : State) (id k : Nat) :
    s.keyOf id k = none ↔ s.agreed.find? (fun x => x.1 == k && x.2.1 == id) = none := Option.map_eq_none_iff

theorem keysMissing_iff (s : State) (id : Nat) (p : Config.Policy) :
    s.keysMissing id p = true ↔ ∃ k ∈ s.peers id p, s.keyOf id k = none := by
  simp [State.keysMissing]

theorem sendKeys_new {s : State} {id : Nat} {p : Config.Policy} (h : ∀ x ∈ s.ephemerals, x.1 ≠ id) :
    s.sendKeys id p = (s.peers id p).foldl (State.sendKey id) s := by
  have : ¬(s.ephemerals.any (·.1 == id)) = true := by
    rw [List.any_eq_true]
    rintro ⟨x, hx, he⟩
    exact h x hx (by simpa using he)
  rw [sendKeys_eq, if_neg this]

/-- Where the keys are sent already, or go to nobody, nothing is sent. -/
theorem sendKeys_sent {s : State} {id : Nat} {p : Config.Policy}
    (h : (∃ x ∈ s.ephemerals, x.1 = id) ∨ s.peers id p = []) : s.sendKeys id p = s := by
  rw [sendKeys_eq]
  split
  · rfl
  · rename_i hn
    rcases h with h | h
    · exact absurd (by simpa using h) hn
    · rw [h]; rfl

/-! ### The stages of POLICY -/

section
variable {s : State} {rec : List Byte} {p : Config.Policy} (h : s.spBusy 3 = true) (hrec : s.arg 0 4096 = rec)
include h hrec

theorem exec_policy_refused
    (bad : Config.policy rec = none ∨ Config.policy rec = some p ∧ policyOk rec p = false) :
    exec .policy s = .next s.spRefuse := by
  subst hrec
  rcases bad with hp | ⟨hp, hok⟩
  · simp only [exec_policy, execPolicy, h, hp, Bool.not_true, if_false, Bool.false_eq_true]
  · simp only [exec_policy, execPolicy, h, hp, hok, Bool.not_true, Bool.not_false, if_true, if_false,
      Bool.false_eq_true]

variable {id : Nat} (hid : enclaveId rec p = id) (hp : Config.policy rec = some p) (hok : policyOk rec p = true)
include hid hp hok

theorem exec_policy_quotes (hw : (s.sendQuotes id p).quotesMissing id p = true) :
    exec .policy s = .next (s.sendQuotes id p) := by
  subst hrec hid
  simp only [exec_policy, execPolicy, h, hp, hok, hw, Bool.not_true, if_true, if_false, Bool.false_eq_true]

variable (hq : id ∈ s.quoted) (hw : s.quotesMissing id p = false)
include hq hw

theorem exec_policy_keys (hm : (s.sendKeys id p).keysMissing id p = true) :
    exec .policy s = .next (s.sendKeys id p) := by
  subst hrec hid
  simp only [exec_policy, execPolicy, h, hp, hok, sendQuotes_old p hq, hw, hm, Bool.not_true, if_true, if_false,
    Bool.false_eq_true]

theorem exec_policy_forms (hs : s.sendKeys id p = s) (hm : s.keysMissing id p = false) :
    exec .policy s = .next (s.form rec p) := by
  subst hrec hid
  simp only [exec_policy, execPolicy, h, hp, hok, sendQuotes_old p hq, hw, hs, hm, Bool.not_true, if_false,
    Bool.false_eq_true]

end

/-! ### Group keys -/

theorem leads_iff (e : Enclave) (pkg : Nat) :
    e.leads pkg = true ↔ pkg ∈ e.remaining ∧ ∀ p ∈ e.remaining, pkg ≤ p := by
  simp [Enclave.leads]

theorem remaining_of_none_revoked {e : Enclave} (h : e.revoked = []) : e.remaining = e.members.map (·.1) := by
  simp [Enclave.remaining, h]

/-- The key that an enclave shares with a package; empty where it has none. -/
def Enclave.pairWith (e : Enclave) (p : Nat) : List Byte := ((e.pairs.find? (·.1 == p)).map (·.2)).getD []

/-- R373 steps 4 and 5: the new key is installed, and sent wrapped to every other member. -/
theorem rekey_eq (s : State) (e : Enclave) : s.rekey e =
    { s.lastEnclave (e.install (s.nextKey e) (Config.groupKey s.free)) with
      free := s.free + 1
      out := s.out ++ e.remaining.flatMap fun p => if p = s.pkg then [] else
        [.packet p 0 0 (.groupKey e.id (s.nextKey e) (Config.wrap (e.pairWith p) (Config.groupKey s.free)))] } := by
  refine foldl_out (fun out k => ?_) e.remaining
  split <;> simp_all [State.sendPacket, State.lastEnclave, Enclave.pairWith]

/-- The enclave that goes to the end of the list is the one of its id. -/
theorem find?_lastEnclave (l : List Enclave) (e : Enclave) :
    (l.filter (·.id != e.id) ++ [e]).find? (·.id == e.id) = some e := by
  have : (l.filter (·.id != e.id)).find? (·.id == e.id) = none := by simp
  rw [List.find?_append, this]
  simp

/-- Every other member that remains gets the new key, wrapped under its pairwise one. -/
theorem rekey_sends {s : State} {e : Enclave} {p : Nat} (hp : p ∈ e.remaining) (hne : p ≠ s.pkg) :
    .packet p 0 0 (.groupKey e.id (s.nextKey e) (Config.wrap (e.pairWith p) (Config.groupKey s.free)))
      ∈ (s.rekey e).out := by
  rw [rekey_eq]
  refine List.mem_append_right _ (List.mem_flatMap.2 ⟨p, hp, ?_⟩)
  rw [if_neg hne]
  exact List.mem_singleton.2 rfl

theorem rekey_enclave (s : State) (e : Enclave) : (s.rekey e).enclaves.find? (·.id == e.id)
    = some (e.install (s.nextKey e) (Config.groupKey s.free)) := by
  rw [rekey_eq]
  exact find?_lastEnclave _ (e.install _ _)

theorem rekey_mmio (s : State) (e : Enclave) : (s.rekey e).mmio = s.mmio := by
  rw [rekey_eq]
  rfl

theorem mem_out_rekey {s : State} (e : Enclave) {m : OutMsg} (h : m ∈ s.out) : m ∈ (s.rekey e).out := by
  rw [rekey_eq]
  exact List.mem_append_left _ h

/-- A pair that stands for a member is found. -/
theorem find?_map_pair {α : Type} (l : List α) (g : α → Nat) (f : Nat → List Byte) {a : Nat} (h : a ∈ l.map g) :
    (l.map fun m => (g m, f (g m))).find? (·.1 == a) = some (a, f a) := by
  induction l with
  | nil => simp at h
  | cons m t ih =>
    by_cases hm : g m = a
    · simp [hm]
    · have ht : a ∈ t.map g := by simpa [Ne.symm hm] using h
      simpa [hm] using ih ht

/-! ### The enclave is formed -/

/-- The enclave of a record, with nothing drawn yet. -/
def State.newEnclave (s : State) (id : Nat) (p : Config.Policy) : Enclave :=
  { id := id, keys := p.keys, quorum := p.quorum, members := s.admitted id p, funcs := p.funcs, ctxs := p.ctxs
    pairs := ((s.admitted id p).filter (·.1 != s.pkg)).map fun m => (m.1, s.pairKey id m.1) }

/-- The state with an enclave of its id formed: what was exchanged for it is gone, and its contexts are bound. -/
def State.formed (s : State) (id : Nat) (p : Config.Policy) : State :=
  { s with
    quotes := s.quotes.filter (·.2.1 != id), quoted := s.quoted.erase id
    ephemerals := s.ephemerals.filter (·.1 != id), agreed := s.agreed.filter (·.2.1 != id)
    enclaves := s.enclaves.filter (·.id != id) ++ [s.newEnclave id p]
    encCtxs := s.encCtxs.filter (·.2 != id) ++ (p.ctxs.filter (·.1 == s.pkg)).map fun c => (c.2, id) }

/-- The wrapped keys that have come for an enclave are looked at once it is formed. -/
def State.openBox (s : State) (id : Nat) : State :=
  { s with due := s.due ++ (s.keyBox.filter (·.1 == id)).map fun x => .event (.groupKeyReceive x.2.1) }

theorem newEnclave_leads_iff (s : State) (id : Nat) (p : Config.Policy) :
    (s.newEnclave id p).leads s.pkg = true ↔
      (∃ k ∈ s.admitted id p, k.1 = s.pkg) ∧ ∀ k ∈ s.admitted id p, s.pkg ≤ k.1 := by
  rw [leads_iff, remaining_of_none_revoked rfl]
  simp [State.newEnclave]

/-- The pairwise key of another member is the one agreed with it. -/
theorem newEnclave_pairWith {s : State} {id : Nat} {p : Config.Policy} {k : Nat × Nat} (h : k ∈ s.admitted id p)
    (hk : k.1 ≠ s.pkg) : (s.newEnclave id p).pairWith k.1 = s.pairKey id k.1 := by
  have hm : k.1 ∈ ((s.admitted id p).filter (·.1 != s.pkg)).map (·.1) :=
    List.mem_map_of_mem (List.mem_filter.2 ⟨h, by simpa using hk⟩)
  rw [Enclave.pairWith, State.newEnclave, find?_map_pair _ _ _ hm]
  rfl

section
variable {s : State} {rec : List Byte} {p : Config.Policy} {id : Nat} (hid : enclaveId rec p = id)
include hid

theorem form_stranger (h : ∀ k ∈ s.admitted id p, k.1 ≠ s.pkg) :
    (s.form rec p).sp.st = 3 ∧ (s.form rec p).enclaves = s.enclaves := by
  subst hid
  have : ((s.admitted (enclaveId rec p) p).any (·.1 == s.pkg)) = false := by simpa using h
  simp only [State.form, this, Bool.not_false, if_true]
  exact ⟨rfl, rfl⟩

theorem form_eq (h : ∃ k ∈ s.admitted id p, k.1 = s.pkg) : s.form rec p =
    ((if (s.newEnclave id p).leads s.pkg then (s.formed id p).rekey (s.newEnclave id p)
      else s.formed id p).openBox id).spDone (bytesOf 8 id) := by
  subst hid
  have : ((s.admitted (enclaveId rec p) p).any (·.1 == s.pkg)) = true := by simpa using h
  simp only [State.form, this, Bool.not_true, Bool.false_eq_true, if_false]
  rw [foldl_await]
  rfl

/-- A member that does not lead forms the enclave and waits for its key. -/
theorem form_member (hin : ∃ k ∈ s.admitted id p, k.1 = s.pkg) (hlow : ∃ k ∈ s.admitted id p, k.1 < s.pkg)
    (hbox : ∀ x ∈ s.keyBox, x.1 ≠ id) : s.form rec p = (s.formed id p).spDone (bytesOf 8 id) := by
  have hnl : ¬(s.newEnclave id p).leads s.pkg = true := by
    rw [newEnclave_leads_iff]
    obtain ⟨k, hk, hlt⟩ := hlow
    exact fun h => absurd (h.2 k hk) (by omega)
  have hnone : (s.formed id p).keyBox.filter (·.1 == id) = [] := by simpa [State.formed] using hbox
  have hopen : (s.formed id p).openBox id = s.formed id p := by
    rw [State.openBox, hnone, List.map_nil, List.append_nil]
  rw [form_eq hid hin, if_neg hnl, hopen]

/-- The leading member forms the enclave with a key of its own. -/
theorem form_leader (hin : ∃ k ∈ s.admitted id p, k.1 = s.pkg) (hlead : ∀ k ∈ s.admitted id p, s.pkg ≤ k.1) :
    s.form rec p = (((s.formed id p).rekey (s.newEnclave id p)).openBox id).spDone (bytesOf 8 id) := by
  rw [form_eq hid hin, if_pos ((newEnclave_leads_iff s id p).2 ⟨hin, hlead⟩)]

end

end Sys2Proof.Machine
end

section
/-! SUPPORT. What freezing masters, aborting groups and posting records keep of a state, whatever they do:
one lemma an operation. -/

namespace Sys2Proof.Machine

/-! ### The relation -/

/-- From `s` to `u` nothing is taken back: the enclaves stand, what has been sent stays sent, what is frozen stays
frozen, and the groups outside `T` are as they were, in their registers and in what the engine keeps of them. -/
structure Onward (T : Nat → Prop) (s u : State) : Prop where
  enclaves : u.enclaves = s.enclaves
  encCtxs : u.encCtxs = s.encCtxs
  pkg : u.pkg = s.pkg
  out : ∀ m ∈ s.out, m ∈ u.out
  frozen : ∀ m ∈ s.frozen, m ∈ u.frozen
  num : u.core.num = s.core.num
  memberOf : u.core.memberOf = s.core.memberOf
  coreFrozen : s.core.frozen = true → u.core.frozen = true
  freezeDue : s.core.freezeDue = true → u.core.freezeDue = true
  wf : Memory.wf s.mmio = true → Memory.wf u.mmio = true
  regs : Memory.wf s.mmio = true → ∀ g < 256, ¬T g → ∀ a, groupBase g ≤ a → a < groupBase g + 256 →
    u.mmio.read a = s.mmio.read a
  group : ∀ g, ¬T g → u.group g = s.group g

variable {T : Nat → Prop}

/-- An update of none of the parts that the relation speaks of. -/
theorem onward_of_eq {s u : State} (core : u.core = s.core) (enclaves : u.enclaves = s.enclaves)
    (encCtxs : u.encCtxs = s.encCtxs) (pkg : u.pkg = s.pkg) (out : u.out = s.out) (frozen : u.frozen = s.frozen)
    (mmio : u.mmio = s.mmio) (groups : u.groups = s.groups) : Onward T s u where
  enclaves := enclaves
  encCtxs := encCtxs
  pkg := pkg
  out := by simp [out]
  frozen := by simp [frozen]
  num := by rw [core]
  memberOf := by rw [core]
  coreFrozen := by simp [core]
  freezeDue := by simp [core]
  wf := by simp [mmio]
  regs := by simp [mmio]
  group := by simp [State.group, groups]

theorem Onward.refl (s : State) : Onward T s s := onward_of_eq rfl rfl rfl rfl rfl rfl rfl rfl

theorem Onward.trans {s u v : State} (a : Onward T s u) (b : Onward T u v) : Onward T s v where
  enclaves := b.enclaves.trans a.enclaves
  encCtxs := b.encCtxs.trans a.encCtxs
  pkg := b.pkg.trans a.pkg
  out m h := b.out m (a.out m h)
  frozen m h := b.frozen m (a.frozen m h)
  num := b.num.trans a.num
  memberOf := b.memberOf.trans a.memberOf
  coreFrozen h := b.coreFrozen (a.coreFrozen h)
  freezeDue h := b.freezeDue (a.freezeDue h)
  wf h := b.wf (a.wf h)
  regs h g hg ht x lo hi := (b.regs (a.wf h) g hg ht x lo hi).trans (a.regs h g hg ht x lo hi)
  group g ht := (b.group g ht).trans (a.group g ht)

theorem Onward.mono {T' : Nat → Prop} {s u : State} (h : Onward T s u) (sub : ∀ g, T g → T' g) : Onward T' s u :=
  { h with
    regs := fun w g hg ht => h.regs w g hg fun x => ht (sub g x)
    group := fun g ht => h.group g fun x => ht (sub g x) }

theorem Onward.foldl {α : Type} {f : State → α → State} : ∀ {l : List α}, (∀ a ∈ l, ∀ s, Onward T s (f s a)) →
    ∀ s, Onward T s (l.foldl f s)
  | [], _, s => .refl s
  | a :: _, h, s => (h a List.mem_cons_self s).trans
      (Onward.foldl (fun b hb => h b (List.mem_cons_of_mem a hb)) (f s a))

/-- A property that every step keeps and one step brings about holds at the end. -/
theorem foldl_reaches {α : Type} {P Q : State → Prop} {f : State → α → State} {a : α}
    (keep : ∀ s b, P s → P (f s b)) (hit : ∀ s, P s → Q (f s a)) (stay : ∀ s b, Q s → Q (f s b)) :
    ∀ {l : List α}, a ∈ l → ∀ {s}, P s → Q (l.foldl f s)
  | b :: t, ha, s, hs => by
    rcases List.mem_cons.1 ha with rfl | ht
    · exact List.foldlRecOn t f (hit s hs) fun u hu c _ => stay u c hu
    · exact foldl_reaches keep hit stay ht (keep s b hs)

/-! ### Plain updates -/

theorem onward_out (s : State) (ms : List OutMsg) : Onward T s { s with out := s.out ++ ms } :=
  { Onward.refl (T := T) s with out := fun _ h => List.mem_append_left _ h }

theorem onward_sendPacket (s : State) (p : Nat) (b : Body) : Onward T s (s.sendPacket p b) := onward_out s _

theorem onward_frozen (s : State) (ms : List (Nat × Nat)) : Onward T s { s with frozen := s.frozen ++ ms } :=
  { Onward.refl (T := T) s with frozen := fun _ h => List.mem_append_left _ h }

theorem Memory.read_writeN_other {m : Memory} (w : m.wf = true) {a n v b : Nat} (h : b < a ∨ a + n ≤ b) :
    (m.writeN a n v).read b = m.read b := by
  rw [Memory.writeN_eq_writeBytes]
  exact Memory.read_writeBytes_other _ a b w (by rwa [bytesOf_length])

/-- A write of registers that are none of the groups outside `T`. -/
theorem onward_writeN (s : State) (a n v : Nat)
    (h : ∀ g < 256, ¬T g → groupBase g + 256 ≤ a ∨ a + n ≤ groupBase g) :
    Onward T s { s with mmio := s.mmio.writeN a n v } :=
  { Onward.refl (T := T) s with
    wf := Memory.wf_writeN n a v
    regs := fun w g hg ht x lo hi => Memory.read_writeN_other w (by have := h g hg ht; omega) }

/-- What the engine keeps of a group is found under its number. -/
theorem group_num (s : State) (g : Nat) : (s.group g).num = g := by
  rw [State.group]
  cases h : s.groups.find? (·.num == g) with
  | none => rfl
  | some x => simpa using List.find?_some h

theorem group_setGroup (s : State) {g : Nat} {x : Group} (hx : x.num = g) : (s.setGroup x).group g = x := by
  simp [State.group, State.setGroup, hx]

theorem onward_setGroup (s : State) (g : Nat) (x : Group) (hx : x.num = g) : Onward (· = g) s (s.setGroup x) :=
  { Onward.refl (T := (· = g)) s with
    group := fun k hk => by
      subst hx
      have hx : (x.num == k) = false := by simpa using Ne.symm hk
      have hf : (s.groups.filter (·.num != x.num)).find? (·.num == k) = s.groups.find? (·.num == k) := by
        rw [List.find?_filter]
        congr 1
        funext y
        by_cases hy : y.num = k <;> simp [hy, hk]
      simp [State.group, State.setGroup, hx, hf] }

theorem onward_setGroupSt (s : State) (g st : Nat) : Onward (· = g) s (s.setGroupSt g st) :=
  onward_writeN s _ _ _ fun h _ hne => by unfold groupBase; omega

theorem onward_setGroupSeq (s : State) (g n : Nat) : Onward (· = g) s (s.setGroupSeq g n) :=
  onward_writeN s _ _ _ fun h _ hne => by unfold groupBase; omega

/-! ### Memory and records -/

theorem onward_storeHome_hbm (s : State) (pa : Nat) (bs : List Byte) : Onward T s (s.storeHome (.hbm pa) bs) := by
  rw [State.storeHome]
  split
  · exact { Onward.refl (T := T) s with }
  · exact { Onward.refl (T := T) s with }

@[simp] theorem storeHome_hbm_mmio (s : State) (pa : Nat) (bs : List Byte) :
    (s.storeHome (.hbm pa) bs).mmio = s.mmio := by
  rw [State.storeHome]
  split <;> rfl

@[simp] theorem storeHome_hbm_out (s : State) (pa : Nat) (bs : List Byte) :
    (s.storeHome (.hbm pa) bs).out = s.out := by
  rw [State.storeHome]
  split <;> rfl

theorem onward_postError (s : State) (r : ErrRec) : Onward T s (s.postError r) := by
  have hfar (a n : Nat) (ha : 0x0050_0000 ≤ a) : ∀ g < 256, ¬T g → groupBase g + 256 ≤ a ∨ a + n ≤ groupBase g := by
    intro g hg _
    unfold groupBase
    omega
  rw [State.postError]
  split
  · exact onward_writeN s _ _ _ (hfar _ _ (by omega))
  · have hs (pa : Nat) (bs : List Byte) (v : Nat) (ms : List OutMsg) : Onward T s { s.storeHome (.hbm pa) bs with
        mmio := s.mmio.writeN 0x0050_0008 8 v, out := s.out ++ ms } := by
      have h := ((onward_storeHome_hbm (T := T) s pa bs).trans
        (onward_writeN _ 0x0050_0008 8 v (hfar _ _ (by omega)))).trans (onward_out _ ms)
      simpa only [storeHome_hbm_mmio, storeHome_hbm_out] using h
    exact hs _ _ _ _

/-! ### Groups (R341, R342) -/

theorem onward_writeAbort (s : State) (g q : Nat) (failed : Bool) : Onward T s (s.writeAbort g q failed) :=
  onward_storeHome_hbm ..

theorem onward_reopen (s : State) (g q : Nat) : Onward (· = g) s (s.reopen g q) :=
  ((((onward_writeAbort s g q false).trans (onward_setGroupSeq _ g q)).trans (onward_setGroupSt _ g 1)).trans
    (onward_setGroup _ g { num := g } rfl)).trans (Onward.foldl (fun _ _ _ => onward_sendPacket ..) _)

theorem onward_settleAbort (s : State) (g : Nat) : Onward (· = g) s (s.settleAbort g) := by
  rw [State.settleAbort]
  split
  · split
    · exact onward_reopen ..
    · have h := onward_setGroup s g { s.group g with passed := true } (group_num s g)
      split
      · exact h.trans (onward_sendPacket ..)
      · exact h
  · exact .refl s

theorem onward_discardEntry (s : State) (e : CEntry) : Onward (· = e.grp) s (s.discardEntry e) :=
  have h : Onward (· = e.grp) s (s.setTrigger { s.trigger e.ctx e.trig with ab := true }) :=
    onward_of_eq rfl rfl rfl rfl rfl rfl rfl rfl
  h.trans (onward_setGroup _ _ _ (group_num _ _))

theorem onward_modWell (s : State) (home idx : Nat) (f : Well → Well) : Onward T s (s.modWell home idx f) := by
  rw [State.modWell]
  split
  · exact onward_of_eq rfl rfl rfl rfl rfl rfl rfl rfl
  · exact .refl s

theorem onward_ackTerm (s : State) (t : Term) (landed : Bool) : Onward T s (s.ackTerm t landed) := by
  rw [State.ackTerm]
  split
  · exact onward_of_eq rfl rfl rfl rfl rfl rfl rfl rfl
  · exact onward_of_eq rfl rfl rfl rfl rfl rfl rfl rfl
  · exact onward_out ..

theorem onward_replyTerm (s : State) (t : Term) (x : TermPhase) : Onward T s (s.replyTerm t x) := by
  rw [State.replyTerm.eq_def]
  split
  · exact onward_of_eq rfl rfl rfl rfl rfl rfl rfl rfl
  · exact onward_of_eq rfl rfl rfl rfl rfl rfl rfl rfl
  · exact onward_ackTerm ..

theorem onward_grantTerm (s : State) (home idx : Nat) : Onward T s (s.grantTerm home idx) := by
  rw [State.grantTerm]
  split
  · exact .refl s
  · split
    · have h (t : Term) : Onward T s { s with terms := s.terms.erase t } :=
        onward_of_eq rfl rfl rfl rfl rfl rfl rfl rfl
      exact ((h _).trans (onward_modWell ..)).trans (onward_replyTerm ..)
    · exact .refl s

theorem onward_dropTerms (s : State) (p : Term → Bool) : Onward T s (s.dropTerms p) := by
  have h : Onward T s { s with terms := s.terms.filter fun t => !p t } := onward_of_eq rfl rfl rfl rfl rfl rfl rfl rfl
  refine h.trans (Onward.foldl (fun t _ u => ?_) _)
  split
  · exact (onward_modWell ..).trans (onward_grantTerm ..)
  · exact (onward_modWell ..).trans (onward_grantTerm ..)
  · exact .refl u

theorem onward_dropGroup (s : State) (g : Nat) : Onward (· = g) s (s.dropGroup g) := by
  have hgone : ∀ e ∈ ((s.qps.map (·.entries)).flatten).filter (·.grp == g), ∀ u : State,
      Onward (· = g) u (u.discardEntry e) := by
    intro e he u
    have hg : e.grp = g := by simpa using (List.mem_filter.1 he).2
    exact hg ▸ onward_discardEntry u e
  simp only [State.dropGroup]
  refine Onward.trans ?_ (onward_dropTerms ..)
  exact (Onward.foldl hgone s).trans (onward_of_eq rfl rfl rfl rfl rfl rfl rfl rfl)

theorem onward_setTold (s : State) (g : Nat) : Onward (· = g) s (s.setGroup { s.group g with told := true }) :=
  onward_setGroup s g _ (group_num s g)

theorem onward_tell (s : State) (g reason pkg : Nat) : Onward (· = g) s (s.tell g reason pkg) := by
  simp only [State.tell]
  refine Onward.trans ?_ (onward_settleAbort _ g)
  refine Onward.trans ?_ (onward_setTold _ g)
  exact (Onward.foldl (fun _ _ _ => onward_sendPacket ..) s).trans (onward_dropGroup _ g)

theorem onward_startAbort (s : State) (g reason pkg : Nat) (detected : Bool) :
    Onward (· = g) s (s.startAbort g reason pkg detected) := by
  have h (x : Group) (hx : x.num = g) : Onward (· = g) s ((s.setGroupSt g 2).setGroup x) :=
    (onward_setGroupSt s g 2).trans (onward_setGroup _ g x hx)
  have hn := group_num (s.setGroupSt g 2) g
  simp only [State.startAbort]
  split
  · exact .refl s
  · split
    · exact Onward.trans (h _ (by exact hn)) (onward_tell ..)
    · split
      · exact Onward.trans (h _ (by exact hn)) (onward_sendPacket ..)
      · exact h _ (by exact hn)

theorem onward_abortHere (s : State) (g reason : Nat) : Onward (· = g) s (s.abortHere g reason) :=
  onward_startAbort ..

/-- A child that is lost counts as having acknowledged. -/
def State.ackFor (s : State) (g p : Nat) (acks : Bool) : State :=
  if acks then s.setGroup { s.group g with acked := p :: (s.group g).acked } else s

theorem onward_ackFor (s : State) (g p : Nat) (acks : Bool) : Onward (· = g) s (s.ackFor g p acks) := by
  cases acks with
  | false => exact .refl s
  | true => exact onward_setGroup s g _ (group_num s g)

/-- What a lost peer means for one group. -/
def State.abortFor (p reason : Nat) (acks : Bool) (ok : Nat → Bool) (s : State) (g : Nat) : State :=
  if !ok (s.groupCtx g) then s
  else if s.groupHas g p then ((s.ackFor g p acks).abortHere g reason).settleAbort g
  else s

theorem abortPeerIn_eq (s : State) (p reason : Nat) (acks : Bool) (ok : Nat → Bool) :
    s.abortPeerIn p reason acks ok = (List.range 256).foldl (State.abortFor p reason acks ok) s := rfl

theorem onward_abortFor (p reason : Nat) (acks : Bool) (ok : Nat → Bool) (s : State) (g : Nat) :
    Onward (· = g) s (State.abortFor p reason acks ok s g) := by
  rw [State.abortFor]
  split
  · exact .refl s
  · split
    · exact ((onward_ackFor s g p acks).trans (onward_abortHere _ g reason)).trans (onward_settleAbort _ g)
    · exact .refl s

theorem onward_abortPeerIn (s : State) (p reason : Nat) (acks : Bool) (ok : Nat → Bool) :
    Onward (fun _ => True) s (s.abortPeerIn p reason acks ok) :=
  Onward.foldl (fun g _ u => (onward_abortFor p reason acks ok u g).mono fun _ _ => trivial) s

theorem onward_losePeerIn (s : State) (p : Nat) (ok : Nat → Bool) : Onward T s (s.losePeerIn p ok) := by
  have hcore (q : Core → Prop) (h0 : q s.core) (h1 : q (s.core.losePeer p)) :
      q (if ok s.core.ctx then s.core.losePeer p else s.core) := by split <;> assumption
  exact { Onward.refl (T := T) s with
    num := hcore (·.num = _) rfl rfl
    memberOf := hcore (·.memberOf = _) rfl rfl
    coreFrozen := hcore (fun c => _ → c.frozen = true) id id
    freezeDue := hcore (fun c => _ → c.freezeDue = true) id id }

theorem onward_cutOff (s : State) (id p : Nat) : Onward (fun _ => True) s (s.cutOff id p) :=
  (onward_abortPeerIn ..).trans (onward_losePeerIn ..)

end Sys2Proof.Machine
end

section
/-! SUPPORT. A group whose parent's package is cut off is ABORTING, and stays so (R341, R376). -/

namespace Sys2Proof.Machine

variable {T : Nat → Prop} {s u : State} {g : Nat}

/-! ### The registers of a group that is not touched -/

theorem Memory.readN_congr {m m' : Memory} : ∀ (n a : Nat), (∀ b, a ≤ b → b < a + n → m'.read b = m.read b) →
    m'.readN a n = m.readN a n
  | 0, _, _ => rfl
  | n + 1, a, h => by
    rw [Memory.readN, Memory.readN, h a (by omega) (by omega),
      Memory.readN_congr n (a + 1) fun b lo hi => h b (by omega) (by omega)]

theorem Onward.reg_eq (h : Onward T s u) (w : Memory.wf s.mmio = true) (hg : g < 256) (ht : ¬T g) {o n : Nat}
    (ho : o + n ≤ 256) : u.reg (groupBase g + o) n = s.reg (groupBase g + o) n :=
  Memory.readN_congr n _ fun a lo hi => h.regs w g hg ht a (by omega) (by omega)

/-- The group is OPEN under a parent, in a context that is bound to an enclave. -/
structure OpenChild (s : State) (id g q : Nat) : Prop where
  isOpen : s.groupSt g = 1
  notRoot : s.groupRoot g = false
  parent : s.groupParent g = some q
  bound : s.inEnclave id (s.groupCtx g) = true

/-- The group is ABORTING, and its engine has not heard ABORT. -/
structure Aborting (s : State) (g : Nat) : Prop where
  aborting : s.groupSt g = 2
  untold : (s.group g).told = false

section
variable (h : Onward T s u) (w : Memory.wf s.mmio = true) (hg : g < 256) (ht : ¬T g)
include h w hg ht

theorem Onward.groupSt_eq : u.groupSt g = s.groupSt g :=
  congrArg (· % 4) (h.reg_eq w hg ht (o := 0) (n := 8) (by omega))

theorem Onward.groupRoot_eq : u.groupRoot g = s.groupRoot g :=
  congrArg (fun v => bits v 2 1 == 1) (h.reg_eq w hg ht (o := 0) (n := 8) (by omega))

theorem Onward.groupCtx_eq : u.groupCtx g = s.groupCtx g :=
  congrArg (fun v => bits v 8 8) (h.reg_eq w hg ht (o := 0) (n := 8) (by omega))

theorem Onward.groupParent_eq : u.groupParent g = s.groupParent g :=
  congrArg member (h.reg_eq w hg ht (o := 24) (n := 2) (by omega))

theorem Onward.openChild {id q : Nat} (x : OpenChild s id g q) : OpenChild u id g q where
  isOpen := (h.groupSt_eq w hg ht).trans x.isOpen
  notRoot := (h.groupRoot_eq w hg ht).trans x.notRoot
  parent := (h.groupParent_eq w hg ht).trans x.parent
  bound := by
    rw [h.groupCtx_eq w hg ht, State.inEnclave, h.encCtxs]
    exact x.bound

theorem Onward.abortingOf (x : Aborting s g) : Aborting u g where
  aborting := (h.groupSt_eq w hg ht).trans x.aborting
  untold := (congrArg Group.told (h.group g ht)).trans x.untold

end

/-! ### One group begins to abort -/

/-- R335: STATE is the low two bits of the group's first word. -/
theorem reg_setGroupSt (w : Memory.wf s.mmio = true) {st : Nat} (hst : st < 4) :
    (s.setGroupSt g st).reg (groupBase g) 8 = s.reg (groupBase g) 8 / 4 * 4 + st := by
  have hb : (s.mmio.read (groupBase g)).toNat < 256 := (s.mmio.read (groupBase g)).isLt
  have h1 : s.reg (groupBase g) 1 = (s.mmio.read (groupBase g)).toNat := rfl
  have hhigh : (s.setGroupSt g st).mmio.readN (groupBase g + 1) 7 = s.mmio.readN (groupBase g + 1) 7 :=
    Memory.readN_congr 7 _ fun b lo hi => Memory.read_writeN_other w (by omega)
  have hlow : (s.setGroupSt g st).mmio.read (groupBase g)
      = BitVec.ofNat 8 ((s.mmio.read (groupBase g)).toNat / 4 * 4 + st) :=
    (Memory.read_write w _ _ _).trans (if_pos rfl)
  have hword (m : Memory) : m.readN (groupBase g) 8 = (m.read (groupBase g)).toNat + 256 * m.readN (groupBase g + 1) 7 := rfl
  rw [State.reg, State.reg, hword, hword, hhigh, hlow, BitVec.toNat_ofNat]
  omega

theorem groupSt_setGroupSt (w : Memory.wf s.mmio = true) {st : Nat} (hst : st < 4) :
    (s.setGroupSt g st).groupSt g = st := by
  rw [State.groupSt, reg_setGroupSt w hst]
  omega

theorem groupRoot_setGroupSt (w : Memory.wf s.mmio = true) {st : Nat} (hst : st < 4) :
    (s.setGroupSt g st).groupRoot g = s.groupRoot g := by
  have : (s.reg (groupBase g) 8 / 4 * 4 + st) / 4 = s.reg (groupBase g) 8 / 4 := by omega
  simp only [State.groupRoot, reg_setGroupSt w hst, bits]
  norm_num [this]

/-- A group that is no root, ABORTING and told nothing, once its parent is asked. -/
theorem aborting_asked (w : Memory.wf s.mmio = true) {x : Group} (hx : x.num = g) (ht : x.told = false) (q : Nat)
    (b : Body) : Aborting (((s.setGroupSt g 2).setGroup x).sendPacket q b) g where
  aborting := groupSt_setGroupSt (st := 2) w (by omega)
  untold := (congrArg Group.told (group_setGroup (s.setGroupSt g 2) hx)).trans ht

/-- R341 step 1: a group that is no root asks its parent, and waits to hear. -/
theorem startAbort_aborting (w : Memory.wf s.mmio = true) {id q : Nat} (x : OpenChild s id g q) (reason pkg : Nat)
    (detected : Bool) : Aborting (s.startAbort g reason pkg detected) g := by
  have hroot (y : Group) : ((s.setGroupSt g 2).setGroup y).groupRoot g = false :=
    (groupRoot_setGroupSt (st := 2) w (by omega)).trans x.notRoot
  have hparent (y : Group) : ((s.setGroupSt g 2).setGroup y).groupParent g = some q :=
    (congrArg member (Memory.readN_congr 2 _ fun b lo hi => Memory.read_writeN_other w (by omega))).trans x.parent
  have hn := group_num (s.setGroupSt g 2) g
  simp only [State.startAbort, x.isOpen, ne_eq, not_true_eq_false, if_false, hroot, Bool.false_eq_true, hparent]
  exact aborting_asked w (by exact hn) rfl q _

theorem startAbort_of_not_open (h : s.groupSt g ≠ 1) (reason pkg : Nat) (detected : Bool) :
    s.startAbort g reason pkg detected = s := by rw [State.startAbort, if_pos h]

theorem settleAbort_untold (h : (s.group g).told = false) : s.settleAbort g = s := by
  simp [State.settleAbort, h]

/-! ### A package is cut off -/

theorem ackFor_told (s : State) (g p : Nat) (acks : Bool) :
    ((s.ackFor g p acks).group g).told = (s.group g).told := by
  cases acks with
  | false => rfl
  | true =>
    have h := congrArg Group.told (group_setGroup s (x := { s.group g with acked := p :: (s.group g).acked })
      (group_num s g))
    exact h

theorem ackFor_mmio (s : State) (g p : Nat) (acks : Bool) : (s.ackFor g p acks).mmio = s.mmio := by
  cases acks <;> rfl

theorem ackFor_openChild {id p q : Nat} (acks : Bool) (x : OpenChild s id g q) :
    OpenChild (s.ackFor g p acks) id g q := by
  cases acks <;> exact ⟨x.isOpen, x.notRoot, x.parent, x.bound⟩

theorem ackFor_aborting {p : Nat} (acks : Bool) (x : Aborting s g) : Aborting (s.ackFor g p acks) g where
  aborting := by cases acks <;> exact x.aborting
  untold := (ackFor_told s g p acks).trans x.untold

section
variable {p q reason id : Nat} {acks : Bool} {ok : Nat → Bool}

/-- Nothing happens to a group that is ABORTING already and waits to hear. -/
theorem abortFor_aborting (x : Aborting s g) : Aborting (State.abortFor p reason acks ok s g) g := by
  have y := ackFor_aborting (p := p) acks x
  have hne : (s.ackFor g p acks).groupSt g ≠ 1 := by rw [y.aborting]; omega
  rw [State.abortFor]
  split
  · exact x
  · split
    · rwa [State.abortHere, startAbort_of_not_open hne, settleAbort_untold y.untold]
    · exact x

/-- An OPEN group that has the package is ABORTING. -/
theorem abortFor_has (w : Memory.wf s.mmio = true) (x : OpenChild s id g q) (hok : ok (s.groupCtx g) = true)
    (has : s.groupHas g p = true) : Aborting (State.abortFor p reason acks ok s g) g := by
  have w' : Memory.wf (s.ackFor g p acks).mmio = true := by rwa [ackFor_mmio]
  have y := startAbort_aborting w' (ackFor_openChild (p := p) acks x) reason (s.ackFor g p acks).pkg true
  rw [State.abortFor, if_neg (by simp [hok]), if_pos has]
  rwa [State.abortHere, settleAbort_untold y.untold]

theorem abortFor_open (w : Memory.wf s.mmio = true) (x : OpenChild s id g q) :
    OpenChild (State.abortFor p reason acks ok s g) id g q ∨ Aborting (State.abortFor p reason acks ok s g) g := by
  by_cases hok : ok (s.groupCtx g) = true
  · by_cases has : s.groupHas g p = true
    · exact .inr (abortFor_has w x hok has)
    · left
      rwa [State.abortFor, if_neg (by simp [hok]), if_neg has]
  · left
    rwa [State.abortFor, if_pos (by simp [hok])]

theorem groupHas_parent (x : OpenChild s id g q) : s.groupHas g q = true := by
  simp [State.groupHas, x.parent]

end

/-! ### Every group under a package that is cut off -/

/-- What holds of a group until its parent's package is cut off: it is OPEN under its parent, or ABORTING; `b` are
the bindings of contexts to enclaves. -/
structure Waiting (b : List (Nat × Nat)) (id g q : Nat) (s : State) : Prop where
  wf : Memory.wf s.mmio = true
  bindings : s.encCtxs = b
  group : OpenChild s id g q ∨ Aborting s g

/-- What holds of it from then on. -/
structure CutDown (b : List (Nat × Nat)) (g : Nat) (s : State) : Prop where
  wf : Memory.wf s.mmio = true
  bindings : s.encCtxs = b
  group : Aborting s g

section
variable {b : List (Nat × Nat)} {p q reason id : Nat} {acks : Bool} {ok : Nat → Bool} (hg : g < 256)
include hg

theorem Onward.waiting (h : Onward T s u) (ht : ¬T g) (x : Waiting b id g q s) : Waiting b id g q u where
  wf := h.wf x.wf
  bindings := h.encCtxs.trans x.bindings
  group := x.group.imp (h.openChild x.wf hg ht) (h.abortingOf x.wf hg ht)

theorem Onward.cutDown (h : Onward T s u) (ht : ¬T g) (x : CutDown b g s) : CutDown b g u where
  wf := h.wf x.wf
  bindings := h.encCtxs.trans x.bindings
  group := h.abortingOf x.wf hg ht x.group

theorem abortFor_waiting (g' : Nat) (x : Waiting b id g q s) :
    Waiting b id g q (State.abortFor p reason acks ok s g') := by
  have h := onward_abortFor p reason acks ok s g'
  by_cases hne : g = g'
  · subst hne
    exact ⟨h.wf x.wf, h.encCtxs.trans x.bindings,
      x.group.elim (abortFor_open x.wf) fun y => .inr (abortFor_aborting y)⟩
  · exact h.waiting hg hne x

theorem abortFor_cutDown (g' : Nat) (x : CutDown b g s) : CutDown b g (State.abortFor p reason acks ok s g') := by
  have h := onward_abortFor p reason acks ok s g'
  by_cases hne : g = g'
  · subst hne
    exact ⟨h.wf x.wf, h.encCtxs.trans x.bindings, abortFor_aborting x.group⟩
  · exact h.cutDown hg hne x

theorem cutOff_waiting (p : Nat) (x : Waiting b id g q s) : Waiting b id g q (s.cutOff id p) := by
  refine Onward.waiting (T := fun _ => False) hg (onward_losePeerIn ..) not_false ?_
  rw [abortPeerIn_eq]
  exact List.foldlRecOn _ _ x fun _ hu g' _ => abortFor_waiting hg g' hu

theorem cutOff_cutDown (p : Nat) (x : CutDown b g s) : CutDown b g (s.cutOff id p) := by
  refine Onward.cutDown (T := fun _ => False) hg (onward_losePeerIn ..) not_false ?_
  rw [abortPeerIn_eq]
  exact List.foldlRecOn _ _ x fun _ hu g' _ => abortFor_cutDown hg g' hu

/-- R376: where its parent's package is cut off, the group is ABORTING. -/
theorem cutOff_parent (x : Waiting b id g q s) : CutDown b g (s.cutOff id q) := by
  refine Onward.cutDown (T := fun _ => False) hg (onward_losePeerIn ..) not_false ?_
  rw [abortPeerIn_eq]
  refine foldl_reaches (P := Waiting b id g q) (Q := CutDown b g) (a := g) (fun _ g' => abortFor_waiting hg g')
    (fun u hu => ?_) (fun _ g' => abortFor_cutDown hg g') (List.mem_range.2 hg) x
  have h := onward_abortFor q 6 true (s.inEnclave id) u g
  refine ⟨h.wf hu.wf, h.encCtxs.trans hu.bindings, hu.group.elim (fun y => ?_) abortFor_aborting⟩
  have hok : s.inEnclave id (u.groupCtx g) = true := by
    rw [State.inEnclave, x.bindings, ← hu.bindings]
    exact y.bound
  exact abortFor_has hu.wf y hok (groupHas_parent y)

theorem foldl_cutOff_parent {l : List Nat} (hq : q ∈ l) (x : Waiting b id g q s) :
    CutDown b g (l.foldl (fun s p => s.cutOff id p) s) :=
  foldl_reaches (fun _ p => cutOff_waiting hg p) (fun _ => cutOff_parent hg) (fun _ p => cutOff_cutDown hg p) hq x

end

end Sys2Proof.Machine
end

section
/-! SUPPORT. Freezing the masters of a revoked participant's own package (R363, R376). -/

namespace Sys2Proof.Machine

variable {T : Nat → Prop} {s u : State}

/-! ### The cores -/

theorem getCore_num (s : State) (n : Nat) : (s.getCore n).num = n := by
  rw [State.getCore]
  split
  · assumption
  · cases h : s.others.find? (·.num == n) with
    | none => rfl
    | some c => simpa using List.find?_some h

theorem getCore_self (s : State) : s.getCore s.core.num = s.core := by simp [State.getCore]

/-- A core that is put into the list is the one found under its number. -/
theorem find?_insertCore (c : Core) : ∀ l : List Core, (insertCore c l).find? (·.num == c.num) = some c
  | [] => by simp [insertCore]
  | d :: t => by
    rw [insertCore]
    split_ifs with hlt heq
    · simp
    · simp
    · have : d.num ≠ c.num := by omega
      simp [this, find?_insertCore c t]

/-- A change of a core that leaves its number, its ligature and its freeze. -/
structure KeepsCore (f : Core → Core) : Prop where
  num : ∀ c, (f c).num = c.num
  memberOf : ∀ c, (f c).memberOf = c.memberOf
  frozen : ∀ c, c.frozen = true → (f c).frozen = true
  freezeDue : ∀ c, c.freezeDue = true → (f c).freezeDue = true

theorem onward_modCore (s : State) (n : Nat) {f : Core → Core} (h : KeepsCore f) : Onward T s (s.modCore n f) := by
  have hn : (f (s.getCore n)).num = n := (h.num _).trans (getCore_num s n)
  rw [State.modCore, State.putCore, hn]
  split
  · rename_i hc
    have hcore : s.getCore n = s.core := hc ▸ getCore_self s
    rw [hcore]
    exact { Onward.refl (T := T) s with
      num := h.num _
      memberOf := h.memberOf _
      coreFrozen := h.frozen _
      freezeDue := h.freezeDue _ }
  · exact onward_of_eq rfl rfl rfl rfl rfl rfl rfl rfl

theorem modCore_self (s : State) {f : Core → Core} (h : KeepsCore f) :
    (s.modCore s.core.num f).core = f s.core := by
  rw [State.modCore, State.putCore, getCore_self, h.num, if_pos rfl]

/-! ### A core leaves its units -/

theorem onward_setPte (s : State) (t f e : Nat) : Onward T s (s.setPte t f e) := by
  rw [State.setPte]
  split
  · exact onward_writeN s _ _ _ fun g hg _ => by unfold groupBase; omega
  · exact onward_of_eq rfl rfl rfl rfl rfl rfl rfl rfl

theorem onward_unpin (s : State) (p : Nat × Nat × Nat) : Onward T s (s.unpin p) := by
  rw [State.unpin]
  split
  · exact .refl s
  · split
    · rw [State.addPin]
      split
      · exact onward_setPte ..
      · exact .refl s
    · rw [State.sendRequest]
      split
      · exact onward_of_eq rfl rfl rfl rfl rfl rfl rfl rfl
      · exact onward_out ..

theorem unpin_others (s : State) (p : Nat × Nat × Nat) : (s.unpin p).others = s.others := by
  rw [State.unpin]
  split
  · rfl
  · split
    · rw [State.addPin]
      split
      · simp only [State.setPte]
        split <;> rfl
      · rfl
    · rw [State.sendRequest]
      split <;> rfl

/-- An update of the current core alone. -/
theorem onward_core {c : Core} (num : c.num = s.core.num) (memberOf : c.memberOf = s.core.memberOf)
    (frozen : c.frozen = s.core.frozen) (freezeDue : c.freezeDue = s.core.freezeDue) :
    Onward T s { s with core := c } :=
  { Onward.refl (T := T) s with
    num := num
    memberOf := memberOf
    coreFrozen := frozen ▸ id
    freezeDue := freezeDue ▸ id }

theorem onward_retireMark (s : State) : Onward T s s.retireMark := by
  have h1 : Onward T s s.retire := onward_core rfl rfl rfl rfl
  have h2 : Onward T s.retire s.retire.releasePins :=
    Onward.trans (u := { s.retire with core := { s.retire.core with pins := [] } }) (onward_core rfl rfl rfl rfl)
      (Onward.foldl (fun p _ u => onward_unpin u p) _)
  exact (h1.trans h2).trans (onward_core rfl rfl rfl rfl)

theorem retireMark_others (s : State) : s.retireMark.others = s.others :=
  List.foldlRecOn (motive := fun u : State => u.others = s.others) _ State.unpin rfl
    fun u hu p _ => (unpin_others u p).trans hu

theorem onward_onCore_retireMark (s : State) (n : Nat) : Onward T s (s.onCore n State.retireMark) := by
  by_cases hn : s.core.num = n
  · have hfocus : s.focus n = s := by rw [State.focus, if_pos hn]
    have hback : s.retireMark.focus s.core.num = s.retireMark := by
      rw [State.focus, if_pos (onward_retireMark (T := T) s).num]
    rw [State.onCore, hfocus, hback]
    exact onward_retireMark s
  · have h := onward_retireMark (T := T) (s.focus n)
    have hfocus : s.focus n = { s with
        core := s.getCore n, others := insertCore s.core (s.others.filter (·.num != n)) } := by
      rw [State.focus, if_neg hn]
    have hnum : (s.focus n).retireMark.core.num = n := h.num.trans (by rw [hfocus]; exact getCore_num s n)
    have hcore : (s.focus n).retireMark.getCore s.core.num = s.core := by
      rw [State.getCore, if_neg (by rw [hnum]; exact Ne.symm hn), retireMark_others, hfocus]
      simp [find?_insertCore]
    rw [State.onCore, State.focus, if_neg (by rw [hnum]; exact Ne.symm hn), hcore]
    rw [hfocus] at h ⊢
    exact {
      enclaves := h.enclaves, encCtxs := h.encCtxs, pkg := h.pkg, out := h.out, frozen := h.frozen
      num := rfl, memberOf := rfl, coreFrozen := id, freezeDue := id, wf := h.wf, regs := h.regs, group := h.group }

theorem onward_leaveUnits (s : State) (n : Nat) : Onward T s (s.leaveUnits n) := by
  have h : Onward T s { s with
      reads := s.reads.filter (·.core != n)
      terms := s.terms.filterMap (Term.settle n)
      walks := s.walks.filter (·.core != n) } := onward_of_eq rfl rfl rfl rfl rfl rfl rfl rfl
  rw [State.leaveUnits]
  split
  · exact (h.trans (onward_onCore_retireMark _ n)).trans
      (onward_modCore _ n ⟨fun _ => rfl, fun _ => rfl, fun _ => id, fun _ => id⟩)
  · exact h

/-! ### Freezing -/

/-- What freezing does to a core where it stands. -/
def Core.freeze (c : Core) : Core :=
  { c.abandon with frozen := true, tstate := if c.task.isSome then .frozen else c.tstate }

theorem keepsCore_freeze : KeepsCore Core.freeze := ⟨fun _ => rfl, fun _ => rfl, fun _ _ => rfl, fun _ => id⟩

theorem keepsCore_freezeDue : KeepsCore fun c => { c with freezeDue := true } :=
  ⟨fun _ => rfl, fun _ => rfl, fun _ => id, fun _ _ => rfl⟩

theorem onward_freezeStep (s : State) (n : Nat) : Onward T s ((s.leaveUnits n).modCore n Core.freeze) :=
  (onward_leaveUnits s n).trans (onward_modCore _ n keepsCore_freeze)

theorem freezeAt_eq (s : State) (n : Nat) : s.freezeAt n =
    let home := s.getCore (((s.getCore n).memberOf).getD n)
    if home.task.isSome && home.tstate != .queued && s.saving home.ctx then
      s.modCore home.num fun c => { c with freezeDue := true }
    else (s.ligature n).foldl (fun s n => (s.leaveUnits n).modCore n Core.freeze) s := rfl

theorem onward_freezeAt (s : State) (n : Nat) : Onward T s (s.freezeAt n) := by
  rw [freezeAt_eq]
  dsimp only
  split
  · exact onward_modCore _ _ keepsCore_freezeDue
  · exact Onward.foldl (fun k _ u => onward_freezeStep u k) s

/-- The current core, which is in no ligature as a member, is frozen, or its freeze is due. -/
theorem freezeAt_self (h : s.core.memberOf = none) :
    (s.freezeAt s.core.num).core.frozen = true ∨ (s.freezeAt s.core.num).core.freezeDue = true := by
  have hhome : s.getCore (((s.getCore s.core.num).memberOf).getD s.core.num) = s.core := by
    rw [getCore_self, h, Option.getD_none, getCore_self]
  have hself : s.core.num ∈ s.ligature s.core.num := by
    rw [State.ligature, getCore_self, h]
    exact List.mem_cons_self
  rw [freezeAt_eq, hhome]
  dsimp only
  split
  · right
    rw [modCore_self s keepsCore_freezeDue]
  · left
    refine foldl_reaches (P := fun u => u.core.num = s.core.num) (Q := fun u => u.core.frozen = true)
      (fun u k hu => (onward_freezeStep (T := fun _ => True) u k).num.trans hu) (fun u hu => ?_)
      (fun u k => (onward_freezeStep (T := fun _ => True) u k).coreFrozen) hself rfl
    have hn := (onward_leaveUnits (T := fun _ => True) u s.core.num).num.trans hu
    have := modCore_self (u.leaveUnits s.core.num) keepsCore_freeze
    rw [hn] at this
    rw [this]
    rfl

theorem onward_revokePair (s : State) (n : Nat) : Onward (fun _ => True) s (s.revokePair n) :=
  Onward.foldl (fun g _ u => (onward_abortHere u g 6).mono fun _ _ => trivial) s

/-- What is frozen, and what is aborted with it, before the record is posted. -/
def State.freezeNow (s : State) (m : Nat × Nat) : State :=
  if m.1 = 0 then s.freezeAt m.2
  else if m.1 = 2 then ({ s with frozen := s.frozen ++ [m] } : State).revokePair m.2
  else { s with frozen := s.frozen ++ [m] }

theorem freezeMaster_eq (s : State) (m : Nat × Nat) (v : Nat) : ∃ r, s.freezeMaster m v = (s.freezeNow m).postError r := by
  rw [State.freezeMaster, State.freezeNow]
  exact ⟨_, rfl⟩

theorem onward_freezeNow (s : State) (m : Nat × Nat) : Onward (fun _ => True) s (s.freezeNow m) := by
  rw [State.freezeNow]
  split
  · exact onward_freezeAt ..
  · split
    · exact (onward_frozen s [m]).trans (onward_revokePair ..)
    · exact onward_frozen s [m]

theorem onward_freezeMaster (s : State) (m : Nat × Nat) (v : Nat) : Onward (fun _ => True) s (s.freezeMaster m v) := by
  obtain ⟨r, hr⟩ := freezeMaster_eq s m v
  exact hr ▸ (onward_freezeNow s m).trans (onward_postError ..)

/-- R363: a master that is no core is among the frozen. -/
theorem mem_frozen_freezeMaster (s : State) {m : Nat × Nat} (h : m.1 ≠ 0) (v : Nat) :
    m ∈ (s.freezeMaster m v).frozen := by
  obtain ⟨r, hr⟩ := freezeMaster_eq s m v
  have hm : m ∈ (s.frozen ++ [m]) := List.mem_append_right _ (List.mem_singleton.2 rfl)
  rw [hr]
  refine (onward_postError (T := fun _ => True) _ r).frozen m ?_
  rw [State.freezeNow, if_neg h]
  split
  · exact (onward_revokePair _ _).frozen m hm
  · exact hm

/-- R363: the current core as a master. -/
theorem freezeMaster_self (h : s.core.memberOf = none) (v : Nat) :
    (s.freezeMaster (0, s.core.num) v).core.frozen = true ∨ (s.freezeMaster (0, s.core.num) v).core.freezeDue = true := by
  obtain ⟨r, hr⟩ := freezeMaster_eq s (0, s.core.num) v
  have hp := onward_postError (T := fun _ => True) (s.freezeNow (0, s.core.num)) r
  rw [hr]
  exact (freezeAt_self h).imp hp.coreFrozen hp.freezeDue

/-- Each of the masters that were not frozen is. -/
def State.freezeAll (s : State) (ms : List (Nat × Nat)) : State :=
  (ms.filter fun m => !s.isFrozen m).foldl (fun s m => s.freezeMaster m 6) s

theorem onward_freezeAll (s : State) (ms : List (Nat × Nat)) : Onward (fun _ => True) s (s.freezeAll ms) :=
  Onward.foldl (fun m _ u => onward_freezeMaster u m 6) s

theorem mem_frozen_freezeAll {ms : List (Nat × Nat)} {m : Nat × Nat} (hm : m ∈ ms) (h : m.1 ≠ 0) :
    m ∈ (s.freezeAll ms).frozen := by
  by_cases hf : s.isFrozen m = true
  · refine (onward_freezeAll s ms).frozen m ?_
    simpa [State.isFrozen, h] using hf
  · refine foldl_reaches (P := fun _ => True) (Q := fun u => m ∈ u.frozen) (a := m) (fun _ _ _ => trivial)
      (fun u _ => ?_) (fun u k hu => ?_) (List.mem_filter.2 ⟨hm, by simpa using hf⟩) trivial
    · exact mem_frozen_freezeMaster u h 6
    · exact (onward_freezeMaster u k 6).frozen m hu

theorem isFrozen_self (h : s.core.memberOf = none) :
    s.isFrozen (0, s.core.num) = (s.core.frozen || s.core.freezeDue) := by
  simp only [State.isFrozen, getCore_self, h, Option.getD_none, if_true]

theorem freezeAll_self {ms : List (Nat × Nat)} (hm : (0, s.core.num) ∈ ms) (h : s.core.memberOf = none) :
    (s.freezeAll ms).core.frozen = true ∨ (s.freezeAll ms).core.freezeDue = true := by
  by_cases hf : s.isFrozen (0, s.core.num) = true
  · have ho := onward_freezeAll s ms
    have : s.core.frozen = true ∨ s.core.freezeDue = true := by
      simpa [isFrozen_self h] using hf
    exact this.imp ho.coreFrozen ho.freezeDue
  · refine foldl_reaches (P := fun u => u.core.num = s.core.num ∧ u.core.memberOf = none)
      (Q := fun u => u.core.frozen = true ∨ u.core.freezeDue = true) (a := (0, s.core.num)) (fun u k hu => ?_)
      (fun u hu => ?_) (fun u k hu => ?_) (List.mem_filter.2 ⟨hm, by simpa using hf⟩) ⟨rfl, h⟩
    · have ho := onward_freezeMaster u k 6
      exact ⟨ho.num.trans hu.1, ho.memberOf.trans hu.2⟩
    · rw [← hu.1]
      exact freezeMaster_self hu.2 6
    · have ho := onward_freezeMaster u k 6
      exact hu.imp ho.coreFrozen ho.freezeDue

/-! ### The masters of an enclave -/

/-- Where an enclave is put back, every search by id finds it in its place. -/
theorem find?_putEnclave {e e' : Enclave} (hid : e'.id = e.id) (i : Nat) :
    (s.putEnclave e').enclaves.find? (·.id == i) =
      (s.enclaves.find? (·.id == i)).map fun x => if x.id = e.id then e' else x := by
  have hp : ((fun x : Enclave => x.id == i) ∘ fun x => if x.id = e.id then e' else x) = fun x => x.id == i := by
    funext x
    simp only [Function.comp]
    split
    · rename_i hx
      rw [hid, hx]
    · rfl
  rw [State.putEnclave, hid, List.find?_map, hp]

theorem find?_putEnclave_self {e e' : Enclave} (hid : e'.id = e.id) (he : s.enclaves.find? (·.id == e.id) = some e) :
    (s.putEnclave e').enclaves.find? (·.id == e.id) = some e' := by
  rw [find?_putEnclave hid, he]
  simp

section
variable {e e' : Enclave} (hid : e'.id = e.id) (hfuncs : e'.funcs = e.funcs)
  (he : s.enclaves.find? (·.id == e.id) = some e)
include hid hfuncs he

/-- The host functions that a context's enclave admits are the same. -/
theorem putEnclave_enclaveOf_funcs (c : Nat) :
    ((s.putEnclave e').enclaveOf c).map (·.funcs) = (s.enclaveOf c).map (·.funcs) := by
  rw [State.enclaveOf, State.enclaveOf]
  cases hb : s.encCtxs.find? (·.1 == c) with
  | none => simp [State.putEnclave, hb]
  | some b =>
    have hb' : (s.putEnclave e').encCtxs.find? (·.1 == c) = some b := hb
    rw [hb', Option.bind_some, Option.bind_some, find?_putEnclave hid, Option.map_map]
    cases hx : s.enclaves.find? (·.id == b.2) with
    | none => rfl
    | some x =>
      simp only [Option.map_some, Function.comp, Option.some.injEq]
      split
      · rename_i hxe
        have hbe : b.2 = e.id := by
          have := List.find?_some hx
          simp only [beq_iff_eq] at this
          omega
        rw [hbe, he] at hx
        rw [hfuncs, Option.some.inj hx]
      · rfl

theorem putEnclave_window (f : Nat) : (s.putEnclave e').window f = s.window f := by
  have h := putEnclave_enclaveOf_funcs hid hfuncs he (bits (s.reg (0x0041_0000 + 8 * f) 8) 53 8)
  have hreg : (s.putEnclave e').reg = s.reg := rfl
  have hpkg : (s.putEnclave e').pkg = s.pkg := rfl
  rw [State.window, State.window, hreg, hpkg]
  split
  · rfl
  · revert h
    cases (s.putEnclave e').enclaveOf _ <;> cases s.enclaveOf _ <;> simp
    rintro h
    rw [h]

theorem putEnclave_mastersOf (id : Nat) : (s.putEnclave e').mastersOf id = s.mastersOf id := by
  rw [State.mastersOf, State.mastersOf]
  simp only [putEnclave_window hid hfuncs he]
  rfl

end

/-- With no other core, the only core among the masters of an enclave is the current one, and it is no member of
a ligature. -/
theorem memberOf_of_mem_mastersOf {id n : Nat} (ho : s.others = []) (h : (0, n) ∈ s.mastersOf id) :
    s.core.memberOf = none := by
  simp only [State.mastersOf, State.allCores, ho, List.mem_append, List.mem_map, List.mem_filter, List.mem_singleton,
    Prod.mk.injEq] at h
  obtain (⟨c, ⟨rfl, hc⟩, -⟩ | ⟨q, -, h2, -⟩) | ⟨f, -, h4, -⟩ := h
  · simp at hc
    exact hc.2
  · omega
  · omega

end Sys2Proof.Machine
end

section
/-! SUPPORT. Revocation, group keys and their expiry (R373, R374, R376). -/

namespace Sys2Proof.Machine

theorem exec_revocationMessageReceive (id epoch c sigs : Nat) (s : State) :
    exec (.revocationMessageReceive id epoch c sigs) s = execRevocationMessageReceive id epoch c sigs s := rfl
theorem exec_groupKeyReceive (kn : Nat) (s : State) : exec (.groupKeyReceive kn) s = execGroupKeyReceive kn s := rfl
theorem exec_oldKeyExpiry (s : State) : exec .oldKeyExpiry s = execOldKeyExpiry s := rfl

/-! ### A revocation is applied -/

/-- The enclave with participant c revoked in a new epoch. -/
def Enclave.revoking (e : Enclave) (epoch c : Nat) : Enclave :=
  { e with epoch := epoch, revoked := (c :: e.revoked).eraseDups }

/-- The packages of participant c. -/
def Enclave.packagesOf (e : Enclave) (c : Nat) : List Nat := (e.members.filter (·.2 == c)).map (·.1)

/-- The enclave of a package that stays, without the keys that the revoked ones have. -/
def Enclave.keyless (e : Enclave) (epoch c : Nat) : Enclave :=
  { e.revoking epoch c with
    key := none, pairs := (e.revoking epoch c).pairs.filter fun p => !(e.packagesOf c).contains p.1 }

theorem mem_packagesOf (e : Enclave) (c p : Nat) : p ∈ e.packagesOf c ↔ (p, c) ∈ e.members := by
  simp [Enclave.packagesOf]

section
variable {s : State} {e : Enclave} {epoch c sigs : Nat}

theorem accepts_iff : e.accepts epoch c sigs = true ↔
    e.epoch < epoch ∧ c < e.keys.length ∧ e.quorum ≤ signers sigs e.keys.length c := by
  simp [Enclave.accepts, and_assoc]

/-- What a package that stays has done before it posts its record. -/
def State.cutOffAll (s : State) (e : Enclave) (epoch c sigs : Nat) : State :=
  (e.packagesOf c).foldl (fun s p => s.cutOff e.id p)
    (((e.members.filter (·.1 != s.pkg)).foldl
      (fun (s : State) m => s.sendPacket m.1 (.revocation e.id epoch c sigs)) s).putEnclave (e.keyless epoch c))

/-- The record of a revocation (R361). -/
def revocationRecord (e : Enclave) (epoch c : Nat) : ErrRec :=
  { code := 0x12, layer := 12, detail := e.id + 2 ^ 64 * epoch + 2 ^ 96 * c }

/-- A package that stays, once its record is posted. -/
def State.cutAndPosted (s : State) (e : Enclave) (epoch c sigs : Nat) : State :=
  (s.cutOffAll e epoch c sigs).postError (revocationRecord e epoch c)

/-- R376: the revoked participant's own package freezes the masters of the enclave; any other cuts it off. -/
theorem revoke_eq (s : State) (e : Enclave) (epoch c sigs : Nat) : s.revoke e epoch c sigs =
    if (e.packagesOf c).contains s.pkg then
      (s.putEnclave (e.revoking epoch c)).freezeAll ((s.putEnclave (e.revoking epoch c)).mastersOf e.id)
    else if (e.keyless epoch c).leads s.pkg then
      (s.cutAndPosted e epoch c sigs).rekey (e.keyless epoch c)
    else s.cutAndPosted e epoch c sigs := rfl

theorem revoke_own (h : (s.pkg, c) ∈ e.members) : s.revoke e epoch c sigs =
    (s.putEnclave (e.revoking epoch c)).freezeAll ((s.putEnclave (e.revoking epoch c)).mastersOf e.id) := by
  rw [revoke_eq, if_pos (by simpa [mem_packagesOf] using h)]

/-- The masters are those of before: the enclave's contexts and functions stand. -/
theorem revoking_mastersOf (he : s.enclaves.find? (·.id == e.id) = some e) :
    (s.putEnclave (e.revoking epoch c)).mastersOf e.id = s.mastersOf e.id :=
  putEnclave_mastersOf (e := e) (e' := e.revoking epoch c) rfl rfl he e.id

section
variable (he : s.enclaves.find? (·.id == e.id) = some e) (h : (s.pkg, c) ∈ e.members)
include he h

theorem revoke_own_enclave :
    (s.revoke e epoch c sigs).enclaves.find? (·.id == e.id) = some (e.revoking epoch c) := by
  rw [revoke_own h, (onward_freezeAll _ _).enclaves]
  exact find?_putEnclave_self rfl he

theorem revoke_own_frozen {m : Nat × Nat} (hm : m ∈ s.mastersOf e.id) (hne : m.1 ≠ 0) :
    m ∈ (s.revoke e epoch c sigs).frozen := by
  rw [revoke_own h]
  exact mem_frozen_freezeAll (revoking_mastersOf he ▸ hm) hne

theorem revoke_own_core (ho : s.others = []) (hm : (0, s.core.num) ∈ s.mastersOf e.id) :
    (s.revoke e epoch c sigs).core.frozen = true ∨ (s.revoke e epoch c sigs).core.freezeDue = true := by
  rw [revoke_own h]
  exact freezeAll_self (s := s.putEnclave (e.revoking epoch c)) (revoking_mastersOf he ▸ hm)
    (memberOf_of_mem_mastersOf (s := s) ho hm)

end

theorem revoke_follower (h : (s.pkg, c) ∉ e.members) (hl : (e.keyless epoch c).leads s.pkg = false) :
    s.revoke e epoch c sigs = s.cutAndPosted e epoch c sigs := by
  rw [revoke_eq, if_neg (by simpa [mem_packagesOf] using h), if_neg (by simp [hl])]

theorem revoke_leader (h : (s.pkg, c) ∉ e.members) (hl : (e.keyless epoch c).leads s.pkg = true) :
    s.revoke e epoch c sigs = (s.cutAndPosted e epoch c sigs).rekey (e.keyless epoch c) := by
  rw [revoke_eq, if_neg (by simpa [mem_packagesOf] using h), if_pos hl]

/-- Before the packages are cut off: the message is passed on, and the keys are deleted. -/
def State.passOn (s : State) (e : Enclave) (epoch c sigs : Nat) : State :=
  { s with
    out := s.out ++ (e.members.filter (·.1 != s.pkg)).flatMap fun m => [.packet m.1 0 0 (.revocation e.id epoch c sigs)]
    enclaves := s.enclaves.map fun x => if x.id = e.id then e.keyless epoch c else x }

theorem cutOffAll_eq (s : State) (e : Enclave) (epoch c sigs : Nat) : s.cutOffAll e epoch c sigs =
    (e.packagesOf c).foldl (fun s p => s.cutOff e.id p) (s.passOn e epoch c sigs) := by
  have h : (e.members.filter (·.1 != s.pkg)).foldl
      (fun (s : State) m => s.sendPacket m.1 (.revocation e.id epoch c sigs)) s = { s with
        out := s.out ++ (e.members.filter (·.1 != s.pkg)).flatMap
          fun m => [.packet m.1 0 0 (.revocation e.id epoch c sigs)] } := foldl_out (fun _ _ => rfl) _
  rw [State.cutOffAll, h]
  rfl

theorem onward_cutAndPosted (s : State) (e : Enclave) (epoch c sigs : Nat) :
    Onward (fun _ => True) (s.passOn e epoch c sigs) (s.cutAndPosted e epoch c sigs) := by
  refine Onward.trans ?_ (onward_postError _ _)
  rw [cutOffAll_eq]
  exact Onward.foldl (fun p _ u => onward_cutOff u e.id p) _

theorem cutAndPosted_enclave (he : s.enclaves.find? (·.id == e.id) = some e) :
    (s.cutAndPosted e epoch c sigs).enclaves.find? (·.id == e.id) = some (e.keyless epoch c) := by
  rw [(onward_cutAndPosted s e epoch c sigs).enclaves]
  exact find?_putEnclave_self (s := s) (e' := e.keyless epoch c) rfl he

theorem cutAndPosted_out {m : Nat × Nat} (hm : m ∈ e.members) (hp : m.1 ≠ s.pkg) :
    .packet m.1 0 0 (.revocation e.id epoch c sigs) ∈ (s.cutAndPosted e epoch c sigs).out := by
  refine (onward_cutAndPosted s e epoch c sigs).out _ (List.mem_append_right _ (List.mem_flatMap.2 ⟨m, ?_, ?_⟩))
  · exact List.mem_filter.2 ⟨hm, by simpa using hp⟩
  · exact List.mem_singleton.2 rfl

/-- R376 step 5: a group under a package of the revoked participant is ABORTING. -/
theorem cutAndPosted_groupSt {g q : Nat} (hg : g < 256) (w : Memory.wf s.mmio = true) (x : OpenChild s e.id g q)
    (hq : (q, c) ∈ e.members) : (s.cutAndPosted e epoch c sigs).groupSt g = 2 := by
  have h0 : Waiting s.encCtxs e.id g q (s.passOn e epoch c sigs) :=
    ⟨w, rfl, .inl ⟨x.isOpen, x.notRoot, x.parent, x.bound⟩⟩
  have h1 : CutDown s.encCtxs g (s.cutOffAll e epoch c sigs) := by
    rw [cutOffAll_eq]
    exact foldl_cutOff_parent hg ((mem_packagesOf e c q).2 hq) h0
  exact (Onward.cutDown (T := fun _ => False) hg (onward_postError _ _) not_false h1).group.aborting

/-! ### The mailbox's REVOKE, and the message -/

theorem exec_revocationMessage (he : s.enclaves.find? (·.id == e.id) = some e) :
    exec (.revocationMessageReceive e.id epoch c sigs) s =
      .next (if e.accepts epoch c sigs then s.revoke e epoch c sigs else s) := by
  simp only [exec_revocationMessageReceive, execRevocationMessageReceive, he]

theorem exec_revoke_busy (h : s.spBusy 5 = true) (he : s.enclaves.find? (·.id == e.id) = some e)
    (hid : s.argN 0 8 = e.id) (hepoch : s.argN 8 4 = epoch) (hc : s.argN 12 1 = c) (hs : s.sigMask e = sigs) :
    exec .revoke s = .next (if e.accepts epoch c sigs then (s.revoke e epoch c sigs).spDone [] else s.spRefuse) := by
  subst hepoch hc hs
  simp only [exec_revoke, execRevoke, h, hid, he, Bool.not_true, Bool.false_eq_true, if_false]

end

/-! ### Group keys -/

theorem find?_and {α : Type} {p q : α → Bool} {a : α} (hq : q a = true) : ∀ {l : List α}, l.find? p = some a →
    l.find? (fun x => p x && q x) = some a
  | b :: t, h => by
    rw [List.find?_cons] at h ⊢
    cases hp : p b with
    | true =>
      obtain rfl : b = a := by simpa [hp] using h
      simp [hq]
    | false =>
      simp only [Bool.false_and]
      exact find?_and hq (by simpa [hp] using h)

section
variable {s : State} {kn id src : Nat} {wrapped : List Byte} {e : Enclave}
  (hb : s.keyBox.find? (·.2.1 == kn) = some (id, kn, src, wrapped)) (he : s.enclaves.find? (·.id == id) = some e)
include hb he

/-- The first key of its number for an enclave that is here. -/
theorem keyBox_first : s.keyBox.find? (fun x => x.2.1 == kn && s.enclaves.any (·.id == x.1))
    = some (id, kn, src, wrapped) := by
  have hany : s.enclaves.any (·.id == id) = true :=
    List.any_eq_true.2 ⟨e, List.mem_of_find?_eq_some he, by simpa using List.find?_some he⟩
  exact find?_and (q := fun x => s.enclaves.any (·.id == x.1)) hany hb

theorem exec_groupKeyReceive_stranger (hl : e.leads src = false) :
    exec (.groupKeyReceive kn) s = .next { s with keyBox := s.keyBox.erase (id, kn, src, wrapped) } := by
  simp only [exec_groupKeyReceive, execGroupKeyReceive, keyBox_first hb he, he, hl, Bool.not_false, if_true]

variable (hl : e.leads src = true) {y : List Byte} (hy : e.pairs.find? (·.1 == src) = some (src, y))
include hl hy

theorem exec_groupKeyReceive_unopened (hw : Config.unwrap y wrapped = none) :
    exec (.groupKeyReceive kn) s = .next { s with keyBox := s.keyBox.erase (id, kn, src, wrapped) } := by
  simp only [exec_groupKeyReceive, execGroupKeyReceive, keyBox_first hb he, he, hl, hy, hw, Option.bind_some,
    Bool.not_true, Bool.false_eq_true, if_false]

theorem exec_groupKeyReceive_taken {k : List Byte} (hw : Config.unwrap y wrapped = some k) :
    exec (.groupKeyReceive kn) s = .next
      (({ s with keyBox := s.keyBox.erase (id, kn, src, wrapped) } : State).lastEnclave (e.install kn k)) := by
  simp only [exec_groupKeyReceive, execGroupKeyReceive, keyBox_first hb he, he, hl, hy, hw, Option.bind_some,
    Bool.not_true, Bool.false_eq_true, if_false]

end

theorem exec_groupKeyReceive_none {s : State} {kn : Nat}
    (h : ∀ x ∈ s.keyBox, x.2.1 = kn → ∀ e ∈ s.enclaves, e.id ≠ x.1) : exec (.groupKeyReceive kn) s = .next s := by
  have : s.keyBox.find? (fun x => x.2.1 == kn && s.enclaves.any (·.id == x.1)) = none := by
    rw [List.find?_eq_none]
    intro x hx
    simpa using h x hx
  simp only [exec_groupKeyReceive, execGroupKeyReceive, this]

theorem exec_oldKeyExpiry_one {s : State} {e : Enclave} (h : s.enclaves = [e]) (ho : e.old ≠ none) :
    exec .oldKeyExpiry s = .next { s with enclaves := [{ e with old := none }] } := by
  have : s.enclaves.find? (·.old.isSome) = some e := by simp [h, Option.isSome_iff_ne_none.2 ho]
  simp only [exec_oldKeyExpiry, execOldKeyExpiry, this]
  simp [State.putEnclave, h]

theorem exec_oldKeyExpiry_none {s : State} (h : ∀ e ∈ s.enclaves, e.old = none) : exec .oldKeyExpiry s = .next s := by
  have : s.enclaves.find? (·.old.isSome) = none := by
    rw [List.find?_eq_none]
    intro e he
    simp [h e he]
  simp only [exec_oldKeyExpiry, execOldKeyExpiry, this]

end Sys2Proof.Machine
end

section
/-! SUPPORT. The statement of the enclaves, and O54. -/

namespace Sys2Proof.Claims

open Sys2Proof.Machine

/-- The stages of POLICY, the outcomes of a revocation, and the keys that come and go. -/
theorem enclaves : Enclaves := by
  intro s
  refine ⟨fun p hst hcmd => ?policy, fun e epoch c sigs he => ?revocation, fun kn id src w e hb he => ?groupKey,
    fun kn h => exec_groupKeyReceive_none h, fun e h ho => exec_oldKeyExpiry_one h ho,
    fun h => exec_oldKeyExpiry_none h⟩
  case policy =>
    intro rec_ id ms waits peers own theirs sent come pair formed
    have hbusy : s.spBusy 3 = true := (spBusy_iff s 3).2 ⟨hst, hcmd⟩
    have hrec : s.arg 0 4096 = rec_ := rfl
    have hid : enclaveId rec_ p = id := rfl
    have hwaits : waits ↔ s.quotesMissing id p = true := (quotesMissing_iff s id p).symm
    have hcome : ¬come ↔ s.keysMissing id p = true := by
      rw [keysMissing_iff]
      simp only [come, not_forall, keyOf_eq_none, exists_prop, not_not]
      rfl
    have hpair : s.pairKey id = pair := by
      funext k
      simp only [State.pairKey, State.keyOf, pair, theirs, own]
      cases s.ephemerals.find? _ <;> cases s.agreed.find? _ <;> rfl
    refine ⟨fun bad => refuses_of (exec_policy_refused hbusy hrec bad), fun hp hok => ?_⟩
    have hdone (hq : id ∈ s.quoted) (hw : ¬waits) (hs : sent) (hc : come) : exec .policy s = .next (s.form rec_ p) :=
      exec_policy_forms hbusy hrec hid hp hok hq (by simpa [hwaits] using hw) (sendKeys_sent hs)
        (by simpa using fun hk => hcome.2 hk hc)
    refine ⟨mem_admitted s id p, fun hq hw => ?quotes, fun hq hw => ?quotesSent,
      fun k _ hk x y d => memberOk_badSignature hk, fun hq hw hnew hc => ?keys, fun hq hw hs hc => ?keysSent,
      fun hq hw hs hc => ⟨fun hout => ?stranger, fun hin hlow hbox => ?member, fun hin hlead => ?leader⟩⟩
    case quotes =>
      have hmiss : (s.sendQuotes id p).quotesMissing id p = true := by
        rw [sendQuotes_new p hq]
        exact hwaits.1 hw
      refine ⟨s.sendQuotes id p, Config.quoteNonce s.free, exec_policy_quotes hbusy hrec hid hp hok hmiss, ?_⟩
      rw [sendQuotes_new p hq]
      refine ⟨rfl, rfl, List.mem_cons_self, fun k hk hne => List.mem_append_right _ (List.mem_flatMap.2 ⟨k, hk, ?_⟩)⟩
      simp [hne]
    case quotesSent =>
      have hs := sendQuotes_old p hq
      exact (exec_policy_quotes hbusy hrec hid hp hok (by rw [hs]; exact hwaits.1 hw)).trans (by rw [hs])
    case keys =>
      obtain ⟨f, eph, o, he, hk⟩ := foldl_sendKey id (s.peers id p) s
      have hsend := sendKeys_new (p := p) hnew
      have hmiss : (s.sendKeys id p).keysMissing id p = true := by
        rw [hsend, he]
        exact hcome.1 hc
      refine ⟨s.sendKeys id p, exec_policy_keys hbusy hrec hid hp hok hq (by simpa [hwaits] using hw) hmiss, ?_⟩
      rw [hsend, he]
      refine ⟨rfl, rfl, fun k hm => ?_⟩
      obtain ⟨priv, h1, h2⟩ := hk k hm
      exact ⟨priv, List.mem_append_right _ h1, List.mem_append_right _ h2⟩
    case keysSent =>
      have hsend := sendKeys_sent hs
      exact (exec_policy_keys hbusy hrec hid hp hok hq (by simpa [hwaits] using hw) (by rw [hsend]; exact hcome.1 hc)).trans
        (by rw [hsend])
    case stranger => exact ⟨_, hdone hq hw hs hc, form_stranger hid hout⟩
    case member =>
      have hnew : s.newEnclave id p = formed none := by
        rw [State.newEnclave, hpair]
        rfl
      rw [hdone hq hw hs hc, form_member hid hin hlow hbox, State.formed, hnew]
      rfl
    case leader =>
      have hnew (kn : Nat) (key : List Byte) : (s.newEnclave id p).install kn key = formed (some (kn, key)) := by
        rw [State.newEnclave, hpair]
        rfl
      refine ⟨s.form rec_ p, (s.formed id p).nextKey (s.newEnclave id p), Config.groupKey s.free, hdone hq hw hs hc, ?_⟩
      rw [form_leader hid hin hlead]
      refine ⟨rfl, ?_, fun k hk hne => ?_⟩
      · rw [← hnew]
        exact rekey_enclave (s.formed id p) (s.newEnclave id p)
      · have hmem : k.1 ∈ (s.newEnclave id p).remaining := List.mem_map_of_mem (List.mem_filter.2 ⟨hk, rfl⟩)
        rw [← hpair, ← newEnclave_pairWith hk hne]
        exact rekey_sends (s := s.formed id p) hmem hne
  case groupKey =>
    intro u
    refine ⟨exec_groupKeyReceive_stranger hb he, fun y hl hy => ⟨exec_groupKeyReceive_unopened hb he hl hy,
      fun k hk => exec_groupKeyReceive_taken hb he hl hy hk⟩⟩
  case revocation =>
    intro message good
    have hmessage : message = .next (if e.accepts epoch c sigs then s.revoke e epoch c sigs else s) :=
      exec_revocationMessage he
    have hgood : good ↔ e.accepts epoch c sigs = true := accepts_iff.symm
    have htaken (h : good) : message = .next (s.revoke e epoch c sigs) := by rw [hmessage, if_pos (hgood.1 h)]
    have hrevoked : c ∈ (e.revoking epoch c).revoked := by simp [Enclave.revoking]
    refine ⟨fun h => ?refused, fun h => ?applied, fun hst hcmd hid hepoch hc hsigs => ?mailbox⟩
    case refused => rw [hmessage, if_neg (fun ha => h (hgood.2 ha))]
    case mailbox =>
      have hr := exec_revoke_busy ((spBusy_iff s 5).2 ⟨hst, hcmd⟩) he hid hepoch hc hsigs
      refine ⟨fun h => refuses_of ?_, fun h => ⟨_, htaken h, ?_⟩⟩
      · rw [hr, if_neg (fun ha => h (hgood.2 ha))]
      · rw [hr, if_pos (hgood.1 h)]
        rfl
    case applied =>
      by_cases hown : (s.pkg, c) ∈ e.members
      · exact ⟨s.revoke e epoch c sigs, e.revoking epoch c, htaken h, revoke_own_enclave he hown, rfl, hrevoked,
          fun _ => ⟨fun _ => revoke_own_frozen he hown, revoke_own_core he hown⟩, fun hn => absurd hown hn⟩
      · have hpairs : ∀ p k, (p, k) ∈ (e.keyless epoch c).pairs → (p, c) ∉ e.members := by
          intro p k hk
          simpa [mem_packagesOf] using (List.mem_filter.1 hk).2
        have hgroups : ∀ g < 256, ∀ p, Memory.wf s.mmio = true → s.inEnclave e.id (s.groupCtx g) = true →
            s.groupSt g = 1 → s.groupRoot g = false → s.groupParent g = some p → (p, c) ∈ e.members →
            (s.cutAndPosted e epoch c sigs).groupSt g = 2 := fun g hg p w hin hst hroot hpar hp =>
          cutAndPosted_groupSt hg w ⟨hst, hroot, hpar, hin⟩ hp
        cases hl : (e.keyless epoch c).leads s.pkg with
        | false =>
          have hr := revoke_follower (sigs := sigs) hown hl
          refine ⟨s.cutAndPosted e epoch c sigs, e.keyless epoch c, hr ▸ htaken h, cutAndPosted_enclave he, rfl, hrevoked,
            fun hn => absurd hn hown, fun _ => ⟨fun m => cutAndPosted_out, hpairs, fun _ => ⟨rfl, _, rfl⟩,
              fun ht => absurd ht (by simp [hl]), hgroups⟩⟩
        | true =>
          have hr := revoke_leader (sigs := sigs) hown hl
          have hpkg : (s.cutAndPosted e epoch c sigs).pkg = s.pkg := (onward_cutAndPosted s e epoch c sigs).pkg
          refine ⟨(s.cutAndPosted e epoch c sigs).rekey (e.keyless epoch c), (e.keyless epoch c).install _ _,
            hr ▸ htaken h, rekey_enclave _ (e.keyless epoch c), rfl, hrevoked, fun hn => absurd hn hown,
            fun _ => ⟨fun m hm hne => mem_out_rekey _ (cutAndPosted_out hm hne), hpairs,
              fun hf => absurd (hl.symm.trans hf) (by simp),
              fun _ => ⟨_, _, rfl, fun p hp hne => ⟨_, rekey_sends (e := e.keyless epoch c) hp (by rwa [hpkg])⟩⟩,
              fun g hg p w hin hst hroot hpar hp => ?_⟩⟩
          rw [State.groupSt, State.reg, rekey_mmio]
          exact hgroups g hg p w hin hst hroot hpar hp

end Sys2Proof.Claims

/-- Settles O54: the commands of the mailbox one by one, the enclaves by what each stage sends and keeps, and the
outcomes of a reset. -/
theorem packageControl : Obligations.PackageControl :=
  ⟨Sys2Proof.Claims.mailbox, Sys2Proof.Claims.enclaves, Sys2Proof.Claims.packageResets⟩
end

section
/-! SUPPORT. The maps of the mirror's slots, and what it is for a function or an outcome to keep them. -/

namespace Sys2Proof.Machine

/-- The maps of the mirror's slots: the one that stands, and the one of the frame that runs (R249, R250). -/
def State.maps (s : State) : Vector (BitVec 4) 64 × Vector (BitVec 4) 64 := (s.slotmap, s.frameMap)

/-- The outcome is a next state, with these maps. -/
def Fixes (m : Vector (BitVec 4) 64 × Vector (BitVec 4) 64) (o : Out) : Prop := ∃ t, o = .next t ∧ t.maps = m

@[simp] theorem maps_mk {a0 a1 a2 a3 a4 a5 a6 a7 a8 a9 a10 a11 a12 a13 a14 a15 a16 a17 a18 a19 a20 a21 a22
    a23 a24 a25 a26 a27 a28 a29 a30 a31 a32 a33 a34 a35 a36 a37 a38 a39 a40 a41 a42 a43 a44 a45 a46 a47 a48
    a49 a50 a51 a52 a53 a54 a55 a56 a57 a58 a59 a60 a61 a62 a63 a64 a65 a66 a67 a68 a69 a70 a71 a72 a73 a74
    a75 a76 a77 a78 a79 a80 a81 a82 a83 a84 a85 a86 a87 a88 a89 a90 a91 a92} :
    (State.mk a0 a1 a2 a3 a4 a5 a6 a7 a8 a9 a10 a11 a12 a13 a14 a15 a16 a17 a18 a19 a20 a21 a22 a23 a24 a25
      a26 a27 a28 a29 a30 a31 a32 a33 a34 a35 a36 a37 a38 a39 a40 a41 a42 a43 a44 a45 a46 a47 a48 a49 a50
      a51 a52 a53 a54 a55 a56 a57 a58 a59 a60 a61 a62 a63 a64 a65 a66 a67 a68 a69 a70 a71 a72 a73 a74 a75
      a76 a77 a78 a79 a80 a81 a82 a83 a84 a85 a86 a87 a88 a89 a90 a91 a92).maps = (a13, a21) := rfl

@[simp] theorem maps_fold (s : State) : (s.slotmap, s.frameMap) = s.maps := rfl

@[simp] theorem maps_ite {c : Prop} [Decidable c] (s t : State) (m) :
    (if c then s else t).maps = m ↔ (c → s.maps = m) ∧ (¬c → t.maps = m) := by split <;> simp [*]

@[simp] theorem maps_foldl {α : Type} {f : State → α → State} (h : ∀ s a, (f s a).maps = s.maps) :
    ∀ (l : List α) (s : State), (l.foldl f s).maps = s.maps
  | [], _ => rfl
  | a :: t, s => (maps_foldl h t (f s a)).trans (h s a)

@[simp] theorem fixes_next {m} {t : State} : Fixes m (.next t) ↔ t.maps = m := by simp [Fixes]

@[simp] theorem fixes_ite {c : Prop} [Decidable c] {m} {o p : Out} :
    Fixes m (if c then o else p) ↔ (c → Fixes m o) ∧ (¬c → Fixes m p) := by split <;> simp [*]

theorem maps_of_eq {s t : State} (slotmap : t.slotmap = s.slotmap) (frameMap : t.frameMap = s.frameMap) :
    t.maps = s.maps :=
  congrArg₂ Prod.mk slotmap frameMap

/-- A VMU operation keeps the maps. -/
def VOp.Keeps (o : VOp) : Prop := ∀ s u, o.run s = .ok u → u.maps = s.maps

/-- What a body word captures, if it is an operation, keeps the maps. -/
def Captured.Keeps : Captured → Prop
  | .op o => o.Keeps
  | _ => True

end Sys2Proof.Machine
end

section
/-! SUPPORT. One lemma a function: what keeps the maps of the mirror's slots, in the order of the model's files. -/

namespace Sys2Proof.Machine

/-! ### Cores -/

@[simp] theorem maps_putCore (s : State) (c : Core) : (s.putCore c).maps = s.maps := by simp [State.putCore]

@[simp] theorem maps_modCore (s : State) (n : Nat) (f : Core → Core) : (s.modCore n f).maps = s.maps := by
  simp [State.modCore]

@[simp] theorem maps_focus (s : State) (n : Nat) : (s.focus n).maps = s.maps := by simp [State.focus]

@[simp] theorem maps_onCore (s : State) (n : Nat) (f : State → State) (hf : ∀ u, (f u).maps = u.maps) :
    (s.onCore n f).maps = s.maps := by simp [State.onCore, hf]

@[simp] theorem maps_modLayer (s : State) (l : Nat) (f : Layer → Layer) :
    (s.modLayer l f).maps = s.maps := by
  unfold State.modLayer
  split <;> simp

/-! ### Space -/

@[simp] theorem maps_setPte (s : State) (t f : Nat) (e : Nat) : (s.setPte t f e).maps = s.maps := by
  simp [State.setPte]

@[simp] theorem maps_setAnchor (s : State) (t i : Nat) (v : Nat) : (s.setAnchor t i v).maps = s.maps := by
  simp [State.setAnchor]

@[simp] theorem maps_loaded (s : State) (segs : List (Home × Nat)) : (s.loaded segs).maps = s.maps := by
  simp [State.loaded]

@[simp] theorem maps_notice (s : State) (h : Home) (n : Nat) : (s.notice h n).maps = s.maps := by
  simp [State.notice]

@[simp] theorem maps_storeHome (s : State) (h : Home) (bs : List Byte) :
    (s.storeHome h bs).maps = s.maps := by
  unfold State.storeHome
  (repeat' split) <;> simp [*]

/-! ### Ops -/

@[simp] theorem maps_postError (s : State) (r : ErrRec) : (s.postError r).maps = s.maps := by
  simp [State.postError]

@[simp] theorem maps_unpoison (s : State) (cell : Nat) : (s.unpoison cell).maps = s.maps := by
  simp [State.unpoison]

@[simp] theorem maps_setX (s : State) (r : XReg) (v : Word) : (s.setX r v).maps = s.maps := by
  simp [State.setX]

@[simp] theorem maps_retire (s : State) : s.retire.maps = s.maps := by simp [State.retire]

@[simp] theorem maps_stall (s : State) : s.stall.maps = s.maps := by simp [State.stall]

@[simp] theorem maps_addPin (s : State) (asid vpn : Nat) (up : Bool) :
    (s.addPin asid vpn up).maps = s.maps := by
  unfold State.addPin
  split <;> simp

@[simp] theorem maps_sendRequest (s : State) (r : Request) : (s.sendRequest r).maps = s.maps := by
  simp [State.sendRequest]

@[simp] theorem maps_unpin (s : State) (p : Nat × Nat × Nat) : (s.unpin p).maps = s.maps := by
  simp [State.unpin]

@[simp] theorem maps_releasePins (s : State) : s.releasePins.maps = s.maps := by simp [State.releasePins]

@[simp] theorem maps_newRegion (s : State) : s.newRegion.maps = s.maps := by simp [State.newRegion]

@[simp] theorem maps_retireMark (s : State) : s.retireMark.maps = s.maps := by simp [State.retireMark]

@[simp] theorem maps_leaveUnits (s : State) (n : Nat) : (s.leaveUnits n).maps = s.maps := by
  simp [State.leaveUnits]

@[simp] theorem maps_freezeAt (s : State) (n : Nat) : (s.freezeAt n).maps = s.maps := by simp [State.freezeAt]

@[simp] theorem maps_freezeHere (s : State) : s.freezeHere.maps = s.maps := by simp [State.freezeHere]

@[simp] theorem maps_violate (s : State) (v cause : Nat) (addr : Word) :
    (s.violate v cause addr).maps = s.maps := by simp [State.violate]

@[simp] theorem maps_debugHalt (s : State) (kind cause : Nat) (addr : Word) :
    (s.debugHalt kind cause addr).maps = s.maps := by simp [State.debugHalt]

@[simp] theorem maps_deliver (s : State) (cause : Cause) (tval : Word) (epc : Word) :
    (s.deliver cause tval epc).maps = s.maps := by simp [State.deliver]

@[simp] theorem maps_takeTrapAt (s : State) (cause : Cause) (tval : Word) (epc : Word) :
    (s.takeTrapAt cause tval epc).maps = s.maps := by simp [State.takeTrapAt]

@[simp] theorem maps_takeTrap (s : State) (cause : Cause) (tval : Word) :
    (s.takeTrap cause tval).maps = s.maps := by simp [State.takeTrap]

@[simp] theorem fixes_trap {M} (s : State) (cause : Cause) (tval : Word) (hs : s.maps = M) :
    Fixes M (s.trap cause tval) := by simp [State.trap, hs]

@[simp] theorem fixes_ill {M} (s : State) (hs : s.maps = M) : Fixes M (s.ill) := by simp [State.ill, hs]

@[simp] theorem maps_eret (s : State) : s.eret.maps = s.maps := by simp [State.eret]

@[simp] theorem fixes_vmu {M} (s : State) (k : Out) (hs : s.maps = M) (hk : Fixes M k) :
    Fixes M (s.vmu k) := by simp +contextual [State.vmu, *]

@[simp] theorem maps_setVmu (s : State) (v : Vmu) : (s.setVmu v).maps = s.maps := by simp [State.setVmu]

theorem maps_vmuTake {s : State} {array : Bool} {u : State} (h : s.vmuTake array = some u) : u.maps = s.maps := by
  obtain ⟨_, rfl⟩ := vmuTake_eq h
  rfl

@[simp] theorem maps_vmuAwait (s : State) (array : Bool) : (s.vmuAwait array).maps = s.maps := by
  simp [State.vmuAwait]

@[simp] theorem fixes_vmuUse {M} {s : State} {array : Bool} {k : State → Out} (hs : s.maps = M)
    (hk : ∀ u, u.maps = M → Fixes M (k u)) : Fixes M (s.vmuUse array k) := by
  unfold State.vmuUse
  split
  · rename_i hu
    exact hk _ ((maps_vmuTake hu).trans hs)
  · simp [hs]

@[simp] theorem fixes_guard {M} (s : State) (fields cells : List Nat) (k : Out) (hs : s.maps = M)
    (hk : Fixes M k) : Fixes M (s.guard fields cells k) := by
  unfold State.guard
  (repeat' split) <;> simp +contextual [*]

@[simp] theorem fixes_privileged {M} (s : State) (k : Out) (hs : s.maps = M) (hk : Fixes M k) :
    Fixes M (s.privileged k) := by simp +contextual [State.privileged, *]

@[simp] theorem maps_abortSlots (s : State) : s.abortSlots.maps = s.maps := by simp [State.abortSlots]

@[simp] theorem maps_restartFor (s : State) (w : Wait) : (s.restartFor w).maps = s.maps := by
  simp [State.restartFor]

@[simp] theorem maps_restart (s : State) (va : Nat) (kind : Nat) : (s.restart va kind).maps = s.maps := by
  simp [State.restart]

@[simp] theorem maps_askWalk (s : State) (k : Kind) (vpn : Nat) (va : Nat) :
    (s.askWalk k vpn va).maps = s.maps := by simp [State.askWalk]

@[simp] theorem maps_setPower (s : State) (r : Nat) (p : Option RouterPower) :
    (s.setPower r p).maps = s.maps := by simp [State.setPower]

@[simp] theorem maps_wakeRouter (s : State) (r : Nat) : (s.wakeRouter r).maps = s.maps := by
  unfold State.wakeRouter
  split <;> simp

@[simp] theorem maps_raiseWakes (s : State) (rs : List Nat) : (s.raiseWakes rs).maps = s.maps := by
  simp [State.raiseWakes]

@[simp] theorem fixes_onRoute {M} (s : State) (rs : List Nat) (k : Out) (hs : s.maps = M)
    (hk : Fixes M k) : Fixes M (s.onRoute rs k) := by simp +contextual [State.onRoute, *]

@[simp] theorem fixes_onHop {M} (s : State) (whole hop : List Nat) (k : Out) (hs : s.maps = M)
    (hk : Fixes M k) : Fixes M (s.onHop whole hop k) := by simp +contextual [State.onHop, *]

@[simp] theorem fixes_onRoutes {M} (s : State) (rss : List (List Nat)) (k : Out) (hs : s.maps = M)
    (hk : Fixes M k) : Fixes M (s.onRoutes rss k) := by simp +contextual [State.onRoutes, *]

@[simp] theorem maps_discard (s : State) (router cls src : Nat) (dst : Nat) :
    (s.discard router cls src dst).maps = s.maps := by simp [State.discard]

@[simp] theorem maps_losePacket (s : State) (cls q : Nat) (at_ : Nat) :
    (s.losePacket cls q at_).maps = s.maps := by simp [State.losePacket]

@[simp] theorem maps_holdFor (s : State) (segs : List (Home × Nat)) : (s.holdFor segs).maps = s.maps := by
  simp [State.holdFor]

@[simp] theorem maps_waitOn (s : State) (fetch : Bool) (segs : List (Home × Nat)) :
    (s.waitOn fetch segs).maps = s.maps := by
  unfold State.waitOn
  split <;> simp

@[simp] theorem maps_waitFor (s : State) (segs : List (Home × Nat)) : (s.waitFor segs).maps = s.maps := by
  simp [State.waitFor]

@[simp] theorem maps_waitFetch (s : State) (segs : List (Home × Nat)) :
    (s.waitFetch segs).maps = s.maps := by simp [State.waitFetch]

@[simp] theorem fixes_atUnit {M} (s : State) (unit : Nat) (k : Out) (hs : s.maps = M)
    (hk : Fixes M k) : Fixes M (s.atUnit unit k) := by
  obtain ⟨t, rfl, ht⟩ := hk
  unfold State.atUnit
  extract_lets n legs
  split
  · simpa
  · split
    · simpa
    · simp [hs, ht]

@[simp] theorem fixes_refuse {M} (s : State) (k : Kind) (a_ : Check) (hs : s.maps = M) :
    Fixes M (s.refuse k a_) := by
  unfold State.refuse
  split <;> simp [*]

@[simp] theorem fixes_checkGlobal {M} (s : State) (i : Nat) (a : Word) (n pkg va : Nat) (kind : Kind)
    (pin : Bool) (k : State → Out) (hs : s.maps = M) (hk : ∀ u, u.maps = M → Fixes M (k u)) :
    Fixes M (s.checkGlobal i a n pkg va kind pin k) := by
  unfold State.checkGlobal
  (repeat' split) <;> simp +contextual [*]

@[simp] theorem fixes_access {M} (s : State) (acc : Access) (a : Word) (n : Nat)
    (k : List (Home × Nat) → Out) (hs : s.maps = M) (hk : ∀ a1, Fixes M (k a1)) :
    Fixes M (s.access acc a n k) := by
  unfold State.access
  (repeat' split) <;> simp +contextual [*]

@[simp] theorem maps_keepPin (s : State) (k : Nat × Nat × Nat) : (s.keepPin k).maps = s.maps := by
  unfold State.keepPin
  (repeat' split) <;> simp [*]

@[simp] theorem maps_pin (s : State) (k : Nat × Nat) : (s.pin k).maps = s.maps := by simp [State.pin]

@[simp] theorem fixes_pinAll {M} (s : State) (k : State → Out) (hs : s.maps = M)
    (hk : ∀ u, u.maps = M → Fixes M (k u)) : ∀ (l : List Nat) (u : State), u.maps = M → Fixes M (s.pinAll k l u)
  | [], u, hu => hk u hu
  | p :: t, u, hu => by
    unfold State.pinAll
    split
    · split
      · simp [hs]
      · exact fixes_pinAll s k hs hk t _ (by simp [hu])
    · simp [hs]

@[simp] theorem fixes_pinPages {M} (s : State) (a : Word) (n : Nat) (k : State → Out) (hs : s.maps = M)
    (hk : ∀ u, u.maps = M → Fixes M (k u)) : Fixes M (s.pinPages a n k) := by
  unfold State.pinPages
  split
  · exact fixes_pinAll s k hs hk _ s hs
  · exact hk s hs

@[simp] theorem fixes_accesses {M} (acc : Access) : ∀ (l : List (Word × Nat)) (s : State)
    (k : List (List (Home × Nat)) → Out), s.maps = M → (∀ g, Fixes M (k g)) → Fixes M (s.accesses acc l k)
  | [], _, _, _, hk => hk []
  | (_, _) :: t, s, _, hs, hk => fixes_access _ _ _ _ _ hs fun g => fixes_accesses acc t s _ hs fun gs => hk (g :: gs)

@[simp] theorem maps_push (s : State) (a : Word) (segs : List (Home × Nat)) (bs : List Byte) :
    (s.push a segs bs).maps = s.maps := by simp [State.push]

@[simp] theorem maps_retireStore (s : State) (segs : List (Home × Nat)) :
    (s.retireStore segs).maps = s.maps := by simp [State.retireStore]

/-! ### Operands -/

@[simp] theorem fixes_alu2 {M} (st : State) (d : XReg) (s t : XSrc) (f : Word → Word → Word)
    (hs : st.maps = M) : Fixes M (st.alu2 d s t f) := by simp [State.alu2, hs]

@[simp] theorem fixes_alu3 {M} (st : State) (d : XReg) (s t : XSrc) (f : Word → Word → Word → Word)
    (hs : st.maps = M) : Fixes M (st.alu3 d s t f) := by simp [State.alu3, hs]

@[simp] theorem fixes_alu1 {M} (st : State) (d : XReg) (s : XSrc) (f : Word → Word)
    (hs : st.maps = M) : Fixes M (st.alu1 d s f) := by simp [State.alu1, hs]

/-! ### Net -/

@[simp] theorem maps_overPut (s : State) (core task : Nat) (f : Flit) :
    (s.overPut core task f).maps = s.maps := by simp [State.overPut]

@[simp] theorem maps_takeFlit (s : State) : s.takeFlit.maps = s.maps := by
  unfold State.takeFlit
  (repeat' split) <;> simp [*]

theorem maps_latch {s u : State} (h : s.latch = some u) : u.maps = s.maps := by
  unfold State.latch at h
  split at h
  · cases h; rfl
  · obtain ⟨f, -, rfl⟩ := Option.map_eq_some_iff.1 h
    simp

@[simp] theorem maps_popFlit (s : State) : s.popFlit.maps = s.maps := by simp [State.popFlit]

@[simp] theorem maps_tearDown (s : State) (core dst : Nat) (id : Nat) :
    (s.tearDown core dst id).maps = s.maps := by simp [State.tearDown]

@[simp] theorem maps_dropCircuit (s : State) (core : Nat) (i : Fin 2) :
    (s.dropCircuit core i).maps = s.maps := by
  unfold State.dropCircuit
  split <;> simp

@[simp] theorem maps_dropCircuits (s : State) (core : Nat) : (s.dropCircuits core).maps = s.maps := by
  simp [State.dropCircuits]

@[simp] theorem maps_park (s : State) (w : Wait) : (s.park w).maps = s.maps := by simp [State.park]

/-! ### Move -/

@[simp] theorem fixes_execMovx {M} (d : XReg) (s : XSrc) (k : BitVec 13) (st : State)
    (hs : st.maps = M) : Fixes M (execMovx d s k st) := by
  simp only [execMovx]
  split <;> simp [*]

@[simp] theorem fixes_execMovxw {M} (d s : XSrc) (k : BitVec 13) (st : State) (hs : st.maps = M) :
    Fixes M (execMovxw d s k st) := by
  simp only [execMovxw]
  split <;> simp [*]

@[simp] theorem maps_setA (s : State) (r : AReg) (v : Word) : (s.setA r v).maps = s.maps := by
  simp [State.setA]

@[simp] theorem maps_setM (s : State) (r : MReg) (v : Word) : (s.setM r v).maps = s.maps := by
  simp [State.setM]

@[simp] theorem maps_setQs (s : State) (r : QReg) (v : Word) : (s.setQs r v).maps = s.maps := by
  simp [State.setQs]

@[simp] theorem maps_sendFlit (s : State) (f : Flit) : (s.sendFlit f).maps = s.maps := by
  simp [State.sendFlit]

@[simp] theorem maps_launchFlit (s : State) (f : Flit) : (s.launchFlit f).maps = s.maps := by
  simp only [State.launchFlit]
  (repeat' split) <;> simp [*]

@[simp] theorem fixes_execMovqSend {M} (d : QReg) (s : XSrc) (st : State) (hs : st.maps = M) :
    Fixes M (execMovqSend d s st) := by
  unfold execMovqSend
  (repeat' split) <;> simp +contextual [*]

@[simp] theorem fixes_execMovqReceive {M} (d : XReg) (s : QReg) (st : State) (hs : st.maps = M) :
    Fixes M (execMovqReceive d s st) := by
  refine fixes_guard _ _ _ _ hs ?_
  split
  · simp [hs]
  · rename_i hu
    simp [maps_latch hu, hs]

@[simp] theorem maps_setStream (s : State) (i : SReg) (t : Option Stream) :
    (s.setStream i t).maps = s.maps := by simp [State.setStream]

@[simp] theorem fixes_movs {M} (st : State) (d : XReg) (i : SReg) (ext : Nat → Nat → Word)
    (hs : st.maps = M) : Fixes M (st.movs d i ext) := by
  unfold State.movs
  (repeat' split) <;> simp +contextual [*]

/-! ### Mem -/

@[simp] theorem fixes_remote {M} (s : State) (use : SlotUse) (a : Word) (n pkg va : Nat) (op : ReqOp)
    (k : State → Out) (hs : s.maps = M) (hk : ∀ u, u.maps = M → Fixes M (k u)) :
    Fixes M (s.remote use a n pkg va op k) := by
  simp only [State.remote]
  split <;> simp [*]

@[simp] theorem fixes_checkSegs {M} (s : State) (i : Nat) (a : Word) (n : Nat)
    (segs : List (Home × Nat)) (kind : Kind) (k : State → Out) (hs : s.maps = M)
    (hk : ∀ u, u.maps = M → Fixes M (k u)) : Fixes M (s.checkSegs i a n segs kind k) := by
  unfold State.checkSegs
  (repeat' split) <;> simp +contextual [*]

@[simp] theorem fixes_takeBytes {M} (s : State) (align : Nat) (a : Word) (n : Nat) (ready : Bool)
    (k : State → List Byte → Out) (hs : s.maps = M) (hk : ∀ u a2, u.maps = M → Fixes M (k u a2)) :
    Fixes M (s.takeBytes align a n ready k) := by
  unfold State.takeBytes
  (repeat' split) <;> simp +contextual [*]

@[simp] theorem fixes_remoteWait {M} (s : State) (use : SlotUse) (a : Word) (n pkg va : Nat)
    (op : ReqOp) (hs : s.maps = M) : Fixes M (s.remoteWait use a n pkg va op) := by simp [State.remoteWait, hs]

@[simp] theorem maps_setLoad (s : State) (d : XReg) (t : LdType) (v : Nat) :
    (s.setLoad d t v).maps = s.maps := by
  unfold State.setLoad
  split <;> simp

@[simp] theorem fixes_loadGlobal {M} (s : State) (d : XReg) (t : LdType) (a : Word) (acq : Bool)
    (pkg va : Nat) (hs : s.maps = M) : Fixes M (s.loadGlobal d t a acq pkg va) := by
  have far : ∀ u : State, u.maps = M → Fixes M
      (if u.core.lineBusy pkg va (loadSize t) || u.aliasBusy pkg then .next u.stall
       else u.remote (.ld d t acq) a (loadSize t) pkg va (.read (loadSize t)) fun u => .next u.retire) := by
    intro u hu
    simp +contextual [hu]
  simp only [State.loadGlobal]
  split
  · exact far s hs
  · refine fixes_checkGlobal _ _ _ _ _ _ _ _ _ hs fun u hu => ?_
    split
    · simp [hu]
    · exact far u hu

@[simp] theorem fixes_loadFrom {M} (s : State) (d : XReg) (t : LdType) (a : Word) (aligned acq : Bool)
    (hs : s.maps = M) : Fixes M (s.loadFrom d t a aligned acq) := by
  simp only [State.loadFrom]
  split
  · simp [hs]
  · refine fixes_access _ _ _ _ _ hs fun segs => ?_
    split <;> simp [hs]

@[simp] theorem fixes_execLda {M} (d : XReg) (s : XSrc) (sc : Scope) (t : LdType) (q b : Bool)
    (o : BitVec 4) (st : State) (hs : st.maps = M) : Fixes M (execLda d s sc t q b o st) := by
  simp [execLda, hs]

@[simp] theorem fixes_storeTo {M} (s : State) (d : XSrc) (w : StWidth) (a : Word) (aligned : Bool)
    (hs : s.maps = M) : Fixes M (s.storeTo d w a aligned) := by simp [State.storeTo, hs]

@[simp] theorem fixes_execStl {M} (d s : XSrc) (c : Scope) (w : StWidth) (q b : Bool) (o : BitVec 4)
    (st : State) (hs : st.maps = M) : Fixes M (execStl d s c w q b o st) := by
  refine fixes_guard _ _ _ _ hs (fixes_access _ _ _ _ _ hs fun segs => ?_)
  simp +contextual [hs]

@[simp] theorem maps_setV (s : State) (d : VReg) (v : Vector Lane 64) : (s.setV d v).maps = s.maps := by
  simp [State.setV]

@[simp] theorem fixes_execVld {M} (d : VReg) (m : VMode) (k : Mask) (st : State) (hs : st.maps = M) :
    Fixes M (execVld d m k st) := by
  refine fixes_guard _ _ _ _ hs (fixes_vmu _ _ hs (fixes_accesses _ _ _ _ hs fun gs => ?_))
  simp [hs]

@[simp] theorem maps_pushAll : ∀ (l : List ((Word × List (Home × Nat)) × List Byte)) (s : State),
    (s.pushAll l).maps = s.maps
  | [], _ => rfl
  | ((_, _), _) :: t, _ => (maps_pushAll t _).trans (maps_push ..)

@[simp] theorem maps_chain (s : State) (k : Nat) : (s.chain k).maps = s.maps := by simp [State.chain]

@[simp] theorem fixes_execVst {M} (d : VReg) (m : VMode) (k : Mask) (st : State) (hs : st.maps = M) :
    Fixes M (execVst d m k st) := by
  refine fixes_guard _ _ _ _ hs (fixes_vmu _ _ hs (fixes_accesses _ _ _ _ hs fun gs => ?_))
  simp [hs]

@[simp] theorem fixes_localSide {M} (s : State) (a : Word) (k : Out) (hs : s.maps = M)
    (hk : Fixes M k) : Fixes M (s.localSide a k) := by
  unfold State.localSide
  split <;> simp [*]

@[simp] theorem fixes_execGld {M} (d s : XSrc) (i : BitVec 4) (z : BitVec 2) (st : State)
    (hs : st.maps = M) : Fixes M (execGld d s i z st) := by
  refine fixes_guard _ _ _ _ hs (fixes_localSide _ _ _ hs
    (fixes_access _ _ _ _ _ hs fun gs => fixes_access _ _ _ _ _ hs fun gd => ?_))
  split
  · simp [hs]
  · split
    · split
      · simp [hs]
      · exact fixes_remote _ _ _ _ _ _ _ _ hs fun u hu => by simp [hu]
    · simp [hs]
    · simp [hs]

@[simp] theorem fixes_execGst {M} (s t : XSrc) (z : BitVec 2) (r : Bool) (st : State)
    (hs : st.maps = M) : Fixes M (execGst s t z r st) := by
  refine fixes_guard _ _ _ _ hs (fixes_localSide _ _ _ hs
    (fixes_access _ _ _ _ _ hs fun gs => fixes_access _ _ _ _ _ hs fun gd => ?_))
  simp +contextual [hs]

/-! ### Amo -/

@[simp] theorem maps_amoHome (s : State) (h : Home) (op n b e : Nat) :
    (s.amoHome h op n b e).2.maps = s.maps := by simp [State.amoHome]

@[simp] theorem maps_amoLost (s : State) (segs : List (Home × Nat)) (op n b e : Nat) :
    (s.amoLost segs op n b e).maps = s.maps := by
  unfold State.amoLost
  split <;> simp

@[simp] theorem fixes_amo {M} (st : State) (op : Nat) (d : XReg) (s t : XSrc) (w r : Bool)
    (hs : st.maps = M) : Fixes M (st.amo op d s t w r) := by
  refine fixes_guard _ _ _ _ hs (fixes_access _ _ _ _ _ hs fun segs => ?_)
  split
  · simp [hs]
  · split
    · simp [hs]
    · split
      · exact fixes_remote _ _ _ _ _ _ _ _ hs fun u hu => by simp [hu]
      · split <;> simp [hs]
      · simp [hs]

@[simp] theorem fixes_bkop {M} (st : State) (fn : Nat) (d : XReg) (s t : XSrc) (hs : st.maps = M) :
    Fixes M (st.bkop fn d s t) := by simp [State.bkop, hs]

@[simp] theorem maps_storeRuns : ∀ (gs : List (Home × Nat)) (bs : List Byte) (s : State),
    (s.storeRuns gs bs).maps = s.maps
  | [], _, _ => rfl
  | (_, _) :: t, _, _ => (maps_storeRuns t _ _).trans (maps_storeHome ..)

@[simp] theorem fixes_execBkopFill {M} (d s t : XSrc) (st : State) (hs : st.maps = M) :
    Fixes M (execBkopFill d s t st) := by simp [execBkopFill, hs]

/-! ### Branch -/

@[simp] theorem maps_goto (s : State) (a : Word) : (s.goto a).maps = s.maps := by simp [State.goto]

@[simp] theorem fixes_branch {M} (st : State) (s t : XSrc) (o : BitVec 13) (c : Word → Word → Bool)
    (hs : st.maps = M) : Fixes M (st.branch s t o c) := by simp [State.branch, hs]

@[simp] theorem maps_setLink (s : State) (a : Word) : (s.setLink a).maps = s.maps := by simp [State.setLink]

@[simp] theorem fixes_indirect {M} (st : State) (target : Word) (k : Out) (hs : st.maps = M)
    (hk : Fixes M k) : Fixes M (st.indirect target k) := by simp +contextual [State.indirect, *]

/-! ### Copy -/

@[simp] theorem maps_setLock (s : State) (i : Fin 16) (e : Option LockEntry) :
    (s.setLock i e).maps = s.maps := by simp [State.setLock]

@[simp] theorem maps_unbind (s : State) (i : SReg) : (s.unbind i).maps = s.maps := by simp [State.unbind]

@[simp] theorem fixes_readBlock {M} (s : State) (a : Word) (k : List Byte → Out) (hs : s.maps = M)
    (hk : ∀ a1, Fixes M (k a1)) : Fixes M (s.readBlock a k) := by
  unfold State.readBlock
  split <;> simp [*]

@[simp] theorem fixes_checkRange {M} (s : State) (i : Nat) (k : Kind) (a : Word) (n : Nat) (c : State → Out)
    (hs : s.maps = M) (hc : ∀ u, u.maps = M → Fixes M (c u)) : Fixes M (s.checkRange i k a n c) :=
  fixes_access _ _ _ _ _ hs fun _ => fixes_checkSegs _ _ _ _ _ _ _ hs hc

@[simp] theorem fixes_execCopy {M} (d : XReg) (s : XSrc) (st : State) (hs : st.maps = M) :
    Fixes M (execCopy d s st) := by
  refine fixes_guard _ _ _ _ hs (fixes_readBlock _ _ _ hs fun bs => ?_)
  extract_lets b
  split
  · simp [hs]
  · split
    · simp [hs]
    · refine fixes_checkRange _ _ _ _ _ _ hs fun u hu => fixes_checkRange _ _ _ _ _ _ hu fun v hv => ?_
      split <;> simp [hv]

@[simp] theorem fixes_execCopys {M} (d : SReg) (s : XSrc) (st : State) (hs : st.maps = M) :
    Fixes M (execCopys d s st) := by
  refine fixes_guard _ _ _ _ hs (fixes_readBlock _ _ _ hs fun bs => ?_)
  extract_lets b w
  split
  · simp [hs]
  · split
    · simp [hs]
    · refine fixes_checkRange _ _ _ _ _ _ hs fun u hu => ?_
      split <;> simp [hu]

@[simp] theorem fixes_execSbind {M} (d : SReg) (s t : XSrc) (w : BitVec 2) (st : State)
    (hs : st.maps = M) : Fixes M (execSbind d s t w st) := by
  simp only [execSbind]
  (repeat' split) <;> simp +contextual [*]

@[simp] theorem fixes_execSctlUnbind {M} (d : SReg) (st : State) (hs : st.maps = M) :
    Fixes M (execSctlUnbind d st) := by
  unfold execSctlUnbind
  split <;> simp [*]

@[simp] theorem fixes_execSctlSkip {M} (d : SReg) (t : XSrc) (st : State) (hs : st.maps = M) :
    Fixes M (execSctlSkip d t st) := by
  simp only [execSctlSkip]
  (repeat' split) <;> simp +contextual [*]

/-! ### Order -/

@[simp] theorem maps_parkSpin (s : State) (h : Home) (e : Nat) : (s.parkSpin h e).maps = s.maps := by
  simp [State.parkSpin]

@[simp] theorem fixes_execSpinw {M} (d : XReg) (s : XSrc) (i : BitVec 4) (e : BitVec 5) (st : State)
    (hs : st.maps = M) : Fixes M (execSpinw d s i e st) := by
  refine fixes_guard _ _ _ _ hs ?_
  split
  · simp [hs]
  · refine fixes_access _ _ _ _ _ hs fun segs => ?_
    split <;> simp [hs]

@[simp] theorem fixes_execTouch {M} (s : XSrc) (w : Bool) (o : BitVec 12) (st : State)
    (hs : st.maps = M) : Fixes M (execTouch s w o st) := by
  refine fixes_guard _ _ _ _ hs (fixes_access _ _ _ _ _ hs fun segs => ?_)
  split
  · split <;> simp [hs]
  · exact fixes_checkGlobal _ _ _ _ _ _ _ _ _ hs fun u hu => by simp [hu]
  · simp [hs]

/-! ### Vector -/

theorem fixes_issue {M} {st : State} {o : VOp} (ho : o.Keeps) (hs : st.maps = M) : Fixes M (st.issue o) := by
  refine fixes_guard _ _ _ _ hs (fixes_vmuUse hs fun u hu => ?_)
  split
  · rename_i hr
    simp [ho _ _ hr, hu]
  · exact fixes_refuse _ _ _ hu

@[simp] theorem maps_setLanes (s : State) (d : VReg) (m : Mask) (f : Fin 64 → Lane) :
    (s.setLanes d m f).maps = s.maps := by simp [State.setLanes]

/-! ### Tile -/

@[simp] theorem maps_setT (s : State) (d : TReg) (b : Memory) : (s.setT d b).maps = s.maps := by
  simp [State.setT]

@[simp] theorem fixes_tileAligned {M} (s : State) (a b : X5Reg) (k : Out) (hs : s.maps = M)
    (hk : Fixes M k) : Fixes M (s.tileAligned a b k) := by simp +contextual [State.tileAligned, *]

@[simp] theorem fixes_execTld {M} (d : TReg) (a b : X5Reg) (st : State) (hs : st.maps = M) :
    Fixes M (execTld d a b st) := by
  refine fixes_guard _ _ _ _ hs (fixes_vmu _ _ hs (fixes_tileAligned _ _ _ _ hs ?_))
  simp [hs]

@[simp] theorem fixes_execTst {M} (d : TReg) (a b : X5Reg) (st : State) (hs : st.maps = M) :
    Fixes M (execTst d a b st) := by
  refine fixes_guard _ _ _ _ hs (fixes_vmu _ _ hs (fixes_tileAligned _ _ _ _ hs ?_))
  exact fixes_accesses _ _ _ _ hs fun _ => fixes_accesses _ _ _ _ hs fun gs => by simp [hs]

@[simp] theorem fixes_execTldW {M} (d : Fin 32) (a : X5Reg) (st : State) (hs : st.maps = M) :
    Fixes M (execTldW d a st) := by
  refine fixes_guard _ _ _ _ hs (fixes_vmu _ _ hs (fixes_access _ _ _ _ _ hs fun g => ?_))
  split
  · simp [hs]
  · simp only
    split
    · simp [hs]
    · refine fixes_access _ _ _ _ _ hs fun g' => ?_
      split
      · simp [hs]
      · exact fixes_pinPages _ _ _ _ hs fun u hu => by simp [hu]

@[simp] theorem maps_setTable (s : State) (t : DTable) : (s.setTable t).maps = s.maps := by
  simp [State.setTable]

@[simp] theorem fixes_execTabld {M} (a : X5Reg) (o : Bool) (st : State) (hs : st.maps = M) :
    Fixes M (execTabld a o st) := by
  refine fixes_guard _ _ _ _ hs (fixes_vmu _ _ hs (fixes_access _ _ _ _ _ hs fun g => ?_))
  simp [hs]

@[simp] theorem fixes_execEnc {M} (d a : VReg) (q : Fin 4) (st : State) (hs : st.maps = M) :
    Fixes M (execEnc d a q st) := by
  refine fixes_guard _ _ _ _ hs (fixes_vmuUse hs fun u hu => ?_)
  split <;> simp [hu]

/-! ### Matrix -/

theorem maps_skipLog {s : State} {u : MmaSetup} {ma : Memory} {b : Bool} {t : State}
    (h : s.skipLog u ma = .ok (b, t)) : t.maps = s.maps := by
  simp only [State.skipLog] at h
  (repeat' split at h) <;> cases h <;> rfl

@[simp] theorem maps_setC (s : State) (c : CReg) (a : Acc) : (s.setC c a).maps = s.maps := by
  simp [State.setC]

theorem maps_mmaRun {s : State} {c : CReg} {ma mb : Memory} {skip edge : Bool} {y : Ty} {t : State}
    (h : s.mmaRun c ma mb skip edge y = .ok t) : t.maps = s.maps := by
  simp only [State.mmaRun] at h
  split at h
  · cases h
  · split at h
    · cases h
    · cases h
    · split at h
      · split at h
        · cases h
        · rename_i hk; cases h; exact (maps_setC ..).trans (maps_skipLog hk)
        · rename_i hk; cases h; exact (maps_setC ..).trans (maps_skipLog hk)
      · cases h; rfl

@[simp] theorem fixes_execMmam {M} (c : CReg) (x : XSrc) (t : TReg) (d k e : Bool) (y : Ty)
    (st : State) (hs : st.maps = M) : Fixes M (execMmam c x t d k e y st) := by
  refine fixes_guard _ _ _ _ hs (fixes_vmu _ _ hs (fixes_access _ _ _ _ _ hs fun g => ?_))
  split
  · simp [hs]
  · refine fixes_vmuUse hs fun u hu => ?_
    simp only
    split
    · rename_i hr
      simp [maps_mmaRun hr, hu]
    · exact fixes_refuse _ _ _ hu

@[simp] theorem fixes_execAccst {M} (c : CReg) (a b : X5Reg) (e s : Bool) (r : Rm) (p : Tp)
    (st : State) (hs : st.maps = M) : Fixes M (execAccst c a b e s r p st) := by
  refine fixes_guard _ _ _ _ hs (fixes_vmu _ _ hs ?_)
  simp only
  split
  · exact fixes_access _ _ _ _ _ hs fun _ => fixes_accesses _ _ _ _ hs fun gs => by simp [hs]
  · split
    · simp [hs]
    · split
      · simp [hs]
      · split
        · simp [hs]
        · exact fixes_accesses _ _ _ _ hs fun gs => by simp [hs]

@[simp] theorem fixes_execAccld {M} (c : CReg) (a b : X5Reg) (e s : Bool) (r : Rm) (p : Tp)
    (st : State) (hs : st.maps = M) : Fixes M (execAccld c a b e s r p st) := by
  refine fixes_guard _ _ _ _ hs (fixes_vmu _ _ hs ?_)
  simp only
  split
  · refine fixes_access _ _ _ _ _ hs fun g => ?_
    split
    · simp [hs]
    · split
      · simp [hs]
      · exact fixes_pinPages _ _ _ _ hs fun u hu => by simp [hu]
  · split
    · simp [hs]
    · refine fixes_access _ _ _ _ _ hs fun g => ?_
      split
      · simp [hs]
      · exact fixes_pinPages _ _ _ _ hs fun u hu => by simp [hu]

/-! ### Csr -/

@[simp] theorem maps_modCsrs (s : State) (f : Csrs → Csrs) : (s.modCsrs f).maps = s.maps := by
  simp [State.modCsrs]

@[simp] theorem fixes_csrAccess {M} (s : State) (n : Nat) (write : Bool) (k : Word → Out)
    (hs : s.maps = M) (hk : ∀ a1, Fixes M (k a1)) : Fixes M (s.csrAccess n write k) := by
  unfold State.csrAccess
  (repeat' split) <;> simp +contextual [*]

@[simp] theorem maps_csrRead (s : State) (n : Nat) : (s.csrRead n).maps = s.maps := by simp [State.csrRead]

@[simp] theorem maps_overwrite (s : State) (r : XReg) : (s.overwrite r).maps = s.maps := by
  simp [State.overwrite]

@[simp] theorem fixes_readRslot {M} (st : State) (d : XReg) (v : Word) (hs : st.maps = M) :
    Fixes M (st.readRslot d v) := by
  unfold State.readRslot
  split <;> simp [*]

/-! ### Fetch -/

@[simp] theorem maps_begin (s : State) (f : Fetched) : (s.begin f).maps = s.maps := by simp [State.begin]

@[simp] theorem maps_dueRestart (s : State) (w : Wait) : (s.dueRestart w).maps = s.maps := by
  simp only [State.dueRestart]
  (repeat' split) <;> simp [*]

theorem maps_boundary (s : State) {u} (h : s.boundary = some u) :
    u.maps = s.maps := by
  unfold State.boundary at h
  (repeat' split at h) <;> cases h <;> simp

@[simp] theorem maps_afterInstr (s : State) : s.afterInstr.maps = s.maps := by simp [State.afterInstr]

@[simp] theorem maps_wakeStalls (s : State) : s.wakeStalls.maps = s.maps := by simp [State.wakeStalls]

/-! ### Frame -/

@[simp] theorem maps_dropFrame (s : State) (c : Cause) (tval : Word) :
    (s.dropFrame c tval).maps = s.maps := by simp [State.dropFrame]

@[simp] theorem fixes_dropCapture {M} (s : State) (c : Cause) (tval : Word) (hs : s.maps = M) :
    Fixes M (s.dropCapture c tval) := by simp [State.dropCapture, hs]

@[simp] theorem maps_captureWord (s : State) (w : IWord) : (s.captureWord w).maps = s.maps := by
  simp [State.captureWord]

@[simp] theorem fixes_capture {M} (s : State) (d : Nat → Option Instr) (hs : s.maps = M) :
    Fixes M (s.capture d) := by
  simp only [State.capture]
  (repeat' split) <;> simp +contextual [*]

theorem keeps_pure {cells : List Nat} {dst : VDst} {f : State → State} (h : ∀ s, (f s).maps = s.maps) :
    (VOp.pure cells dst f).Keeps := fun s _ hu => by cases hu; exact h s

@[simp] theorem keeps_lane2 (d a : VReg) (m : Mask) (f) : (lane2 d a m f).Keeps := keeps_pure fun _ => by simp

@[simp] theorem keeps_lane3 (d a b : VReg) (m : Mask) (f) : (lane3 d a b m f).Keeps := keeps_pure fun _ => by simp

@[simp] theorem keeps_lane4 (d a b : VReg) (m : Mask) (f) : (lane4 d a b m f).Keeps := keeps_pure fun _ => by simp

@[simp] theorem keeps_oRed (d a : VReg) (m : Mask) (f) : (oRed d a m f).Keeps := keeps_pure fun _ => by simp

@[simp] theorem keeps_unpack (f : Fmt) (off : Nat) (d a : VReg) (m : Mask) : (unpack f off d a m).Keeps :=
  keeps_pure fun _ => by simp

@[simp] theorem keeps_oMask2 (d a b : MReg) (f) : (oMask2 d a b f).Keeps := keeps_pure fun _ => by simp

@[simp] theorem keeps_oTile (cells : List Nat) (d : TReg) (f) : (oTile cells d f).Keeps :=
  fun _ _ hu => by cases hu; simp

@[simp] theorem keeps_oMma (c : CReg) (a b : TReg) (skip edge : Bool) (y : Ty) : (oMma c a b skip edge y).Keeps :=
  fun _ _ hu => maps_mmaRun hu

@[simp] theorem keeps_oMmaw (c : CReg) (a : TReg) (b : Fin 32) (skip edge : Bool) (y : Ty) :
    (oMmaw c a b skip edge y).Keeps := fun s u hu => by
  simp only [oMmaw] at hu
  split at hu
  · cases hu
  · split at hu
    · cases hu
    · exact maps_mmaRun hu

@[simp] theorem keeps_oAccrd (d : VReg) (c : CReg) (row : BitVec 6) (sat : Bool) (r : Rm) (p : Tp) :
    (oAccrd d c row sat r p).Keeps := fun s u hu => by
  simp only [oAccrd] at hu
  split at hu
  · cases hu
  · cases hu; simp

@[simp] theorem keeps_oAccclr (c : CReg) (i : Bool) : (oAccclr c i).Keeps := fun _ _ hu => by cases hu; rfl

@[simp] theorem keeps_op (o : VOp) : (Captured.op o).Keeps ↔ o.Keeps := .rfl

@[simp] theorem keeps_leaves : Captured.leaves.Keeps := trivial

@[simp] theorem keeps_no : Captured.no.Keeps := trivial

@[simp] theorem keeps_withReg {α : Type} {r : Option α} {k : α → Captured} :
    (withReg r k).Keeps ↔ ∀ a, r = some a → (k a).Keeps := by
  cases r <;> simp [withReg]

theorem keeps_captured (kd ka kb : Nat) (i : Instr) : (captured kd ka kb i).Keeps := by
  unfold captured
  split
  case h_73 => split <;> simp [keeps_pure, oVtopk]
  case h_87 => trivial
  all_goals simp [keeps_pure, oTmov, oTmovRv, oTmovT16, oTmovT8, oTmovVr,
    oTmovZero, oVabs, oVadd, oVadds, oVaddus, oVand, oVandn, oVcmp, oVcvtF32S32, oVcvtF32Z32, oVcvtPbf16,
    oVcvtPf16, oVcvtS32, oVcvtUbf16Hi, oVcvtUbf16Lo, oVcvtUf16Hi, oVcvtUf16Lo, oVcvtZ32, oVdot4, oVfabs,
    oVfadd, oVfdiv, oVfma, oVfmax, oVfmin, oVfms, oVfmul, oVfneg, oVfnma, oVfrecip, oVfrsqrt, oVfsqrt, oVfsub,
    oVlaneCompress, oVlaneIota, oVmac, oVmaskAnd, oVmaskAndn, oVmaskClr, oVmaskNot, oVmaskOr, oVmaskSet,
    oVmaskXor, oVmax, oVmaxu, oVmin, oVminu, oVmul, oVmulh, oVmulhu, oVnot, oVor, oVperm, oVredArgmaxF32,
    oVredArgminF32, oVredMaxF32, oVredMaxS32, oVredMinF32, oVredMinS32, oVredSumF32, oVredSumS32, oVrev,
    oVror, oVrori, oVsel, oVslide, oVsll, oVslli, oVsra, oVsrai, oVsrl, oVsrli, oVsub, oVsubs, oVsubus,
    oVxor]

theorem keeps_next {f : Frame} {o : VOp} (h : f.next = some o) : o.Keeps := by
  unfold Frame.next at h
  split at h
  · rename_i i _
    have hk := keeps_captured (f.delta f.pass 2) (f.delta f.pass 1) (f.delta f.pass 0) i
    split at h
    · rename_i ho
      cases h
      rw [Frame.onPass] at ho
      rwa [ho] at hk
    · cases h
  · cases h

theorem maps_VOp_inFrame {o : VOp} {s u : State} (ho : o.Keeps) (h : o.inFrame s = .ok u) : u.maps = s.maps := by
  unfold VOp.inFrame at h
  split at h
  · rename_i hu
    cases h
    rw [maps_mk]
    exact (ho _ _ hu).trans (by rw [maps_mk]; rfl)
  · cases h

@[simp] theorem maps_frameFault (s : State) (c : Cause) (tval : Word) :
    (s.frameFault c tval).maps = s.maps := by simp [State.frameFault]

@[simp] theorem maps_passStep (s : State) : s.passStep.maps = s.maps := by
  unfold State.passStep
  split
  · rfl
  · rename_i o ho
    split
    · rfl
    · split
      · rfl
      · rfl
      · rfl
      · rename_i u hu
        have h : u.maps = s.maps := maps_VOp_inFrame (keeps_next ho) hu
        split <;> simp [h]

@[simp] theorem maps_grantHead (s : State) (v : Vmu) (array : Bool) (c : Nat) :
    (s.grantHead v array c).maps = s.maps := by simp [State.grantHead]

@[simp] theorem fixes_execVmuResourceGrant {M} (quad : Nat) (s : State) (hs : s.maps = M) :
    Fixes M (execVmuResourceGrant quad s) := by
  simp only [execVmuResourceGrant]
  (repeat' split) <;> simp +contextual [*]

@[simp] theorem fixes_execVmuInstructionComplete {M} (quad : Nat) (s : State) (hs : s.maps = M) :
    Fixes M (execVmuInstructionComplete quad s) := by
  simp only [execVmuInstructionComplete]
  split <;> simp [*]

@[simp] theorem fixes_execRepfPassStep {M} (n : Nat) (s : State) (hs : s.maps = M) :
    Fixes M (execRepfPassStep n s) := by
  simp only [execRepfPassStep]
  (repeat' split) <;> simp +contextual [*]

/-! ### Record -/

@[simp] theorem maps_putFld (s : State) (hv hb : Nat) (c : Core) (f : Fld) :
    (s.putFld hv hb c f).maps = s.maps := by simp [State.putFld]

@[simp] theorem maps_putOverflow (s : State) (hv core : Nat) (task : Nat) :
    (s.putOverflow hv core task).maps = s.maps := by simp [State.putOverflow]

@[simp] theorem maps_poisonOut (s : State) (hv hb : Nat) (n : Nat) :
    (s.poisonOut hv hb n).maps = s.maps := by simp [State.poisonOut]

@[simp] theorem maps_poisonIn (s : State) (hv hb : Nat) (n : Nat) : (s.poisonIn hv hb n).maps = s.maps := by
  simp [State.poisonIn]

@[simp] theorem maps_save (s : State) (n r : Nat) (st : TState) (stop : Bool) :
    (s.save n r st stop).maps = s.maps := by
  unfold State.save
  extract_lets c d hv hb image s₁ s₂ s₃ k rest v s₄
  have h₁ : s₁.maps = s.maps := maps_foldl (fun u f => maps_putFld u hv hb image f) _ s
  have h₂ : s₂.maps = s₁.maps := maps_putOverflow ..
  have h₃ : s₃.maps = s₂.maps := maps_poisonOut ..
  have h₄ : s₄.maps = s₃.maps := maps_putCore ..
  rw [maps_mk]
  exact h₄.trans (h₃.trans (h₂.trans h₁))

@[simp] theorem maps_refuseRecord (s : State) (k : Record) : (s.refuseRecord k).maps = s.maps := by
  simp [State.refuseRecord]

@[simp] theorem maps_load (s : State) (k : Record) : (s.load k).maps = s.maps := by simp [State.load]

/-! ### Tasks -/

@[simp] theorem maps_modLaunch (s : State) (id : Nat) (f : Launch → Launch) :
    (s.modLaunch id f).maps = s.maps := by simp [State.modLaunch]

@[simp] theorem maps_raise (s : State) (launch : Nat) (comp : Nat) :
    (s.raise launch comp).maps = s.maps := by simp [State.raise]

@[simp] theorem maps_lower (s : State) (launch : Nat) (comp : Nat) :
    (s.lower launch comp).maps = s.maps := by simp [State.lower]

@[simp] theorem maps_enqueue (s : State) (t : Task) : (s.enqueue t).maps = s.maps := by simp [State.enqueue]

@[simp] theorem maps_refill (s : State) (dom : Nat) : (s.refill dom).maps = s.maps := by
  unfold State.refill
  (repeat' split) <;> simp [*]

@[simp] theorem maps_dequeue (s : State) (t : Task) : (s.dequeue t).maps = s.maps := by simp [State.dequeue]

@[simp] theorem maps_refillAll (s : State) : s.refillAll.maps = s.maps := by simp [State.refillAll]

@[simp] theorem maps_cleanRegs (s : State) (n : Nat) : (s.cleanRegs n).maps = s.maps := by
  simp [State.cleanRegs]

@[simp] theorem maps_startFresh (s : State) (n : Nat) (t : Task) : (s.startFresh n t).maps = s.maps := by
  simp [State.startFresh]

theorem maps_parkSave {s : State} {n : Nat} {u : State} (h : s.parkSave n = some u) : u.maps = s.maps := by
  simp only [State.parkSave] at h
  split at h
  · cases h; rfl
  · split at h
    · cases h
    · obtain ⟨r, -, rfl⟩ := Option.map_eq_some_iff.1 h
      rw [maps_mk]
      exact maps_save ..

@[simp] theorem fixes_execTaskStart {M} (n : Nat) (s : State) (hs : s.maps = M) :
    Fixes M (execTaskStart n s) := by
  simp only [execTaskStart]
  split
  · simpa
  · split
    · simpa
    · split
      · simp [hs]
      · split
        · simpa
        · split
          · simpa
          · rename_i hu
            (repeat' split) <;> simp [hs, maps_parkSave hu]

@[simp] theorem fixes_execTaskAgingPromotion {M} (r t : Nat) (s : State) (hs : s.maps = M) :
    Fixes M (execTaskAgingPromotion r t s) := by
  unfold execTaskAgingPromotion
  split <;> simp [*]

@[simp] theorem maps_putRecord (s : State) (k : Record) (fs : List Fld) :
    (s.putRecord k fs).maps = s.maps := by simp [State.putRecord]

@[simp] theorem maps_wake (s : State) (t : Nat) : (s.wake t).maps = s.maps := by
  unfold State.wake
  (repeat' split) <;> simp [*]

@[simp] theorem fixes_execSpinwWake {M} (t : Nat) (s : State) (hs : s.maps = M) :
    Fixes M (execSpinwWake t s) := by
  unfold execSpinwWake
  split <;> simp [*]

@[simp] theorem fixes_execSpinwTimeout {M} (t : Nat) (s : State) (hs : s.maps = M) :
    Fixes M (execSpinwTimeout t s) := by
  unfold execSpinwTimeout
  split <;> simp [*]

@[simp] theorem fixes_execYieldExpiry {M} (t : Nat) (s : State) (hs : s.maps = M) :
    Fixes M (execYieldExpiry t s) := by
  unfold execYieldExpiry
  split <;> simp [*]

@[simp] theorem maps_undeliverable (s : State) (f : Flit) : (s.undeliverable f).maps = s.maps := by
  simp [State.undeliverable]

@[simp] theorem maps_bounceFlit (s : State) (f : Flit) : (s.bounceFlit f).maps = s.maps := by
  unfold State.bounceFlit
  (repeat' split) <;> simp [*]

@[simp] theorem maps_deliverTo (s : State) (core task : Nat) (f : Flit) :
    (s.deliverTo core task f).maps = s.maps := by
  simp only [State.deliverTo]
  (repeat' split) <;> simp [*]

@[simp] theorem maps_removeFlit (s : State) (k : Nat) : (s.removeFlit k).maps = s.maps := by
  simp [State.removeFlit]

@[simp] theorem fixes_execFlitDelivery {M} (k : Nat) (s : State) (hs : s.maps = M) :
    Fixes M (execFlitDelivery k s) := by
  unfold execFlitDelivery
  (repeat' split) <;> simp +contextual [*]

@[simp] theorem maps_unraise (s : State) (f : Flit) : (s.unraise f).maps = s.maps := by
  unfold State.unraise
  (repeat' split) <;> simp [*]

@[simp] theorem fixes_execHandlerStart {M} (k : Nat) (s : State) (hs : s.maps = M) :
    Fixes M (execHandlerStart k s) := by
  unfold execHandlerStart
  (repeat' split) <;> simp +contextual [*]

@[simp] theorem fixes_execFlitBounceReturn {M} (k : Nat) (s : State) (hs : s.maps = M) :
    Fixes M (execFlitBounceReturn k s) := by
  simp only [execFlitBounceReturn]
  (repeat' split) <;> simp +contextual [*]

@[simp] theorem maps_handBack (s : State) : s.handBack.maps = s.maps := by simp [State.handBack]

@[simp] theorem maps_endTask (s : State) : s.endTask.maps = s.maps := by
  unfold State.endTask
  split
  · rfl
  · exact (maps_foldl maps_bounceFlit ..).trans (by simp)

@[simp] theorem maps_ending (s : State) : s.ending.maps = s.maps := by simp [State.ending]

@[simp] theorem maps_phase (s : State) (f : Word → Word → Word) (v : Word) :
    (s.phase f v).maps = s.maps := by
  unfold State.phase
  split <;> simp

@[simp] theorem maps_wokenUp (s : State) : s.wokenUp.maps = s.maps := by simp [State.wokenUp]

@[simp] theorem fixes_execSpawn {M} (s t : XSrc) (st : State) (hs : st.maps = M) :
    Fixes M (execSpawn s t st) := by
  simp only [execSpawn]
  (repeat' split) <;> simp +contextual [*]

@[simp] theorem fixes_numbered {M} (s : State) (layerMask packageMask : Grants → Nat) (x : Word)
    (k : Out) (hs : s.maps = M) (hk : Fixes M k) : Fixes M (s.numbered layerMask packageMask x k) := by
  simp +contextual [State.numbered, *]

@[simp] theorem maps_setBarrier (s : State) (b : Barrier) : (s.setBarrier b).maps = s.maps := by
  simp [State.setBarrier]

@[simp] theorem maps_arrive (s : State) (b : Barrier) : (s.arrive b).maps = s.maps := by simp [State.arrive]

@[simp] theorem fixes_execBarInit {M} (d : XReg) (s t : XSrc) (st : State) (hs : st.maps = M) :
    Fixes M (execBarInit d s t st) := by
  refine fixes_guard _ _ _ _ hs (fixes_numbered _ _ _ _ _ hs ?_)
  simp [hs]

@[simp] theorem fixes_execBarArr {M} (d : XReg) (s : XSrc) (st : State) (hs : st.maps = M) :
    Fixes M (execBarArr d s st) := by
  refine fixes_guard _ _ _ _ hs (fixes_numbered _ _ _ _ _ hs ?_)
  simp [hs]

@[simp] theorem fixes_barWait {M} (st : State) (x : Word) (p : Nat) (w : Wait) (done : State → State)
    (hs : st.maps = M) (hdone : ∀ u, (done u).maps = u.maps) : Fixes M (st.barWait x p w done) := by
  simp +contextual [State.barWait, *]

@[simp] theorem fixes_execBarw {M} (s t : XSrc) (st : State) (hs : st.maps = M) :
    Fixes M (execBarw s t st) := by
  refine fixes_guard _ _ _ _ hs (fixes_numbered _ _ _ _ _ hs (fixes_atUnit _ _ _ hs ?_))
  simp [hs]

@[simp] theorem fixes_execBarSync {M} (s : XSrc) (st : State) (hs : st.maps = M) :
    Fixes M (execBarSync s st) := by
  refine fixes_guard _ _ _ _ hs (fixes_numbered _ _ _ _ _ hs ?_)
  split
  · simp [hs]
  · simp [hs]

@[simp] theorem fixes_execBarRead {M} (d : XReg) (s : XSrc) (st : State) (hs : st.maps = M) :
    Fixes M (execBarRead d s st) := by
  refine fixes_guard _ _ _ _ hs (fixes_numbered _ _ _ _ _ hs ?_)
  simp [hs]

@[simp] theorem maps_setJoin (s : State) (b : Join) : (s.setJoin b).maps = s.maps := by simp [State.setJoin]

@[simp] theorem fixes_execJoinArm {M} (d : XReg) (s t : XSrc) (st : State) (hs : st.maps = M) :
    Fixes M (execJoinArm d s t st) := by
  refine fixes_guard _ _ _ _ hs (fixes_numbered _ _ _ _ _ hs ?_)
  simp [hs]

@[simp] theorem maps_fireJoin (s : State) (f : Flit) : (s.fireJoin f).maps = s.maps := by
  simp only [State.fireJoin]
  (repeat' split) <;> simp [*]

@[simp] theorem fixes_execJoinArr {M} (d : XReg) (s : XSrc) (st : State) (hs : st.maps = M) :
    Fixes M (execJoinArr d s st) := by
  refine fixes_guard _ _ _ _ hs (fixes_numbered _ _ _ _ _ hs ?_)
  simp [hs]

@[simp] theorem fixes_execJoinRead {M} (d : XReg) (s : XSrc) (st : State) (hs : st.maps = M) :
    Fixes M (execJoinRead d s st) := by
  refine fixes_guard _ _ _ _ hs (fixes_numbered _ _ _ _ _ hs ?_)
  simp [hs]

@[simp] theorem maps_compose (s : State) (g : Nat) : (s.compose g).maps = s.maps := by simp [State.compose]

/-! ### Translate -/

@[simp] theorem maps_joinFault (s : State) (i : Nat) (kind : Nat) : (s.joinFault i kind).maps = s.maps := by
  simp [State.joinFault]

@[simp] theorem maps_fault (s : State) (asid vpn ctx kind : Nat) (source : Option (Nat × Nat)) :
    (s.fault asid vpn ctx kind source).maps = s.maps := by
  unfold State.fault
  split <;> simp

@[simp] theorem maps_malformed (s : State) (asid : Nat) (vpn : Nat) :
    (s.malformed asid vpn).maps = s.maps := by simp [State.malformed]

@[simp] theorem maps_stopUnit (s : State) (m : Nat × Nat) (ctx : Option Nat) (v : Nat) :
    (s.stopUnit m ctx v).maps = s.maps := by simp [State.stopUnit]

@[simp] theorem maps_malformedBy (s : State) (m : Nat × Nat) (ctx : Option Nat) (asid : Nat)
    (vpn : Nat) : (s.malformedBy m ctx asid vpn).maps = s.maps := by
  simp only [State.malformedBy]
  (repeat' split) <;> simp [*]

@[simp] theorem maps_fill (s : State) (unit asid vpn t f : Nat) (d : Bool) :
    (s.fill unit asid vpn t f d).maps = s.maps := by simp [State.fill]

@[simp] theorem maps_walkFails (s : State) (w : Walk) : (s.walkFails w).maps = s.maps := by
  unfold State.walkFails
  refine (maps_onCore _ _ _ fun u => ?_).trans (maps_malformed ..)
  split <;> simp

@[simp] theorem maps_walkMisses (s : State) (w : Walk) : (s.walkMisses w).maps = s.maps := by
  simp [State.walkMisses]

@[simp] theorem maps_answer (s : State) (w : Walk) : (s.answer w).maps = s.maps := by
  unfold State.answer
  split <;> simp

@[simp] theorem fixes_execTranslationWalk {M} (k : Nat) (s : State) (hs : s.maps = M) :
    Fixes M (execTranslationWalk k s) := by
  unfold execTranslationWalk
  split <;> simp [*]

@[simp] theorem maps_passed (s : State) (unit : Option Nat) (writes : Bool) (asid : Nat) (vpn : Nat) :
    (s.passed unit writes asid vpn).maps = s.maps := by
  unfold State.passed
  (repeat' split) <;> simp [*]

@[simp] theorem fixes_execResolveWrite {M} (idx : Nat) (s : State) (hs : s.maps = M) :
    Fixes M (execResolveWrite idx s) := by
  unfold execResolveWrite
  (repeat' split) <;> simp +contextual [*]

@[simp] theorem maps_retryFault (s : State) (p : Unrecorded) : (s.retryFault p).maps = s.maps := by
  unfold State.retryFault
  split <;> simp

@[simp] theorem fixes_execFqhWrite {M} (v : Nat) (s : State) (hs : s.maps = M) :
    Fixes M (execFqhWrite v s) := by simp [execFqhWrite, hs]

@[simp] theorem maps_resend (s : State) (t : Nat) : (s.resend t).maps = s.maps := by
  unfold State.resend
  split <;> simp

@[simp] theorem fixes_execRemoteXlatRetry {M} (t : Nat) (s : State) (hs : s.maps = M) :
    Fixes M (execRemoteXlatRetry t s) := by
  unfold execRemoteXlatRetry
  split <;> simp [*]

@[simp] theorem maps_xinv (s : State) (f : Nat → Nat → Bool) : (s.xinv f).maps = s.maps := by
  simp [State.xinv]

@[simp] theorem maps_setMigst (s : State) (n : Nat) : (s.setMigst n).maps = s.maps := by simp [State.setMigst]

@[simp] theorem maps_markMig (s : State) (t f : Nat) (on : Bool) : (s.markMig t f on).maps = s.maps := by
  simp [State.markMig]

@[simp] theorem fixes_execMigrationStart {M} (dst src : Nat) (s : State) (hs : s.maps = M) :
    Fixes M (execMigrationStart dst src s) := by simp [execMigrationStart, hs]

@[simp] theorem fixes_execMigrationAbort {M} (s : State) (hs : s.maps = M) :
    Fixes M (execMigrationAbort s) := by
  unfold execMigrationAbort
  split <;> simp [*]

@[simp] theorem fixes_execMigrationPinsClear {M} (s : State) (hs : s.maps = M) :
    Fixes M (execMigrationPinsClear s) := by
  unfold execMigrationPinsClear
  split <;> simp [*]

@[simp] theorem fixes_execMigrationDrainDone {M} (s : State) (hs : s.maps = M) :
    Fixes M (execMigrationDrainDone s) := by
  unfold execMigrationDrainDone
  split <;> simp [*]

@[simp] theorem maps_copyFrame (s : State) (src : Nat) (dst : Nat) :
    (s.copyFrame src dst).maps = s.maps := by simp [State.copyFrame]

@[simp] theorem maps_commitMig (s : State) (m : Migration) : (s.commitMig m).maps = s.maps := by
  simp [State.commitMig]

@[simp] theorem fixes_execMigrationCommit {M} (s : State) (hs : s.maps = M) :
    Fixes M (execMigrationCommit s) := by
  unfold execMigrationCommit
  split <;> simp [*]

@[simp] theorem maps_failMig (s : State) (m : Migration) : (s.failMig m).maps = s.maps := by
  simp [State.failMig]

@[simp] theorem maps_storeSegs : ∀ (gs : List (Home × Nat)) (bs : List Byte) (s : State),
    (s.storeSegs gs bs).maps = s.maps
  | [], _, _ => rfl
  | (_, _) :: t, _, _ => (maps_storeSegs t _ _).trans (maps_storeHome ..)

@[simp] theorem maps_devMark (s : State) (ctx va n : Nat) (d : Bool) :
    (s.devMark ctx va n d).maps = s.maps := by simp [State.devMark]

theorem maps_devWrite {s : State} {ctx va : Nat} {bs : List Byte} {u : State} (h : s.devWrite ctx va bs = .ok u) :
    u.maps = s.maps := by
  unfold State.devWrite at h
  split at h
  · cases h; simp
  · cases h

/-! ### Network -/

@[simp] theorem maps_dropStores (s : State) (n : Nat) (k : Nat) : (s.dropStores n k).maps = s.maps := by
  simp [State.dropStores]

@[simp] theorem maps_dropOldest (s : State) (n : Nat) : (s.dropOldest n).maps = s.maps := by
  simp [State.dropOldest]

@[simp] theorem fixes_execStoreBufferDrain {M} (n : Nat) (s : State) (hs : s.maps = M) :
    Fixes M (execStoreBufferDrain n s) := by
  simp only [execStoreBufferDrain]
  (repeat' split) <;> simp +contextual [*]

@[simp] theorem maps_performStore (s : State) (k : Nat) (f : Flying) :
    (s.performStore k f).maps = s.maps := by simp [State.performStore]

@[simp] theorem fixes_execAcknowledgementReceive {M} (k : Nat) (s : State) (hs : s.maps = M) :
    Fixes M (execAcknowledgementReceive k s) := by
  unfold execAcknowledgementReceive
  split <;> simp [*]

@[simp] theorem fixes_execCsetup {M} (d : XReg) (s t : XSrc) (st : State) (hs : st.maps = M) :
    Fixes M (execCsetup d s t st) := by
  unfold execCsetup
  (repeat' split) <;> simp +contextual [*]

@[simp] theorem fixes_execCrel {M} (s : XSrc) (st : State) (hs : st.maps = M) : Fixes M (execCrel s st) := by
  simp only [execCrel]
  split <;> simp [*]

@[simp] theorem maps_releaseBefore (s : State) (p : SetUp) : (s.releaseBefore p).maps = s.maps := by
  simp [State.releaseBefore]

@[simp] theorem fixes_execCircuitSetupHop {M} (k : Nat) (s : State) (hs : s.maps = M) :
    Fixes M (execCircuitSetupHop k s) := by
  unfold execCircuitSetupHop
  (repeat' split) <;> simp +contextual [*]

@[simp] theorem fixes_execCircuitReply {M} (k : Nat) (s : State) (hs : s.maps = M) :
    Fixes M (execCircuitReply k s) := by
  unfold execCircuitReply
  split <;> simp [*]

@[simp] theorem fixes_execCircuitIdleTimeout {M} (n id : Nat) (s : State) (hs : s.maps = M) :
    Fixes M (execCircuitIdleTimeout n id s) := by
  unfold execCircuitIdleTimeout
  split <;> simp [*]

@[simp] theorem fixes_execCircuitTeardownAck {M} (k : Nat) (s : State) (hs : s.maps = M) :
    Fixes M (execCircuitTeardownAck k s) := by
  unfold execCircuitTeardownAck
  (repeat' split) <;> simp +contextual [*]

@[simp] theorem maps_freeRSlot (s : State) (r : Nat × Fin 8) : (s.freeRSlot r).maps = s.maps := by
  simp [State.freeRSlot]

@[simp] theorem maps_agedTrap (s : State) : s.agedTrap.maps = s.maps := by simp [State.agedTrap]

/-! ### Remote -/

@[simp] theorem maps_respond (s : State) (r : Request) (x : Remote) : (s.respond r x).maps = s.maps := by
  unfold State.respond
  (repeat' split) <;> simp [*]

@[simp] theorem maps_serveRead (s : State) (r : Request) (segs : List (Nat × Nat)) :
    (s.serveRead r segs).maps = s.maps := by
  unfold State.serveRead
  (repeat' split) <;> simp [*]

@[simp] theorem maps_taint (s : State) (segs : List (Home × Nat)) (bad : List Nat) :
    (s.taint segs bad).maps = s.maps := by simp [State.taint]

@[simp] theorem maps_armWatch (s : State) (r : Request) (pas : List (Nat × Nat)) :
    (s.armWatch r pas).maps = s.maps := by
  simp only [State.armWatch]
  (repeat' split) <;> simp [*]

@[simp] theorem maps_serve (s : State) (r : Request) (unit asid : Nat) (pas : List (Nat × Nat)) :
    (s.serve r unit asid pas).maps = s.maps := by
  simp only [State.serve]
  (repeat' split) <;> simp

@[simp] theorem maps_refuseRequest (s : State) (r : Request) (off : Nat) :
    (s.refuseRequest r off).maps = s.maps := by simp [State.refuseRequest]

@[simp] theorem fixes_execRemoteRequestReceive {M} (k : Nat) (s : State) (hs : s.maps = M) :
    Fixes M (execRemoteRequestReceive k s) := by
  unfold execRemoteRequestReceive
  (repeat' split) <;> simp +contextual [*]

@[simp] theorem maps_remoteTrap (s : State) (k : RSlot) (c : Cause) (off : Nat) :
    (s.remoteTrap k c off).maps = s.maps := by simp [State.remoteTrap]

@[simp] theorem maps_remoteMiss (s : State) (k : RSlot) : (s.remoteMiss k).maps = s.maps := by
  simp [State.remoteMiss]

@[simp] theorem maps_spinwData (s : State) (k : RSlot) (d : XReg) (e : Nat) (v : Word) :
    (s.spinwData k d e v).maps = s.maps := by simp [State.spinwData]

@[simp] theorem maps_keepX (s : State) (r : XReg) : (s.keepX r).maps = s.maps := by simp [State.keepX]

@[simp] theorem maps_remoteData (s : State) (k : RSlot) (v : Nat) : (s.remoteData k v).maps = s.maps := by
  unfold State.remoteData
  split <;> simp

@[simp] theorem maps_remoteWrite (s : State) : s.remoteWrite.maps = s.maps := by
  unfold State.remoteWrite
  (repeat' split) <;> simp [*]

/-! ### Mirror -/

@[simp] theorem maps_setMirrorQueue (s : State) (src : Nat) (q : List MirrorStore) :
    (s.setMirrorQueue src q).maps = s.maps := by simp [State.setMirrorQueue]

@[simp] theorem maps_applyPiece (s : State) (m : MirrorStore) : (s.applyPiece m).maps = s.maps := by
  simp [State.applyPiece]

@[simp] theorem maps_giveBack (s : State) (xs : List SentSlot) (src : Nat) :
    (s.giveBack xs src).maps = s.maps := by simp [State.giveBack]

@[simp] theorem fixes_command {M} (s : State) (c : Command) (k : State → State) (hs : s.maps = M)
    (hk : ∀ u, (k u).maps = u.maps) : Fixes M (s.command c k) := by
  unfold State.command
  split <;> simp [hk, hs]

@[simp] theorem maps_layerIs (s : State) (l : Nat) (goal : LState) : (s.layerIs l goal).maps = s.maps := by
  simp [State.layerIs]

@[simp] theorem fixes_execLayerWakeCommand {M} (l : Nat) (s : State) (hs : s.maps = M) :
    Fixes M (execLayerWakeCommand l s) :=
  fixes_command _ _ _ hs fun u => by split <;> simp

@[simp] theorem fixes_execLayerDrowsyCommand {M} (l : Nat) (s : State) (hs : s.maps = M) :
    Fixes M (execLayerDrowsyCommand l s) := by
  unfold execLayerDrowsyCommand
  split
  · exact fixes_command _ _ _ hs fun u => by split <;> simp
  · simpa

@[simp] theorem fixes_execLayerSleepCommand {M} (l : Nat) (s : State) (hs : s.maps = M) :
    Fixes M (execLayerSleepCommand l s) := by
  unfold execLayerSleepCommand
  split
  · exact fixes_command _ _ _ hs fun u => by split <;> simp
  · simpa

@[simp] theorem maps_mergePoison (s : State) (l chunk : Nat) (w : Waking) :
    (s.mergePoison l chunk w).maps = s.maps := by simp [State.mergePoison]

@[simp] theorem fixes_execWakeChunkMerge {M} (l chunk : Nat) (s : State) (hs : s.maps = M) :
    Fixes M (execWakeChunkMerge l chunk s) := by
  unfold execWakeChunkMerge
  split <;> simp [*]

@[simp] theorem fixes_lctl {M} (st : State) (d : XReg) (s : XSrc) (goal : LState) (cmd : Nat → Command)
    (from_ : LState → Bool) (empties : Bool) (hs : st.maps = M) :
    Fixes M (st.lctl d s goal cmd from_ empties) := by simp [State.lctl, hs]

/-! ### Wells -/

@[simp] theorem maps_putWellSlot (s : State) (w : WellSlot) : (s.putWellSlot w).maps = s.maps := by
  simp [State.putWellSlot]

@[simp] theorem maps_modWell (s : State) (home idx : Nat) (f : Well → Well) :
    (s.modWell home idx f).maps = s.maps := by
  simp only [State.modWell]
  (repeat' split) <;> simp [*]

@[simp] theorem maps_newWell (s : State) (ctx idx : Nat) (x : WellDesc) :
    (s.newWell ctx idx x).2.maps = s.maps := by simp [State.newWell]

@[simp] theorem fixes_execRnew {M} (d : XReg) (s : XSrc) (st : State) (hs : st.maps = M) :
    Fixes M (execRnew d s st) := by
  refine fixes_guard _ _ _ _ hs ?_
  extract_lets v x
  split
  · simp [hs]
  · split <;> simp [hs]

@[simp] theorem maps_ackTerm (s : State) (t : Term) (landed : Bool) :
    (s.ackTerm t landed).maps = s.maps := by
  unfold State.ackTerm
  split <;> simp

@[simp] theorem maps_replyTerm (s : State) (t : Term) (x : TermPhase) : (s.replyTerm t x).maps = s.maps := by
  unfold State.replyTerm
  split <;> simp

@[simp] theorem maps_grantTerm (s : State) (home : Nat) (idx : Nat) :
    (s.grantTerm home idx).maps = s.maps := by
  unfold State.grantTerm
  (repeat' split) <;> simp [*]

@[simp] theorem fixes_post {M} (st : State) (h a tag : Word) (l c f : Bool) (hs : st.maps = M) :
    Fixes M (st.post h a tag l c f) := by
  unfold State.post
  split <;> simp [*]

@[simp] theorem fixes_execRpost {M} (d s t : XSrc) (l c f : Bool) (st : State) (hs : st.maps = M) :
    Fixes M (execRpost d s t l c f st) := by
  unfold execRpost
  split <;> simp [*]

@[simp] theorem fixes_execWellReservationRequest {M} (k : Nat) (s : State) (hs : s.maps = M) :
    Fixes M (execWellReservationRequest k s) := by
  unfold execWellReservationRequest
  (repeat' split) <;> simp +contextual [*]

@[simp] theorem fixes_execWellReservationReply {M} (n : Nat) (s : State) (hs : s.maps = M) :
    Fixes M (execWellReservationReply n s) := by
  unfold execWellReservationReply
  (repeat' split) <;> simp +contextual [*]

@[simp] theorem maps_cleanCol (s : State) (home idx seg : Nat) (c : Nat) :
    (s.cleanCol home idx seg c).maps = s.maps := by simp [State.cleanCol]

@[simp] theorem maps_spreadCol (s : State) (home idx seg src : Nat) (dst : Nat) :
    (s.spreadCol home idx seg src dst).maps = s.maps := by simp [State.spreadCol]

@[simp] theorem fixes_execWellSegmentStage {M} (k seg : Nat) (s : State) (hs : s.maps = M) :
    Fixes M (execWellSegmentStage k seg s) := by
  unfold execWellSegmentStage
  (repeat' split) <;> simp +contextual [*]

@[simp] theorem maps_putRead (s : State) (r : WellRead) : (s.putRead r).maps = s.maps := by
  simp [State.putRead]

@[simp] theorem maps_tryRead (s : State) (r : WellRead) : (s.tryRead r).maps = s.maps := by
  unfold State.tryRead
  split <;> simp

@[simp] theorem maps_recheckRead (s : State) (r : WellRead) : (s.recheckRead r).maps = s.maps := by
  simp [State.recheckRead]

@[simp] theorem maps_recheck (s : State) (home : Nat) (idx : Nat) : (s.recheck home idx).maps = s.maps := by
  simp [State.recheck]

@[simp] theorem fixes_execWellTermClassify {M} (k : Nat) (s : State) (hs : s.maps = M) :
    Fixes M (execWellTermClassify k s) := by
  unfold execWellTermClassify
  (repeat' split) <;> simp +contextual [*]

@[simp] theorem maps_readArrives (s : State) (r : WellRead) : (s.readArrives r).maps = s.maps := by
  unfold State.readArrives
  split <;> simp

@[simp] theorem fixes_execWellReadRequest {M} (n : Nat) (s : State) (hs : s.maps = M) :
    Fixes M (execWellReadRequest n s) := by
  unfold execWellReadRequest
  split <;> simp [*]

@[simp] theorem fixes_execWellReadRetry {M} (n : Nat) (s : State) (hs : s.maps = M) :
    Fixes M (execWellReadRetry n s) := by
  unfold execWellReadRetry
  split <;> simp [*]

@[simp] theorem fixes_execWellReadDeadline {M} (n : Nat) (s : State) (hs : s.maps = M) :
    Fixes M (execWellReadDeadline n s) := by
  simp only [execWellReadDeadline]
  (repeat' split) <;> simp +contextual [*]

@[simp] theorem fixes_askRead {M} (st : State) (delta : Bool) (d : XReg) (h a : Word) (f : Bool)
    (hs : st.maps = M) : Fixes M (st.askRead delta d h a f) := by
  unfold State.askRead
  split
  · simp [hs]
  · split
    · split
      · simp [hs]
      · refine fixes_access _ _ _ _ _ hs fun segs => ?_
        simp only
        split
        · simp [hs]
        · split
          · simp [hs]
          · exact fixes_access _ _ _ _ _ hs fun _ => fixes_access _ _ _ _ _ hs fun _ => by simp [hs]
    · simp [hs]

@[simp] theorem fixes_readWell {M} (st : State) (delta : Bool) (d : XReg) (s t : XSrc) (f : Bool)
    (hs : st.maps = M) : Fixes M (st.readWell delta d s t f) := by
  unfold State.readWell
  split
  · simp [hs]
  · exact fixes_guard _ _ _ _ hs (fixes_askRead _ _ _ _ _ _ hs)

@[simp] theorem maps_endRead (s : State) (r : WellRead) (status : Nat) (v : Word) :
    (s.endRead r status v).maps = s.maps := by
  unfold State.endRead
  split <;> simp

@[simp] theorem maps_writeRead (s : State) (r : WellRead) (els : List (Option ℤ)) (e : ℤ)
    (t mask : Nat) (psat pinv dl : Bool) (segs : List (Home × Nat)) :
    (s.writeRead r els e t mask psat pinv dl segs).maps = s.maps := by
  simp only [State.writeRead]
  (repeat' split) <;> simp [*]

@[simp] theorem maps_finishRead (s : State) (r : WellRead) : (s.finishRead r).maps = s.maps := by
  unfold State.finishRead
  extract_lets u
  have hu : u.maps = s.maps := rfl
  cases r.phase with
  | refused v => exact (maps_takeTrap ..).trans hu
  | retired => exact (maps_endRead ..).trans hu
  | placed t mask psat pinv dl =>
    cases r.elements r.d with
    | none => rfl
    | some els =>
      simp only
      split
      · exact (maps_writeRead ..).trans hu
      · exact (maps_takeTrap ..).trans hu
      · exact (maps_takeTrap ..).trans (Eq.trans (by rw [maps_mk]; rfl) hu)
      · exact maps_askWalk ..
  | sent | waiting | returned => rfl

@[simp] theorem fixes_execWellReadResult {M} (n : Nat) (s : State) (hs : s.maps = M) :
    Fixes M (execWellReadResult n s) := by
  unfold execWellReadResult
  split <;> simp [*]

@[simp] theorem maps_bankDoes (s : State) (home idx seg : Nat) (b : Bank) (e : WellEvent) :
    (s.bankDoes home idx seg b e).maps = s.maps := by
  unfold State.bankDoes
  (repeat' split) <;> simp [*]

@[simp] theorem maps_answerFree (s : State) (w : Well) : (s.answerFree w).maps = s.maps := by
  unfold State.answerFree
  split <;> simp

@[simp] theorem maps_trimWell (s : State) (home : Nat) (idx : Nat) :
    (s.trimWell home idx).maps = s.maps := by
  simp only [State.trimWell]
  (repeat' split) <;> simp [*]

@[simp] theorem fixes_execWellBankEvent {M} (home idx seg : Nat) (s : State) (hs : s.maps = M) :
    Fixes M (execWellBankEvent home idx seg s) := by
  unfold execWellBankEvent
  (repeat' split) <;> simp +contextual [*]

@[simp] theorem fixes_onWell {M} (st : State) (h : Word) (k : Well → Out) (hs : st.maps = M)
    (hk : ∀ a1, Fixes M (k a1)) : Fixes M (st.onWell h k) := by
  unfold State.onWell
  split <;> simp [*]

@[simp] theorem maps_absent (s : State) (h : Word) (tag : Word) : (s.absent h tag).maps = s.maps := by
  simp [State.absent]

@[simp] theorem fixes_execRabsent {M} (s t : XSrc) (st : State) (hs : st.maps = M) :
    Fixes M (execRabsent s t st) := by
  refine fixes_guard _ _ _ _ hs (fixes_onWell _ _ _ hs fun w => ?_)
  simp [hs]

@[simp] theorem maps_advanceWell (s : State) (h : Word) : (s.advanceWell h).maps = s.maps := by
  simp [State.advanceWell]

@[simp] theorem maps_clearWell (s : State) (home : Nat) (idx : Nat) :
    (s.clearWell home idx).maps = s.maps := by
  simp only [State.clearWell]
  refine (maps_foldl (fun u a => ?_) ..).trans ?_
  · (repeat' split) <;> simp [*]
  · simp

@[simp] theorem maps_freeWell (s : State) (home idx : Nat) (by_ : Nat) :
    (s.freeWell home idx by_).maps = s.maps := by simp [State.freeWell]

@[simp] theorem fixes_execRfree {M} (s : XSrc) (st : State) (hs : st.maps = M) :
    Fixes M (execRfree s st) := by
  unfold execRfree
  split <;> simp [*]

@[simp] theorem fixes_rstat {M} (st : State) (d : XReg) (s : XSrc) (t : List XSrc) (f : Well → Nat)
    (hs : st.maps = M) : Fixes M (st.rstat d s t f) := by simp [State.rstat, hs]

@[simp] theorem fixes_execWellTermAgeDiscard {M} (k : Nat) (s : State) (hs : s.maps = M) :
    Fixes M (execWellTermAgeDiscard k s) := by
  unfold execWellTermAgeDiscard
  (repeat' split) <;> simp +contextual [*]

@[simp] theorem maps_destroyWells (s : State) (l : Nat) : (s.destroyWells l).maps = s.maps := by
  unfold State.destroyWells
  refine maps_foldl (fun u w => ?_) _ s
  cases w.well <;> simp

@[simp] theorem maps_dropTerms (s : State) (p : Term → Bool) : (s.dropTerms p).maps = s.maps := by
  simp only [State.dropTerms]
  refine (maps_foldl (fun u a => ?_) ..).trans ?_
  · (repeat' split) <;> simp [*]
  · simp

/-! ### Launch -/

@[simp] theorem maps_setCtxState (s : State) (c : Nat) (n : Nat) : (s.setCtxState c n).maps = s.maps := by
  simp [State.setCtxState]

@[simp] theorem fixes_execContextStart {M} (c : Nat) (s : State) (hs : s.maps = M) :
    Fixes M (execContextStart c s) := by simp [execContextStart, hs]

@[simp] theorem maps_devFault (s : State) (ctx vpn : Nat) (missed : Option Nat) :
    (s.devFault ctx vpn missed).maps = s.maps := by simp [State.devFault]

@[simp] theorem maps_takeSlot (s : State) (q : HostQueue) (b : List Byte) (kind : SlotKind)
    (status : Option Nat) : (s.takeSlot q b kind status).maps = s.maps := by simp [State.takeSlot]

@[simp] theorem maps_slotStopped (s : State) (h : HostQueue) (b : List Byte) (a_ : Reach) :
    (s.slotStopped h b a_).maps = s.maps := by
  unfold State.slotStopped
  split <;> simp

@[simp] theorem maps_grantUnits (s : State) (ctx : Nat) (g : Grants) :
    (s.grantUnits ctx g).maps = s.maps := by simp [State.grantUnits]

@[simp] theorem fixes_execLaunchSlotStart {M} (q : Nat) (s : State) (hs : s.maps = M) :
    Fixes M (execLaunchSlotStart q s) := by
  unfold execLaunchSlotStart
  split
  · simpa
  · extract_lets b no
    split
    · simpa
    · split
      · simp [no, hs]
      · split
        · simp [hs]
        · simp only
          split
          · simp [hs]
          · rename_i hw
            simp [maps_devWrite hw, hs]

@[simp] theorem fixes_execCopySlotStart {M} (q : Nat) (s : State) (hs : s.maps = M) :
    Fixes M (execCopySlotStart q s) := by
  unfold execCopySlotStart
  split <;> simp [*]

@[simp] theorem maps_modSlot (s : State) (k : Nat) (f : Slot → Slot) : (s.modSlot k f).maps = s.maps := by
  simp [State.modSlot]

@[simp] theorem maps_putLaunch (s : State) (k : Nat) (l : Launch) : (s.putLaunch k l).maps = s.maps := by
  simp [State.putLaunch]

@[simp] theorem maps_markTables (s : State) (ctx : Nat) (v : Node) (raster : Nat) :
    (s.markTables ctx v raster).maps = s.maps := by simp [State.markTables]

@[simp] theorem fixes_execPhaseStart {M} (k : Nat) (s : State) (hs : s.maps = M) :
    Fixes M (execPhaseStart k s) := by
  unfold execPhaseStart
  (repeat' split) <;> simp +contextual [*]

@[simp] theorem fixes_execLaunchTaskEnqueue {M} (k : Nat) (s : State) (hs : s.maps = M) :
    Fixes M (execLaunchTaskEnqueue k s) := by
  simp only [execLaunchTaskEnqueue]
  (repeat' split) <;> simp +contextual [*]

@[simp] theorem maps_resetExperts (s : State) (ctx : Nat) : (s.resetExperts ctx).maps = s.maps := by
  simp [State.resetExperts]

@[simp] theorem fixes_execPhaseEnd {M} (k : Nat) (s : State) (hs : s.maps = M) :
    Fixes M (execPhaseEnd k s) := by
  unfold execPhaseEnd
  (repeat' split) <;> simp +contextual [*]

@[simp] theorem maps_signal (s : State) (g : Signal) : (s.signal g).maps = s.maps := by
  unfold State.signal
  extract_lets u
  have hu : u.maps = s.maps := by
    simp only [u]
    split
    · rfl
    · split
      · rename_i hv
        split
        · rename_i hw
          exact (maps_devWrite hw).trans (maps_devWrite hv)
        · exact maps_devWrite hv
      · simp
      · rfl
  split
  · rw [maps_mk]; exact hu
  · exact hu

@[simp] theorem maps_sendSignals (f : Nat) : ∀ (l : List Signal) (s : State), (s.sendSignals f l).maps = s.maps
  | [], _ => rfl
  | g :: t, s => by
    unfold State.sendSignals
    split
    · exact maps_sendSignals f t _
    · split
      · exact (maps_sendSignals f t _).trans (maps_signal ..)
      · simp
      · rfl

@[simp] theorem maps_flushSignals (s : State) (f : Nat) : (s.flushSignals f).maps = s.maps := by
  simp [State.flushSignals]

@[simp] theorem fixes_execSlotCompletion {M} (k : Nat) (s : State) (hs : s.maps = M) :
    Fixes M (execSlotCompletion k s) := by
  unfold execSlotCompletion
  (repeat' split) <;> simp +contextual [*]

/-! ### Engine -/

@[simp] theorem maps_markPages (s : State) (unit : Option Nat) (asid : Nat) (a : Word) (len : Nat)
    (d : Bool) : (s.markPages unit asid a len d).maps = s.maps := by
  unfold State.markPages
  split <;> simp

@[simp] theorem maps_engineStore (s : State) (n : Nat) (h : Home) (bs : List Byte) (bad : List Nat) :
    (s.engineStore n h bs bad).maps = s.maps := by
  unfold State.engineStore
  split <;> simp

@[simp] theorem maps_engineWrite (n : Nat) : ∀ (gs : List (Home × Nat)) (bs : List Byte) (bad : List Nat)
    (s : State), (s.engineWrite n gs bs bad).maps = s.maps
  | [], _, _, _ => rfl
  | (_, _) :: t, _, _, _ => (maps_engineWrite n t _ _ _).trans (maps_engineStore ..)

@[simp] theorem maps_modLock (s : State) (n e : Nat) (f : LockEntry → LockEntry) :
    (s.modLock n e f).maps = s.maps := by simp [State.modLock]

@[simp] theorem maps_engineTrap (s : State) (n e : Nat) (c : Cause) (a : Word) :
    (s.engineTrap n e c a).maps = s.maps := by simp [State.engineTrap]

@[simp] theorem maps_restartAt (s : State) (n : Nat) (w : Wait) : (s.restartAt n w).maps = s.maps := by
  simp [State.restartAt]

@[simp] theorem maps_engineFault (s : State) (n asid : Nat) (vpn : Nat) :
    (s.engineFault n asid vpn).maps = s.maps := by simp [State.engineFault]

@[simp] theorem maps_askPart (s : State) (n e p pkg va : Nat) (op : ReqOp) (bad : List Nat) :
    (s.askPart n e p pkg va op bad).maps = s.maps := by simp [State.askPart]

@[simp] theorem maps_landPart (s : State) (n e p : Nat) (k : LockEntry) (bs : List Byte)
    (bad : List Nat) : (s.landPart n e p k bs bad).maps = s.maps := by
  simp only [State.landPart]
  split <;> simp

@[simp] theorem maps_landElements (s : State) (n e : Nat) (k : LockEntry) (bs : List Byte)
    (bad : List Nat) : (s.landElements n e k bs bad).maps = s.maps := by
  unfold State.landElements
  (repeat' split) <;> simp [*]

@[simp] theorem maps_land (s : State) (n e p : Nat) (k : LockEntry) (bs : List Byte) (bad : List Nat) :
    (s.land n e p k bs bad).maps = s.maps := by
  unfold State.land
  split <;> simp

@[simp] theorem maps_movePart (s : State) (n e p : Nat) (k : LockEntry) :
    (s.movePart n e p k).maps = s.maps := by
  simp only [State.movePart]
  (repeat' split) <;> simp [*]

@[simp] theorem maps_partMiss (s : State) (n e p : Nat) (a : Word) : (s.partMiss n e p a).maps = s.maps := by
  simp [State.partMiss]

@[simp] theorem maps_partBack (s : State) (r : Response) : (s.partBack r).maps = s.maps := by
  unfold State.partBack
  (repeat' split) <;> simp [*]

@[simp] theorem maps_partWritten (s : State) (r : Response) : (s.partWritten r).maps = s.maps := by
  unfold State.partWritten
  (repeat' split) <;> simp [*]

@[simp] theorem maps_storeBack (s : State) (q : Request) (n : Nat) (x : Remote) :
    (s.storeBack q n x).maps = s.maps := by
  unfold State.storeBack
  split <;> simp

@[simp] theorem fixes_execRemoteResponseArrival {M} (k : Nat) (s : State) (hs : s.maps = M) :
    Fixes M (execRemoteResponseArrival k s) := by
  unfold execRemoteResponseArrival
  (repeat' split) <;> simp +contextual [*]

@[simp] theorem maps_copyFault (s : State) (id : Nat) : (s.copyFault id).maps = s.maps := by
  simp [State.copyFault]

@[simp] theorem maps_copyDone (s : State) (id p : Nat) (c : SlotCopy) :
    (s.copyDone id p c).maps = s.maps := by simp [State.copyDone]

@[simp] theorem maps_slotFault (s : State) (id ctx : Nat) (vpn : Nat) :
    (s.slotFault id ctx vpn).maps = s.maps := by simp [State.slotFault]

@[simp] theorem maps_slotMiss (s : State) (id ctx : Nat) (a_ : Reach) :
    (s.slotMiss id ctx a_).maps = s.maps := by
  unfold State.slotMiss
  split <;> simp

@[simp] theorem maps_slotWrite (s : State) (k : Slot) (c : SlotCopy) (p : Nat) (bs : List Byte)
    (bad : List Nat) : (s.slotWrite k c p bs bad).maps = s.maps := by
  simp only [State.slotWrite]
  (repeat' split) <;> simp

@[simp] theorem maps_slotPart (s : State) (id : Nat) (p : Nat) : (s.slotPart id p).maps = s.maps := by
  simp only [State.slotPart]
  (repeat' split) <;> simp [*]

@[simp] theorem fixes_execCopyEnginePart {M} (n e part : Nat) (s : State) (hs : s.maps = M) :
    Fixes M (execCopyEnginePart n e part s) := by
  unfold execCopyEnginePart
  (repeat' split) <;> simp +contextual [*]

@[simp] theorem fixes_execCopyEngineComplete {M} (n e : Nat) (s : State) (hs : s.maps = M) :
    Fixes M (execCopyEngineComplete n e s) := by
  unfold execCopyEngineComplete
  split <;> simp [*]

/-! ### Collective -/

@[simp] theorem maps_setTrigger (s : State) (t : Trigger) : (s.setTrigger t).maps = s.maps := by
  simp [State.setTrigger]

@[simp] theorem maps_raiseTrigger (s : State) (ctx num : Nat) (by_ : Nat) :
    (s.raiseTrigger ctx num by_).maps = s.maps := by simp [State.raiseTrigger]

@[simp] theorem fixes_onTrigger {M} (st : State) (x : Word) (k : Out) (hs : st.maps = M)
    (hk : Fixes M k) : Fixes M (st.onTrigger x k) := by simp +contextual [State.onTrigger, *]

@[simp] theorem maps_setGroupSt (s : State) (g : Nat) (st : Nat) : (s.setGroupSt g st).maps = s.maps := by
  simp [State.setGroupSt]

@[simp] theorem maps_setGroupSeq (s : State) (g : Nat) (n : Nat) : (s.setGroupSeq g n).maps = s.maps := by
  simp [State.setGroupSeq]

@[simp] theorem maps_setGroup (s : State) (x : Group) : (s.setGroup x).maps = s.maps := by
  simp [State.setGroup]

@[simp] theorem maps_sendPacket (s : State) (p : Nat) (b : Body) : (s.sendPacket p b).maps = s.maps := by
  simp [State.sendPacket]

@[simp] theorem maps_drop (s : State) : s.drop.maps = s.maps := by simp [State.drop]

@[simp] theorem maps_writeAbort (s : State) (g : Nat) (seq' : Nat) (failed : Bool) :
    (s.writeAbort g seq' failed).maps = s.maps := by simp [State.writeAbort]

@[simp] theorem maps_reopen (s : State) (g : Nat) (seq' : Nat) : (s.reopen g seq').maps = s.maps := by
  simp [State.reopen]

@[simp] theorem maps_settleAbort (s : State) (g : Nat) : (s.settleAbort g).maps = s.maps := by
  unfold State.settleAbort
  (repeat' split) <;> simp [*]

@[simp] theorem maps_discardEntry (s : State) (e : CEntry) : (s.discardEntry e).maps = s.maps := by
  simp [State.discardEntry]

@[simp] theorem maps_dropGroup (s : State) (g : Nat) : (s.dropGroup g).maps = s.maps := by
  simp only [State.dropGroup]
  refine (maps_dropTerms _ _).trans ?_
  rw [maps_mk]
  exact maps_foldl maps_discardEntry _ s

@[simp] theorem maps_tell (s : State) (g reason pkg : Nat) : (s.tell g reason pkg).maps = s.maps := by
  simp only [State.tell]
  refine (maps_settleAbort _ _).trans ((maps_setGroup _ _).trans ((maps_dropGroup _ _).trans ?_))
  exact maps_foldl (fun u c => maps_sendPacket u c _) _ s

@[simp] theorem maps_startAbort (s : State) (g reason pkg : Nat) (detected : Bool) :
    (s.startAbort g reason pkg detected).maps = s.maps := by
  simp only [State.startAbort]
  (repeat' split) <;> simp [*]

@[simp] theorem maps_abortHere (s : State) (g : Nat) (reason : Nat) :
    (s.abortHere g reason).maps = s.maps := by simp [State.abortHere]

@[simp] theorem maps_abortPeerIn (s : State) (p reason : Nat) (acks : Bool) (ok : Nat → Bool) :
    (s.abortPeerIn p reason acks ok).maps = s.maps := by simp [State.abortPeerIn]

@[simp] theorem maps_abortPeer (s : State) (p reason : Nat) (acks : Bool) :
    (s.abortPeer p reason acks).maps = s.maps := by simp [State.abortPeer]

@[simp] theorem fixes_onGroup {M} (st : State) (x : Word) (k : Out) (hs : st.maps = M)
    (hk : Fixes M k) : Fixes M (st.onGroup x k) := by simp +contextual [State.onGroup, *]

@[simp] theorem maps_setQp (s : State) (q : QueuePair) : (s.setQp q).maps = s.maps := by simp [State.setQp]

@[simp] theorem maps_append (s : State) (n : Nat) (e : CEntry) : (s.append n e).maps = s.maps := by
  simp [State.append]

@[simp] theorem fixes_execCqpost {M} (d : XReg) (s t : XSrc) (st : State) (hs : st.maps = M) :
    Fixes M (execCqpost d s t st) := by
  refine fixes_guard _ _ _ _ hs ?_
  simp only
  split
  · split
    · simp [hs]
    · refine fixes_access _ _ _ _ _ hs fun segs => ?_
      split
      · simp [hs]
      · split <;> simp [hs]
  · simp [hs]

@[simp] theorem maps_revokePair (s : State) (n : Nat) : (s.revokePair n).maps = s.maps := by
  simp [State.revokePair]

@[simp] theorem maps_revokeFrozen (s : State) (m : Nat × Nat) : (s.revokeFrozen m).maps = s.maps := by
  simp [State.revokeFrozen]

@[simp] theorem maps_readSource (qp : Nat) (e : CEntry) : ∀ (l : List Nat) (s : State),
    (s.readSource qp e l).1.maps = s.maps
  | [], _ => rfl
  | i :: t, s => by
    unfold State.readSource
    extract_lets a
    split
    · simp only
      split
      · simp
      · exact (maps_readSource qp e t _).trans (maps_markPages ..)
    · rfl
    · simp
    · simp
    · rfl

@[simp] theorem maps_sendParts (s : State) (e : CEntry) (ps : List Part) :
    (s.sendParts e ps).maps = s.maps := by
  unfold State.sendParts
  split
  · rfl
  · split
    · rfl
    · exact maps_foldl (fun _ _ => maps_sendPacket ..) _ s

@[simp] theorem maps_fireHead (s : State) (q : QueuePair) (e : CEntry) : (s.fireHead q e).maps = s.maps := by
  simp only [State.fireHead]
  split <;> simp

@[simp] theorem fixes_execCollectiveEntryFire {M} (qp : Nat) (s : State) (hs : s.maps = M) :
    Fixes M (execCollectiveEntryFire qp s) := by
  simp only [execCollectiveEntryFire]
  split <;> simp [*]

@[simp] theorem maps_ackPart (s : State) (p : Part) (landed : Bool) :
    (s.ackPart p landed).maps = s.maps := by simp [State.ackPart]

@[simp] theorem maps_termArrives (s : State) (p : Part) : (s.termArrives p).maps = s.maps := by
  simp only [State.termArrives]
  (repeat' split) <;> simp [*]

@[simp] theorem maps_partArrives (s : State) (p : Part) : (s.partArrives p).maps = s.maps := by
  simp only [State.partArrives]
  (repeat' split) <;> simp

@[simp] theorem fixes_execCollectivePartArrival {M} (k : Nat) (s : State) (hs : s.maps = M) :
    Fixes M (execCollectivePartArrival k s) := by
  unfold execCollectivePartArrival
  split <;> simp [*]

@[simp] theorem maps_endEntry (s : State) (f : Fired) : (s.endEntry f).maps = s.maps := by
  simp [State.endEntry]

@[simp] theorem maps_modFired (s : State) (id : Nat) (f : Fired → Fired) :
    (s.modFired id f).maps = s.maps := by simp [State.modFired]

@[simp] theorem fixes_execCollectiveEntryComplete {M} (k : Nat) (s : State) (hs : s.maps = M) :
    Fixes M (execCollectiveEntryComplete k s) := by
  simp only [execCollectiveEntryComplete]
  (repeat' split) <;> simp +contextual [*]

@[simp] theorem fixes_execCollectiveTimeout {M} (k : Nat) (s : State) (hs : s.maps = M) :
    Fixes M (execCollectiveTimeout k s) := by
  unfold execCollectiveTimeout
  split <;> simp [*]

/-! ### Gangstop -/

@[simp] theorem maps_haltCore (s : State) (n : Nat) : (s.haltCore n).maps = s.maps := by simp [State.haltCore]

@[simp] theorem maps_settleAged (s : State) (n : Nat) : (s.settleAged n).maps = s.maps := by
  unfold State.settleAged
  split <;> simp

theorem maps_saveStopped {s : State} {n : Nat} {u : State} (h : s.saveStopped n = some u) : u.maps = s.maps := by
  simp only [State.saveStopped] at h
  obtain ⟨r, -, rfl⟩ := Option.map_eq_some_iff.1 h
  simp

theorem maps_saveAll {l : List Core} : ∀ {s u : State},
    l.foldl (fun (r : Option State) k => r.bind (·.saveStopped k.num)) (some s) = some u → u.maps = s.maps := by
  induction l with
  | nil => intro s u h; cases h; rfl
  | cons k t ih =>
    intro s u h
    simp only [List.foldl_cons, Option.bind_some] at h
    cases hk : s.saveStopped k.num with
    | none =>
      have hn : t.foldl (fun (r : Option State) k => r.bind (·.saveStopped k.num)) none = none :=
        List.foldlRecOn (motive := (· = none)) t _ rfl fun _ hr _ _ => by simp [hr]
      simp [hk, hn] at h
    | some v =>
      rw [hk] at h
      exact (ih h).trans (maps_saveStopped hk)

@[simp] theorem fixes_execGangStopDrainComplete {M} (c : Nat) (s : State) (hs : s.maps = M) :
    Fixes M (execGangStopDrainComplete c s) := by
  unfold execGangStopDrainComplete
  split
  · split
    · rename_i h
      simp [maps_saveAll h, hs]
    · simpa
  · simpa

@[simp] theorem maps_requeue (s : State) (k : Record) : (s.requeue k).maps = s.maps := by
  unfold State.requeue
  split <;> simp

@[simp] theorem maps_recompose (g : Nat) (s : State) : (s.recompose g).maps = s.maps := by
  simp [State.recompose]

@[simp] theorem maps_release (n : Nat) (s : State) : (s.release n).maps = s.maps := by simp [State.release]

@[simp] theorem fixes_execRecordRestore {M} (c r k : Nat) (s : State) (hs : s.maps = M) :
    Fixes M (execRecordRestore c r k s) := by
  simp only [execRecordRestore]
  split
  · simpa
  · split
    · simp [hs]
    · split
      · split
        · simpa
        · rename_i hu
          simp [maps_parkSave hu, hs]
      · simpa

@[simp] theorem maps_loseRecords (s : State) (l : Nat) : (s.loseRecords l).maps = s.maps := by
  simp [State.loseRecords]

/-! ### Gates -/

@[simp] theorem maps_dropGate (s : State) (x : Gate) : (s.dropGate x).maps = s.maps := by
  simp [State.dropGate]

@[simp] theorem fixes_execGateListAtRouter {M} (k : Nat) (s : State) (hs : s.maps = M) :
    Fixes M (execGateListAtRouter k s) := by
  unfold execGateListAtRouter
  split <;> simp [*]

@[simp] theorem fixes_execGateListHoldExpiry {M} (k : Nat) (s : State) (hs : s.maps = M) :
    Fixes M (execGateListHoldExpiry k s) := by
  unfold execGateListHoldExpiry
  split <;> simp [*]

@[simp] theorem fixes_execGateListAtRoot {M} (k : Nat) (s : State) (hs : s.maps = M) :
    Fixes M (execGateListAtRoot k s) := by
  simp only [execGateListAtRoot]
  (repeat' split) <;> simp +contextual [*]

@[simp] theorem fixes_askSlot {M} (st : State) (d : XReg) (x : Word) (b : List Byte)
    (hs : st.maps = M) : Fixes M (st.askSlot d x b) := by simp [State.askSlot, hs]

@[simp] theorem fixes_execDispatch {M} (d : XReg) (s : XSrc) (st : State) (hs : st.maps = M) :
    Fixes M (execDispatch d s st) := by
  unfold execDispatch
  split
  · simp [hs]
  · refine fixes_guard _ _ _ _ hs ?_
    simp only
    split <;> simp [hs]

@[simp] theorem maps_endDispatch (s : State) (r : SlotReq) (v : Word) :
    (s.endDispatch r v).maps = s.maps := by simp [State.endDispatch]

@[simp] theorem maps_rejectToken (s : State) (r : SlotReq) : (s.rejectToken r).maps = s.maps := by
  unfold State.rejectToken
  (repeat' split) <;> simp [*]

@[simp] theorem maps_niStore (s : State) (n ctx pkg va : Nat) (bs : List Byte) :
    (s.niStore n ctx pkg va bs).maps = s.maps := by simp [State.niStore]

@[simp] theorem maps_slotAbsent (s : State) (k : Nat) (r : SlotReq) (asid : Nat) (vpn : Nat) :
    (s.slotAbsent k r asid vpn).maps = s.maps := by simp [State.slotAbsent]

@[simp] theorem maps_slotDenied (s : State) (r : SlotReq) (a : Word) : (s.slotDenied r a).maps = s.maps := by
  simp [State.slotDenied]

@[simp] theorem maps_fillSlot (s : State) (k : Nat) (r : SlotReq) (n : Nat) :
    (s.fillSlot k r n).maps = s.maps := by
  simp only [State.fillSlot]
  (repeat' split) <;> simp

@[simp] theorem maps_fillRemote (s : State) (k : Nat) (r : SlotReq) (n : Nat) :
    (s.fillRemote k r n).maps = s.maps := by simp [State.fillRemote]

@[simp] theorem fixes_execDispatchSlotRequest {M} (k : Nat) (s : State) (hs : s.maps = M) :
    Fixes M (execDispatchSlotRequest k s) := by
  unfold execDispatchSlotRequest
  (repeat' split) <;> simp +contextual [*]

/-! ### Health -/

@[simp] theorem maps_countCorrected (s : State) (l : Nat) : (s.countCorrected l).maps = s.maps := by
  simp [State.countCorrected]

@[simp] theorem maps_uncorrectable (s : State) (p : Place) : (s.uncorrectable p).maps = s.maps := by
  unfold State.uncorrectable
  split <;> simp

@[simp] theorem maps_spoil (s : State) (p : Place) : (s.spoil p).maps = s.maps := by
  unfold State.spoil
  split <;> simp

@[simp] theorem fixes_execSoftError {M} (p : Place) (unc : Bool) (s : State) (hs : s.maps = M) :
    Fixes M (execSoftError p unc s) := by
  simp only [execSoftError]
  (repeat' split) <;> simp +contextual [*]

@[simp] theorem maps_scrub (s : State) (p : Place) (unc : Bool) : (s.scrub p unc).maps = s.maps := by
  simp [State.scrub]

@[simp] theorem fixes_execCecClear {M} (l : Nat) (s : State) (hs : s.maps = M) :
    Fixes M (execCecClear l s) := by simp [execCecClear, hs]

@[simp] theorem fixes_execWareaWrite {M} (r slice n : Nat) (s : State) (hs : s.maps = M) :
    Fixes M (execWareaWrite r slice n s) := by simp [execWareaWrite, hs]

/-! ### Links -/

@[simp] theorem maps_putEnclave (s : State) (e : Enclave) : (s.putEnclave e).maps = s.maps := by
  simp [State.putEnclave]

@[simp] theorem maps_sealOne (s : State) (m : OutMsg) : (s.sealOne m).maps = s.maps := by
  unfold State.sealOne
  (repeat' split) <;> simp [*]

@[simp] theorem maps_seal (s : State) (n : Nat) : (s.seal n).maps = s.maps := by simp [State.seal]

@[simp] theorem maps_losePeerIn (s : State) (p : Nat) (ok : Nat → Bool) :
    (s.losePeerIn p ok).maps = s.maps := by simp [State.losePeerIn]

@[simp] theorem maps_losePeer (s : State) (p : Nat) : (s.losePeer p).maps = s.maps := by simp [State.losePeer]

@[simp] theorem maps_aeadFailure (s : State) (p : Nat) (kn : Nat) : (s.aeadFailure p kn).maps = s.maps := by
  simp [State.aeadFailure]

@[simp] theorem maps_await (s : State) (i : Instr) : (s.await i).maps = s.maps := by simp [State.await]

@[simp] theorem maps_accept (s : State) (p : Packet) : (s.accept p).maps = s.maps := by
  unfold State.accept
  split <;> simp

@[simp] theorem maps_setBadFrom (s : State) (p : Nat) (n : Nat) : (s.setBadFrom p n).maps = s.maps := by
  simp [State.setBadFrom]

@[simp] theorem fixes_execUePacketReceive {M} (k : Nat) (s : State) (hs : s.maps = M) :
    Fixes M (execUePacketReceive k s) := by
  unfold execUePacketReceive
  split <;> simp [*]

@[simp] theorem maps_failPort (s : State) (p : Nat) : (s.failPort p).maps = s.maps := by
  unfold State.failPort
  split <;> simp

@[simp] theorem maps_failCopy (s : State) (a : Nat) : (s.failCopy a).maps = s.maps := by
  unfold State.failCopy
  split <;> simp

@[simp] theorem maps_hostRefuse (s : State) (f off : Nat) (r : Reach) :
    (s.hostRefuse f off r).maps = s.maps := by
  unfold State.hostRefuse
  refine (maps_postError ..).trans ?_
  split <;> simp

@[simp] theorem maps_tellHost (s : State) (m : OutMsg) : (s.tellHost m).maps = s.maps := by
  simp [State.tellHost]

@[simp] theorem fixes_holdHost {M} (s : State) (i : Instr) (hs : s.maps = M) : Fixes M (s.holdHost i) := by
  simp [State.holdHost, hs]

@[simp] theorem fixes_execHostDoorbell {M} (q tail : Nat) (s : State) (hs : s.maps = M) :
    Fixes M (execHostDoorbell q tail s) := by
  unfold execHostDoorbell
  split <;> simp [*]

@[simp] theorem maps_hostBytes (s : State) (f a : Nat) (x : List Byte × List Nat) :
    (s.hostBytes f a x).maps = s.maps := by simp [State.hostBytes]

@[simp] theorem maps_bar2Read (s : State) (off : Nat) (size : Nat) :
    (s.bar2Read off size).maps = s.maps := by simp [State.bar2Read]

@[simp] theorem fixes_execHostWindowRead {M} (f off size : Nat) (s : State) (hs : s.maps = M) :
    Fixes M (execHostWindowRead f off size s) := by
  unfold execHostWindowRead
  (repeat' split) <;> simp +contextual [*]

@[simp] theorem fixes_execHostWindowWrite {M} (f off size v : Nat) (s : State) (hs : s.maps = M) :
    Fixes M (execHostWindowWrite f off size v s) := by
  unfold execHostWindowWrite
  (repeat' split) <;> simp [hs]

@[simp] theorem fixes_execHostAtomic {M} (f off op : Nat) (wide : Bool) (v e : Nat) (s : State)
    (hs : s.maps = M) : Fixes M (execHostAtomic f off op wide v e s) := by
  simp only [execHostAtomic]
  (repeat' split) <;> simp [hs]

@[simp] theorem maps_loseReply (s : State) (core slot pkg : Nat) (va : Option Nat) (op : RespKind)
    (part : Option (Nat × Nat)) : (s.loseReply core slot pkg va op part).maps = s.maps := by
  unfold State.loseReply
  (repeat' split) <;> simp [*]

@[simp] theorem maps_loseFor (s : State) (n : Nat) : (s.loseFor n).maps = s.maps := by simp [State.loseFor]

/-- A packet that would be discarded keeps the maps in what its discard leaves. -/
def Packs (s : State) (o : Option NetPacket) : Prop := ∀ q, o = some q → q.gone.maps = s.maps

theorem packs_none (s : State) : Packs s none := fun _ h => by cases h

theorem packs_some {s : State} {q : NetPacket} (h : q.gone.maps = s.maps) : Packs s (some q) := fun _ e => by
  cases e; exact h

theorem packs_map {α : Type} {s : State} {o : Option α} {f : α → NetPacket} (h : ∀ a, (f a).gone.maps = s.maps) :
    Packs s (o.map f) := fun q e => by
  obtain ⟨a, -, rfl⟩ := Option.map_eq_some_iff.1 e
  exact h a

theorem packs_bind {α : Type} {s : State} {o : Option α} {f : α → Option NetPacket} (h : ∀ a, Packs s (f a)) :
    Packs s (o.bind f) := fun q e => by
  obtain ⟨a, -, ha⟩ := Option.bind_eq_some_iff.1 e
  exact h a q ha

theorem packs_reservationPacket (s : State) (k : Nat) (t : Term) : Packs s (s.reservationPacket k t) := by
  unfold State.reservationPacket
  split
  · exact packs_some (by simp)
  · exact packs_some (by simp)
  · exact packs_some (by simp)
  · exact packs_some (by simp)
  · exact packs_none s

theorem packs_packet (s : State) (p : Lost) : Packs s (s.packet p) := by
  unfold State.packet
  split
  case h_7 => exact packs_bind fun t => packs_reservationPacket _ _ _
  case h_8 =>
    refine packs_bind fun t => ?_
    split
    · exact packs_some (by simp)
    · exact packs_none s
  case h_18 | h_19 | h_20 => exact packs_none s
  all_goals exact packs_map fun a => by simp

@[simp] theorem fixes_execPacketAgeDiscard {M} (p : Lost) (s : State) (hs : s.maps = M) :
    Fixes M (execPacketAgeDiscard p s) := by
  unfold execPacketAgeDiscard
  rw [fixes_next]
  split
  · exact hs
  · split
    · simp [hs]
    · split
      · rename_i q hq
        simp [packs_packet s p q hq, hs]
      · exact hs

/-! ### Masters -/

@[simp] theorem maps_freezeMaster (s : State) (m : Nat × Nat) (violation : Nat) :
    (s.freezeMaster m violation).maps = s.maps := by simp [State.freezeMaster]

@[simp] theorem maps_wakeSaved (s : State) (n : Nat) : (s.wakeSaved n).maps = s.maps := by
  simp [State.wakeSaved]

@[simp] theorem maps_thawCore (s : State) (n : Nat) : (s.thawCore n).maps = s.maps := by
  simp only [State.thawCore]
  (repeat' split) <;> simp [*]

@[simp] theorem maps_resumeLost (s : State) : s.resumeLost.maps = s.maps := by simp [State.resumeLost]

@[simp] theorem maps_thawMaster (s : State) (m : Nat × Nat) : (s.thawMaster m).maps = s.maps := by
  simp [State.thawMaster]

@[simp] theorem fixes_onMaster {M} (st : State) (d : XReg) (s : XSrc) (frozen : Bool)
    (f : State → Nat × Nat → State) (hs : st.maps = M) (hf : ∀ u a2, (f u a2).maps = u.maps) :
    Fixes M (st.onMaster d s frozen f) := by
  unfold State.onMaster
  split <;> simp [*]

@[simp] theorem maps_discardQueued (s : State) (c : Nat) : (s.discardQueued c).maps = s.maps := by
  simp [State.discardQueued]

@[simp] theorem maps_beginFree (s : State) (c : Nat) : (s.beginFree c).maps = s.maps := by
  simp [State.beginFree]

@[simp] theorem maps_vacateCore (s : State) (n : Nat) : (s.vacateCore n).maps = s.maps := by
  simp [State.vacateCore]

@[simp] theorem maps_endFree (s : State) (c : Nat) : (s.endFree c).maps = s.maps := by simp [State.endFree]

@[simp] theorem fixes_execContextFree {M} (c : Nat) (s : State) (hs : s.maps = M) :
    Fixes M (execContextFree c s) := by simp [execContextFree, hs]

/-! ### Trust -/

@[simp] theorem maps_spDone (s : State) (res : List Byte) : (s.spDone res).maps = s.maps := by
  simp [State.spDone]

@[simp] theorem maps_spRefuse (s : State) : s.spRefuse.maps = s.maps := by simp [State.spRefuse]

@[simp] theorem maps_sendQuotes (s : State) (id : Nat) (p : Config.Policy) :
    (s.sendQuotes id p).maps = s.maps := by simp [State.sendQuotes]

@[simp] theorem maps_sendKeys (s : State) (id : Nat) (p : Config.Policy) :
    (s.sendKeys id p).maps = s.maps := by
  unfold State.sendKeys
  split
  · rfl
  · exact maps_foldl (fun _ _ => by simp) _ s

@[simp] theorem maps_lastEnclave (s : State) (e : Enclave) : (s.lastEnclave e).maps = s.maps := by
  simp [State.lastEnclave]

@[simp] theorem maps_rekey (s : State) (e : Enclave) : (s.rekey e).maps = s.maps := by simp [State.rekey]

@[simp] theorem maps_form (s : State) (rec : List Byte) (p : Config.Policy) :
    (s.form rec p).maps = s.maps := by
  unfold State.form
  extract_lets id ms pairs s₁ e s₂ s₃ s₄
  have h₁ : s₁.maps = s.maps := rfl
  have h₂ : s₂.maps = s₁.maps := maps_lastEnclave ..
  have h₃ : s₃.maps = s₂.maps := maps_of_eq rfl rfl
  have h₄ : s₄.maps = s₃.maps := by
    simp only [s₄]
    split
    · exact maps_rekey ..
    · rfl
  split
  · exact (maps_spRefuse ..).trans h₁
  · exact (maps_spDone ..).trans ((maps_foldl (fun _ _ => maps_await ..) _ _).trans (h₄.trans (h₃.trans (h₂.trans h₁))))

@[simp] theorem fixes_execPolicy {M} (s : State) (hs : s.maps = M) : Fixes M (execPolicy s) := by
  simp only [execPolicy]
  (repeat' split) <;> simp +contextual [*]

@[simp] theorem fixes_execGroupKeyReceive {M} (kn : Nat) (s : State) (hs : s.maps = M) :
    Fixes M (execGroupKeyReceive kn s) := by
  simp only [execGroupKeyReceive]
  (repeat' split) <;> simp +contextual [*]

@[simp] theorem fixes_execOldKeyExpiry {M} (s : State) (hs : s.maps = M) : Fixes M (execOldKeyExpiry s) := by
  unfold execOldKeyExpiry
  split <;> simp [*]

@[simp] theorem maps_zeroFrame (s : State) (ref : Nat) : (s.zeroFrame ref).maps = s.maps := by
  simp [State.zeroFrame]

@[simp] theorem maps_cutOff (s : State) (id : Nat) (p : Nat) : (s.cutOff id p).maps = s.maps := by
  simp [State.cutOff]

@[simp] theorem maps_revoke (s : State) (e : Enclave) (epoch c sigs : Nat) :
    (s.revoke e epoch c sigs).maps = s.maps := by
  simp only [State.revoke]
  split
  · exact (maps_foldl (fun _ _ => maps_freezeMaster ..) _ _).trans (maps_putEnclave ..)
  · split <;> simp

@[simp] theorem fixes_execRevocationMessageReceive {M} (id epoch c sigs : Nat) (s : State)
    (hs : s.maps = M) : Fixes M (execRevocationMessageReceive id epoch c sigs s) := by
  unfold execRevocationMessageReceive
  split <;> simp [*]

@[simp] theorem fixes_execRevoke {M} (s : State) (hs : s.maps = M) : Fixes M (execRevoke s) := by
  unfold execRevoke
  (repeat' split) <;> simp +contextual [*]

/-! ### Space4 -/

@[simp] theorem maps_plainWrite (s : State) (r : Nat) (v : Nat) : (s.plainWrite r v).maps = s.maps := by
  simp [State.plainWrite]

@[simp] theorem maps_after {s : State} {o : Out} (h : Fixes s.maps o) : (s.after o).maps = s.maps := by
  obtain ⟨t, rfl, ht⟩ := h
  exact ht

@[simp] theorem maps_spCommand (s : State) (v : Nat) : (s.spCommand v).maps = s.maps := by
  simp [State.spCommand]

@[simp] theorem maps_stateWrite (s : State) (c v : Nat) : (s.stateWrite c v).maps = s.maps := by
  unfold State.stateWrite
  split <;> simp

@[simp] theorem maps_migCommand (s : State) (v : Nat) : (s.migCommand v).maps = s.maps := by
  unfold State.migCommand
  split <;> simp

@[simp] theorem maps_regWrite (s : State) (r v : Nat) : (s.regWrite r v).maps = s.maps := by
  simp [State.regWrite]

@[simp] theorem maps_setOverflowCount (s : State) (n : Nat) (v : Nat) :
    (s.setOverflowCount n v).maps = s.maps := by
  unfold State.setOverflowCount
  split <;> simp

@[simp] theorem maps_windowStore (s : State) (n o : Nat) (bs : List Byte) :
    (s.windowStore n o bs).maps = s.maps := by simp [State.windowStore]

@[simp] theorem maps_bootWrite (s : State) (off : Nat) (bs : List Byte) :
    (s.bootWrite off bs).maps = s.maps := by
  simp only [State.bootWrite]
  refine (maps_foldl (fun u a => ?_) ..).trans ?_
  · (repeat' split) <;> simp [*]
  · simp

@[simp] theorem maps_mmioWrite (s : State) (off : Nat) (bs : List Byte) :
    (s.mmioWrite off bs).maps = s.maps := by
  unfold State.mmioWrite
  (repeat' split) <;> simp [*]

@[simp] theorem fixes_execStorePerformAtHome {M} (k : Nat) (s : State) (hs : s.maps = M) :
    Fixes M (execStorePerformAtHome k s) := by
  unfold execStorePerformAtHome
  (repeat' split) <;> simp +contextual [*]

/-! ### Sched -/

@[simp] theorem maps_noteWait (s : State) : s.noteWait.maps = s.maps := by simp [State.noteWait]

@[simp] theorem maps_settleInstr (s : State) : s.settleInstr.maps = s.maps := by simp [State.settleInstr]

end Sys2Proof.Machine
end

section
/-! SUPPORT. Slot 0 through the operations that do change the maps, and through every instruction and event. -/

namespace Sys2Proof.Machine

/-- The outcome is a next state in which slot 0 is the base die's, if it is so in `s`. -/
def SafeFrom (s : State) (o : Out) : Prop := ∃ t, o = .next t ∧ (s.slot0 → t.slot0)

theorem slot0_of_maps {s t : State} (h : t.maps = s.maps) (hs : s.slot0) : t.slot0 := by
  obtain ⟨hm, hf⟩ := Prod.ext_iff.1 h
  simp only [State.maps] at hm hf
  exact ⟨hm ▸ hs.1, hf ▸ hs.2⟩

theorem SafeFrom.of_fixes {s : State} {o : Out} (h : Fixes s.maps o) : SafeFrom s o := by
  obtain ⟨t, rfl, ht⟩ := h
  exact ⟨t, rfl, slot0_of_maps ht⟩

theorem SafeFrom.next {s t : State} (h : s.slot0 → t.slot0) : SafeFrom s (.next t) := ⟨t, rfl, h⟩

/-- A state with the same maps stands in for the one the outcome is compared with. -/
theorem SafeFrom.congr {s u : State} {o : Out} (h : u.maps = s.maps) : SafeFrom u o → SafeFrom s o
  | ⟨t, ho, ht⟩ => ⟨t, ho, fun hs => ht (slot0_of_maps h hs)⟩

theorem safeFrom_guard {s : State} {fields cells : List Nat} {k : Out} (h : SafeFrom s k) :
    SafeFrom s (s.guard fields cells k) := by
  obtain e | ⟨i, -, -, -, e⟩ | ⟨c, -, e⟩ | ⟨-, e⟩ := guard_cases s fields cells k <;> rw [e]
  · exact h
  all_goals exact .of_fixes (by simp)

theorem safeFrom_command {s : State} {c : Command} {k : State → State} (hk : ∀ u : State, u.slot0 → (k u).slot0) :
    SafeFrom s (s.command c k) := by
  unfold State.command
  split
  · refine .next fun h => ?_
    split
    · exact hk _ h
    · exact h
  · exact .next id

/-! ### The operations that change the maps -/

/-- R250: a write to SLOTMAP0 leaves slot 0. -/
theorem slot0_setSlotmap {s : State} (j : Nat) (v : Word) (h : s.slot0) : (s.setSlotmap j v).slot0 := by
  simpa [State.slot0, State.setSlotmap] using h

theorem slot0_setCsr {s : State} (n : Nat) (v : Word) (h : s.slot0) : (s.setCsr n v).slot0 := by
  unfold State.setCsr
  split
  case h_16 =>
    split_ifs
    · exact slot0_setSlotmap _ _ h
    · exact h
    · exact h
  all_goals exact slot0_of_maps (by simp) h

theorem safeFrom_csrAccess {s : State} {n : Nat} {write : Bool} {k : Word → Out} (hk : ∀ v, SafeFrom s (k v)) :
    SafeFrom s (s.csrAccess n write k) := by
  unfold State.csrAccess
  split
  · exact .of_fixes (by simp)
  · cases s.csr n with
    | none => exact .of_fixes (by simp)
    | some v =>
      dsimp only
      split
      · exact .of_fixes (by simp)
      · exact hk v

theorem safeFrom_csrModify (s : State) (d : XSrc) (c : BitVec 12) (f : Word → Word → Word) :
    SafeFrom s (s.csrModify d c f) := by
  refine safeFrom_csrAccess fun v => safeFrom_guard ?_
  split
  · exact .of_fixes (by simp)
  · exact .next fun h => slot0_of_maps (by simp) (slot0_setCsr c.toNat (f v (s.src d)) h)

theorem slotmap_appliedFrame (s : State) (pieces : List MirrorStore) (back : List SentSlot) (srcs : List Nat) :
    (srcs.foldl (fun s src => s.giveBack back src) (pieces.foldl State.applyPiece s)).slotmap = s.slotmap :=
  congrArg Prod.fst ((maps_foldl (maps_giveBack · back ·) srcs _).trans (maps_foldl maps_applyPiece pieces s))

/-- R249, R250: the frame that starts runs with the map that stands. -/
theorem safeFrom_execMirrorFrameApply (bad : BitVec 64) (s : State) : SafeFrom s (execMirrorFrameApply bad s) := by
  refine .next fun h => ?_
  have := slotmap_appliedFrame s
  exact ⟨(this ..).symm ▸ h.1, (this ..).symm ▸ h.1⟩

theorem layer_lt_of_state_asleep {s : State} {l : Nat} (h : (s.layer l).state = .asleep) : l < 12 := by
  by_contra hl
  have hnone : s.layers.toList[l]? = none := List.getElem?_eq_none (by simpa using hl)
  simp [State.layer, hnone] at h

/-- R250: the slots of a layer that is retired go to no one, and slot 0 is not one of them. -/
theorem slot0_retireLayer {s : State} {l : Nat} (hl : l < 12) (h : s.slot0) :
    ({ s with slotmap := s.slotmap.map fun (x : BitVec 4) => if x.toNat = l then 15#4 else x }).slot0 := by
  obtain ⟨hm, hf⟩ := h
  refine ⟨?_, hf⟩
  have : (12#4).toNat ≠ l := by simp; omega
  simp only [Vector.getElem_map, hm, this, if_false]

theorem safeFrom_execLayerRetireCommand (l : Nat) (s : State) : SafeFrom s (execLayerRetireCommand l s) := by
  refine safeFrom_command fun u h => ?_
  dsimp only
  split
  case isTrue ha =>
    refine slot0_of_maps ?_ (slot0_retireLayer (layer_lt_of_state_asleep ha) (slot0_of_maps (maps_modLayer u l
      fun y => { y with state := .retired, waking := none }) h))
    simp
  case isFalse => exact h

theorem slot0_retireSlots {ret : Nat} {m : Vector (BitVec 4) 64} (h : m[0] = 12#4) : (retireSlots ret m)[0] = 12#4 := by
  simp [retireSlots, h]

theorem slot0_reset : State.reset.slot0 := by
  constructor <;> rfl

theorem slot0_inReset (s : State) (sp : Mailbox) (measured : List (List Byte)) : (s.inReset sp measured).slot0 :=
  slot0_reset

theorem slot0_releasePackage (s : State) : s.releasePackage.slot0 :=
  ⟨slot0_retireSlots (slot0_inReset ..).1, slot0_retireSlots (slot0_inReset ..).2⟩

theorem safeFrom_execPackageReset (s : State) : SafeFrom s (execPackageReset s) := by
  refine .next fun _ => ?_
  split_ifs
  · exact slot0_inReset ..
  · exact slot0_inReset ..
  · exact slot0_inReset ..
  · exact slot0_inReset ..
  · exact slot0_releasePackage s

/-- Every instruction and every event ends in a next state, with slot 0 as it was. -/
theorem safeFrom_exec (i : Instr) (s : State) : SafeFrom s (exec i s) := by
  cases i <;> simp only [exec]
  case csrw d c => exact safeFrom_csrModify s d c fun _ x => x
  case csrs d c => exact safeFrom_csrModify s d c fun v x => v ||| x
  case csrc d c => exact safeFrom_csrModify s d c fun v x => v &&& ~~~x
  case mirrorFrameApply bad => exact safeFrom_execMirrorFrameApply bad s
  case layerRetireCommand l => exact safeFrom_execLayerRetireCommand l s
  case packageReset => exact safeFrom_execPackageReset s
  case addi | andi | ori | xori | slli | srli | srai | rori | cmpi | clz | ctz | popc | brev | bswap |
    fsqrt | fclass | fneg | fabs | fcvti | fcvtiu | fcvtf | fcvtfu | fnarrowBf16 | fnarrowF16 |
    fwidenBf16 | fwidenF16 | mov =>
    exact .of_fixes (fixes_alu1 _ _ _ _ rfl)
  case add | sub | and | or | xor | andn | orn | xnor | sll | srl | sra | ror | min | max | minu | maxu |
    addW | subW | sllW | srlW | sraW | rorW | mul | mulh | mulhu | mulhsu | mulW | div | divu | rem |
    remu | divW | divuW | remW | remuW | cmp | extz | exts | addsh | fadd | fsub | fmul | fdiv | fmin |
    fmax | feq | flt | fle =>
    exact .of_fixes (fixes_alu2 _ _ _ _ _ rfl)
  case madd | ins | fmadd =>
    exact .of_fixes (fixes_alu3 _ _ _ _ _ rfl)
  case beq | bne | blt | bge =>
    exact .of_fixes (fixes_branch _ _ _ _ _ rfl)
  case movs | movsS =>
    exact .of_fixes (fixes_movs _ _ _ _ rfl)
  case amoSwap | amoAdd | amoAnd | amoOr | amoXor | amoMin | amoMax | amoMinu | amoMaxu | amoCas | amoFadd =>
    exact .of_fixes (fixes_amo _ _ _ _ _ _ _ rfl)
  case bkopSumS32 | bkopSumF32 | bkopMinS32 | bkopMaxS32 | bkopMinF32 | bkopMaxF32 | bkopArgminS32 |
    bkopArgmaxS32 =>
    exact .of_fixes (fixes_bkop _ _ _ _ _ rfl)
  case rread | rdelta =>
    exact .of_fixes (fixes_readWell _ _ _ _ _ _ rfl)
  case rstatGen | rstatLanded | rstatAbsent | rstatLate | rstatCounts | rstatFlags =>
    exact .of_fixes (fixes_rstat _ _ _ _ _ rfl)
  case lctlSleep | lctlDrowsy | lctlWake | lctlRetire =>
    exact .of_fixes (fixes_lctl _ _ _ _ _ _ _ rfl)
  case illEncoding | trap | brk =>
    exact .of_fixes (fixes_trap _ _ _ rfl)
  case vadd | vsub | vadds | vsubs | vaddus | vsubus | vmul | vmulh | vmulhu | vand | vor | vxor | vandn |
    vsll | vsrl | vsra | vror | vmin | vmax | vminu | vmaxu | vfadd | vfsub | vfmul | vfmin | vfmax | vfdiv =>
    exact .of_fixes (fixes_issue (keeps_lane3 _ _ _ _ _) rfl)
  case vmac | vdot4 | vfma | vfms | vfnma =>
    exact .of_fixes (fixes_issue (keeps_lane4 _ _ _ _ _) rfl)
  case vnot | vslli | vsrli | vsrai | vrori | vabs | vfabs | vfneg | vfsqrt | vfrecip | vfrsqrt | vcvtS32 |
    vcvtZ32 | vcvtF32S32 | vcvtF32Z32 =>
    exact .of_fixes (fixes_issue (keeps_lane2 _ _ _ _) rfl)
  case vcvtPbf16 | vcvtPf16 | vcmp | vmaskNot | vmaskSet | vmaskClr | vsel | vperm | vrev | vtopk |
    vlaneIota | vlaneCompress | vslide | tmovRv =>
    exact .of_fixes (fixes_issue (keeps_pure fun _ => by simp) rfl)
  case vcvtUbf16Lo | vcvtUbf16Hi | vcvtUf16Lo | vcvtUf16Hi =>
    exact .of_fixes (fixes_issue (keeps_unpack _ _ _ _ _) rfl)
  case vmaskAnd | vmaskOr | vmaskXor | vmaskAndn =>
    exact .of_fixes (fixes_issue (keeps_oMask2 _ _ _ _) rfl)
  case vredSumS32 | vredSumF32 | vredMinS32 | vredMaxS32 | vredMinF32 | vredMaxF32 | vredArgminF32 |
    vredArgmaxF32 =>
    exact .of_fixes (fixes_issue (keeps_oRed _ _ _ _) rfl)
  case mma =>
    exact .of_fixes (fixes_issue (keeps_oMma _ _ _ _ _ _) rfl)
  case mmaw =>
    exact .of_fixes (fixes_issue (keeps_oMmaw _ _ _ _ _ _) rfl)
  case accrd =>
    exact .of_fixes (fixes_issue (keeps_oAccrd _ _ _ _ _ _) rfl)
  case accclr =>
    exact .of_fixes (fixes_issue (keeps_oAccclr _ _) rfl)
  case tmov | tmovT16 | tmovT8 | tmovVr | tmovZero =>
    exact .of_fixes (fixes_issue (keeps_oTile _ _ _) rfl)
  case sel | seln | loop | jr | jalr | ret | call | movaToPointer | movaFromPointer | adda |
    movaPointerPointer | movqReadSend | li | movmToMask | movmFromMask | movmMaskMask | ld | ldx | st |
    stx | sctlPos | sctlLeft | waitr | radv | rstatClear | vbcast | vbcastLane | vmovx | vmovxS | accstat |
    dec | phaseOr | phaseMax | yield | msgPoll | msgHdr | compose | trigAdd | trigSet | trigRead | cqwait |
    cabort | cabortSeq | gatek | gatekOpen =>
    exact .of_fixes (by simp [execSel, execSeln, execLoop, execJr, execJalr, execRet, execCall,
      execMovaToPointer, execMovaFromPointer, execAdda, execMovaPointerPointer, execMovqReadSend, execLi,
      execMovmToMask, execMovmFromMask, execMovmMaskMask, execLd, execLdx, execSt, execStx, execSctlPos,
      execSctlLeft, execWaitr, execRadv, execRstatClear, execVbcast, execVbcastLane, execVmovx, execVmovxS,
      execAccstat, execDec, execPhaseOr, execPhaseMax, execYield, execMsgPoll, execMsgHdr, execCompose,
      execTrigAdd, execTrigSet, execTrigRead, execCqwait, execCabort, execCabortSeq, execGatek,
      execGatekOpen])
  case remoteLoadWrite | loadMonitorWindow | routerPowerDownPropose | routerPowerDownCommit |
    routerWakeLine | routerWakeDone | wellSlotQuarantineEnd | abortReqReceive | abortReceive |
    abortAckReceive | abortDoneReceive | abortWaitTimeout | cxlLinkFailure | quote | thermalLimit |
    loadValueReturn | thermalLimitLift | hint | j | fenceAcq | region | msgDrop =>
    exact .of_fixes (by simp [execRemoteLoadWrite, execLoadMonitorWindow, execRouterPowerDownPropose,
      execRouterPowerDownCommit, execRouterWakeLine, execRouterWakeDone, execWellSlotQuarantineEnd,
      execAbortReqReceive, execAbortReceive, execAbortAckReceive, execAbortDoneReceive,
      execAbortWaitTimeout, execCxlLinkFailure, execQuote, execThermalLimit, execLoadValueReturn,
      execThermalLimitLift, execHint, execJ, execFenceAcq, execRegion, execMsgDrop])
  case flitCrcReplay | cecWindowEnd | scrubRead | uePeerFailure | cxlWriteFailure | extend | frames |
    report | temperatureSample =>
    exact .of_fixes (by simp [execFlitCrcReplay, execCecWindowEnd, execScrubRead, execUePeerFailure,
      execCxlWriteFailure, execExtend, execFrames, execReport, execTemperatureSample])
  case mirrorSlotSend | slot0RecordLost | space4RegisterWrite | erdropRead | fenceFull | fenceRel |
    waitrAll | repf | done | decompose =>
    exact .of_fixes (by simp [execMirrorSlotSend, execSlot0RecordLost, execSpace4RegisterWrite,
      execErdropRead, execFenceFull, execFenceRel, execWaitrAll, execRepf, execDone, execDecompose])
  case gangStopCommand | resumeCommand =>
    exact .of_fixes (by simp [execGangStopCommand, execResumeCommand])
  case accswap | tabldPreset =>
    exact .of_fixes (by simp [execAccswap, execTabldPreset])
  case csrr =>
    exact .of_fixes (by simp [execCsrr])
  case eret | xinvPage | xinvAsid | xinvAll | xinvSync | gstop | gstopGo =>
    exact .of_fixes (by simp [execEret, execXinvPage, execXinvAsid, execXinvAll, execXinvSync, execGstop,
      execGstopGo])
  case freeze | unfreeze =>
    exact .of_fixes (by simp [execFreeze, execUnfreeze])
  case repfPassStep | vmuResourceGrant | storeBufferDrain | storePerformAtHome | acknowledgementReceive |
    remoteRequestReceive | remoteResponseArrival | remoteXlatRetry | copyEnginePart | copyEngineComplete |
    spinwWake | spinwTimeout | yieldExpiry | taskStart | taskAgingPromotion | flitDelivery | handlerStart |
    flitBounceReturn | packetAgeDiscard | circuitSetupHop | circuitReply | circuitIdleTimeout |
    circuitTeardownAck | layerWakeCommand | layerDrowsyCommand | layerSleepCommand | wakeChunkMerge |
    gangStopDrainComplete | recordRestore | translationWalk | resolveWrite | migrationAbort |
    migrationPinsClear | migrationDrainDone | migrationCommit | hostDoorbell | launchSlotStart |
    copySlotStart | slotCompletion | phaseStart | launchTaskEnqueue | phaseEnd | wellReservationRequest |
    wellReservationReply | wellSegmentStage | wellTermClassify | wellBankEvent | wellReadRequest |
    wellReadDeadline | wellReadRetry | wellReadResult | wellTermAgeDiscard | gateListAtRouter |
    gateListHoldExpiry | gateListAtRoot | dispatchSlotRequest | collectiveEntryFire |
    collectivePartArrival | collectiveEntryComplete | collectiveTimeout | uePacketReceive |
    hostWindowRead | hostWindowWrite | hostAtomic | policy | revoke | revocationMessageReceive |
    groupKeyReceive | oldKeyExpiry | vmuInstructionComplete | softError | movx | movxw | movqSend |
    movqReceive | lda | stl | vld | vst | bkopFill | spinw | touch | gld | gst | copy | copys | sbind |
    sctlUnbind | sctlSkip | rnew | rpost | rabsent | rfree | mmam | accst | accld | tld | tldW | tst |
    tabld | enc | spawn | barInit | barArr | barw | barSync | barRead | joinArm | joinArr | joinRead |
    csetup | crel | cqpost | dispatch | cecClear | contextStart | contextFree | fqhWrite | migrationStart |
    wareaWrite =>
    exact .of_fixes (by simp)

end Sys2Proof.Machine
end

section
/-! SUPPORT. Slot 0 through a whole step. -/

namespace Sys2Proof.Machine

/-! ### What the rest of a step adds -/

theorem slot0_congr {s t : State} (h : t.maps = s.maps) : t.slot0 ↔ s.slot0 :=
  ⟨slot0_of_maps h.symm, slot0_of_maps h⟩

theorem SafeFrom.slot0_of_eq {s t : State} {o : Out} (h : SafeFrom s o) (ho : o = .next t) (hs : s.slot0) :
    t.slot0 := by
  obtain ⟨u, rfl, hu⟩ := h
  cases ho
  exact hu hs

theorem slot0_exec {i : Instr} {s t : State} (h : exec i s = .next t) : s.slot0 → t.slot0 :=
  (safeFrom_exec i s).slot0_of_eq h

theorem safeFrom_settled {s : State} {o : Out} : SafeFrom s o → SafeFrom s (settled o) := by
  rintro ⟨t, rfl, ht⟩
  exact .next fun hs => slot0_of_maps (by simp) (ht hs)

theorem safeFrom_access {s : State} {acc : Access} {a : Word} {n : Nat} {k : List (Home × Nat) → Out}
    (hk : ∀ g, SafeFrom s (k g)) : SafeFrom s (s.access acc a n k) := by
  unfold State.access
  split
  · exact hk _
  · split <;> exact .of_fixes (by simp +contextual)
  · exact .of_fixes (by simp)

theorem safeFrom_fetchWord {s : State} {a : Word} {k : Nat → Out} (hk : ∀ w, SafeFrom s (k w)) :
    SafeFrom s (s.fetchWord a k) := by
  unfold State.fetchWord
  split
  · exact .of_fixes (by simp)
  split
  · exact .of_fixes (by simp)
  · refine safeFrom_access fun g => ?_
    split
    · exact .of_fixes (by simp)
    · exact hk _

theorem safeFrom_fetch {s : State} {k : Fetched → Out} (hk : ∀ f, SafeFrom s (k f)) : SafeFrom s (s.fetch k) := by
  refine safeFrom_fetchWord fun w => ?_
  split
  · exact safeFrom_fetchWord fun _ => hk _
  · exact safeFrom_fetchWord fun _ => safeFrom_fetchWord fun _ => hk _
  · exact hk _

theorem safeFrom_behindGld {s : State} {o : Out} : SafeFrom s o → SafeFrom s (s.behindGld o) := by
  rintro ⟨t, rfl, ht⟩
  unfold State.behindGld
  split
  · exact .of_fixes (by simp)
  · dsimp only
    split
    · exact .next ht
    · exact .of_fixes (by simp)

theorem slot0_retryFrom {s u : State} :
    ∀ {l : List Instr} {k : Nat}, s.retryFrom k l = some u → s.slot0 → u.slot0
  | i :: l, k, h, hs => by
    unfold State.retryFrom at h
    simp only at h
    split at h
    · exact slot0_retryFrom h hs
    · split at h
      case h_1 v hv =>
        split at h
        · cases h
          exact (slot0_exec hv hs : v.slot0)
        · exact slot0_retryFrom h hs
      case h_2 => exact slot0_retryFrom h hs

theorem slot0_firstOf {s u : State} : ∀ {l : List Instr}, s.firstOf l = some u → s.slot0 → u.slot0
  | i :: l, h, hs => by
    unfold State.firstOf at h
    split at h
    case h_1 v hv =>
      split at h
      · exact slot0_firstOf h hs
      · cases h
        exact slot0_exec hv hs
    case h_2 => exact slot0_firstOf h hs

theorem slot0_firstAgent {s : State} {r : Nat × State} :
    ∀ {l : List Agent}, s.firstAgent l = some r → s.slot0 → r.2.slot0
  | (_, is) :: l, h, hs => by
    unfold State.firstAgent at h
    split at h
    case h_1 u hu => cases h; exact slot0_firstOf hu hs
    case h_2 => exact slot0_firstAgent h hs

theorem slot0_retryHost {s u : State} (h : s.retryHost = some u) : s.slot0 → u.slot0 := by
  unfold State.retryHost at h
  split at h
  · cases h
  · exact slot0_retryFrom h

theorem slot0_unitStep {s u : State} (h : s.unitStep = some u) (hs : s.slot0) : u.slot0 := by
  obtain ⟨r, hr, rfl⟩ := Option.map_eq_some_iff.1 h
  exact slot0_firstAgent hr hs

theorem slot0_timer {s u : State} (h : s.timer = some u) (hs : s.slot0) : u.slot0 := by
  obtain ⟨r, hr, rfl⟩ := Option.map_eq_some_iff.1 h
  exact slot0_of_maps (maps_wakeStalls _) (slot0_firstAgent hr hs)

theorem slot0_work {s u : State} (h : s.work = some u) (hs : s.slot0) : u.slot0 := by
  obtain ⟨v, hv, rfl⟩ := Option.map_eq_some_iff.1 h
  refine slot0_of_maps (maps_wakeStalls v) ?_
  obtain hr | ⟨-, hu⟩ := (Option.orElse_eq_some _ _ _).1 hv
  · exact slot0_retryHost hr hs
  · exact slot0_unitStep hu hs

theorem slot0_insteadOf {s u : State} : ∀ {k : Turn}, s.insteadOf k = some u → s.slot0 → u.slot0
  | .work, h, hs => slot0_work h hs
  | .timer, h, hs => slot0_timer h hs
  | .other, h, hs => by
    obtain ⟨n, -, rfl⟩ := Option.map_eq_some_iff.1 h
    exact slot0_of_maps (maps_focus s n) hs

theorem slot0_elsewhere {s : State} (hs : s.slot0) : s.elsewhere.slot0 := by
  unfold State.elsewhere
  split
  case h_1 h => exact slot0_work h hs
  case h_2 =>
    split
    case h_1 => exact slot0_of_maps (maps_focus ..) hs
    case h_2 =>
      split
      case h_1 h => exact slot0_timer h hs
      case h_2 => exact slot0_of_maps (maps_wakeStalls s) hs

theorem safeFrom_runInstr (i : Instr) (s : State) : SafeFrom s (runInstr i s) := safeFrom_settled (safeFrom_exec i s)

theorem safeFrom_runEvent (i : Instr) (s : State) : SafeFrom s (runEvent i s) := by
  obtain ⟨t, ht, hs⟩ := safeFrom_exec i s
  simp only [runEvent, ht]
  exact .next fun h => slot0_of_maps (maps_wakeStalls t) (hs h)

theorem safeFrom_runCore (s : State) : SafeFrom s (runCore s) := by
  unfold runCore
  split
  · exact .of_fixes (by simp)
  split
  · exact .of_fixes (by simp)
  split
  · refine safeFrom_behindGld (safeFrom_fetch fun f => ?_)
    split
    · exact .congr (maps_begin s f) (safeFrom_exec ..)
    · exact .of_fixes (by simp)
  split
  · exact safeFrom_runInstr ..
  split
  case h_1 hb => exact .of_fixes (by simp [maps_boundary s hb])
  case h_2 =>
    split
    · exact safeFrom_settled (.of_fixes (by simp))
    · refine safeFrom_fetch fun f => ?_
      split
      · exact .of_fixes (by simp)
      · exact .congr (maps_begin s f) (safeFrom_runInstr ..)

theorem safeFrom_advance (s : State) : SafeFrom s (advance s) := by
  unfold advance
  split
  case h_1 => exact .congr rfl (safeFrom_runEvent ..)
  case h_2 => exact .of_fixes (by simp)
  case h_3 =>
    split
    · exact .next id
    split
    case h_1 h => exact .next (slot0_insteadOf h)
    case h_2 =>
      split
      · exact safeFrom_runCore s
      · exact .next slot0_elsewhere

theorem safeFrom_step (s : State) : SafeFrom s (step s) := by
  obtain ⟨t, ht, hs⟩ := safeFrom_advance { s with tick := s.tick + 1 }
  simp only [step, ht]
  exact .next fun h => slot0_of_maps (maps_seal ..) (hs h)

end Sys2Proof.Machine
end

section
/-! SUPPORT. O58 and O59. -/

namespace Sys2Proof.Claims

open Sys2Proof.Machine

/-- Settles O58: every arm of `exec` ends in a next state, and so does what a step runs. -/
theorem everyStepGoesOn : Obligations.EveryStepGoesOn :=
  ⟨fun i s => (safeFrom_exec i s).imp fun _ => And.left, fun s => (safeFrom_step s).imp fun _ => And.left⟩

/-- Settles O59: a step changes the two maps only by a write to SLOTMAP, a retired layer, a frame's start and a
reset, and each of those leaves slot 0 with the base die. -/
theorem slotZeroKept : Obligations.SlotZeroKept :=
  fun s _ hs h => (safeFrom_step s).slot0_of_eq h hs
end Sys2Proof.Claims
end

section
/-! SUPPORT. The registers' classes: an instruction whose registers are usable goes on, and what a written register
leaves (R36, R39, R40, R97-R101). -/

open Sys2Proof Sys2Proof.Machine

namespace Sys2Proof.Claims

/-! ### Usable registers -/

theorem Usable.guard {s : State} {fields cells : List Nat} {k : Out} (h : Usable s fields cells) :
    s.guard fields cells k = k :=
  guard_pass h.1 h.2.1 h.2.2

/-! ### What a written register leaves, the instruction being done -/

theorem retire_setX (s : State) (d : XReg) (v : Word) : (s.setX d v).retire = wrote s d v s.core.npc := by
  rw [setX_eq]
  rfl

theorem retire_setA (s : State) (p : AReg) (v : Word) : (s.setA p v).retire = went { s with
    core := { s.core with a := s.core.a.set p.val v }, poison := cleaned s (cellA p.val) } s.core.npc := by
  rw [State.setA, unpoison_eq]
  rfl

theorem retire_setM (s : State) (m : MReg) (v : Word) : (s.setM m v).retire = went { s with
    core := { s.core with m := s.core.m.set m.val v }, poison := cleaned s (cellM m.val) } s.core.npc := by
  rw [State.setM, unpoison_eq]
  rfl

theorem setQs_eq (s : State) (e : QReg) (v : Word) : s.setQs e v = { s with
    core := { s.core with qs := s.core.qs.set e.val v }, poison := cleaned s (cellQs e.val) } := by
  rw [State.setQs, unpoison_eq]
  rfl

/-! ### The moves by relative register number -/

/-- R40: the index of a register that the task has names it. -/
theorem relReg_ofNat {s : State} {r : XReg} (h : r.val = 0 ∨ r.val < s.core.rlim) :
    s.relReg (BitVec.ofNat 64 r.val) = some r := by
  have hr : (BitVec.ofNat 64 r.val).toNat = r.val := by simp; omega
  simp only [State.relReg, hr, r.isLt, dite_true]
  exact if_pos (by simpa using h)

/-- R40: an index below 0, or of no register of the task, names none. -/
theorem relReg_eq_none {s : State} {j : Word} (h : j.toInt < 0 ∨ (j ≠ 0 ∧ s.core.rlim ≤ j.toNat)) :
    s.relReg j = none := by
  unfold State.relReg
  split
  case isTrue hj =>
    obtain h | ⟨h0, hlim⟩ := h
    · rw [BitVec.toInt_eq_toNat_of_lt (by omega)] at h
      omega
    · have : j.toNat ≠ 0 := fun e => h0 (BitVec.eq_of_toNat_eq e)
      simp [this, hlim]
  case isFalse => rfl

theorem relativeRegisters : RelativeRegisters := by
  refine fun s d a b k => ⟨fun hu => ⟨fun r hj hr => ?_, fun hj => ?_⟩, fun hu => ⟨fun r hj hr => ?_, fun hj => ?_⟩⟩
  · have : s.relReg (relIndex (s.src a) k) = some r :=
      (congrArg s.relReg hj).trans (relReg_ofNat (hr.1 r.val (by simp)))
    calc exec (.movx d a k) s = _ := hu.guard
      _ = s.guard [r.val] [cellX r.val] (.next (s.setX d (s.rx r)).retire) := by simp only [this]
      _ = _ := by rw [hr.guard, retire_setX]
  · have : s.relReg (relIndex (s.src a) k) = none := relReg_eq_none hj
    calc exec (.movx d a k) s = _ := hu.guard
      _ = s.trap .regidx (relIndex (s.src a) k) := by simp only [this]
  · have : s.relReg (relIndex (s.src a) k) = some r :=
      (congrArg s.relReg hj).trans (relReg_ofNat (hr.1 r.val (by simp)))
    calc exec (.movxw b a k) s = _ := hu.guard
      _ = s.guard [r.val] [] (.next (s.setX r (s.src b)).retire) := by simp only [this]
      _ = _ := by rw [hr.guard, retire_setX]
  · have : s.relReg (relIndex (s.src a) k) = none := relReg_eq_none hj
    calc exec (.movxw b a k) s = _ := hu.guard
      _ = s.trap .regidx (relIndex (s.src a) k) := by simp only [this]

/-! ### The moves between the classes -/

/-- R99: with no passes before it, an instruction that is ordered with the vector unit goes on. -/
theorem vmu_idle {s : State} {k : Out} (h : s.vmuBusy = false) : s.vmu k = k := by
  simp [State.vmu, h]

/-- R101: a write to a send register other than qs7 sends nothing. -/
theorem exec_movqSend_of_ne {s : State} {a : XSrc} {e : QReg} (hu : Usable s a.regs a.cells) (he : e.val ≠ 7) :
    exec (.movqSend e a) s = .next (s.setQs e (s.src a)).retire := by
  calc exec (.movqSend e a) s = _ := hu.guard
    _ = _ := if_neg he

theorem classMoves : ClassMoves := by
  intro s d a p q m n e toA toM
  have hA (v : Word) : .next (s.setA p v).retire = toA v := by rw [retire_setA]
  have hM (v : Word) : .next (s.setM m v).retire = toM v := by rw [retire_setM]
  refine ⟨fun hu => ⟨hu.guard.trans (hA _), fun he => ?_, fun hb => ?_⟩, fun hu => hu.guard.trans (hA _),
    fun hu => hu.guard.trans (hA _), fun hu => ?_, fun hu => ?_, fun hb => ⟨fun hu => ?_, fun hu => ?_⟩⟩
  · rw [exec_movqSend_of_ne hu he, setQs_eq]
    rfl
  · exact hu.guard.trans ((vmu_idle hb).trans (hM _))
  · exact hu.guard.trans (by rw [retire_setX])
  · exact hu.guard.trans (by rw [retire_setX])
  · exact hu.guard.trans ((vmu_idle hb).trans (by rw [retire_setX]))
  · exact hu.guard.trans ((vmu_idle hb).trans (hM _))

/-- Settles O6: the index of a relative move names a register or none, and each move writes its own class. -/
theorem registerMoves : Obligations.RegisterMoves := ⟨relativeRegisters, classMoves⟩

end Sys2Proof.Claims
end

section
/-! SUPPORT. Flits: which destination QDST names, what a send leaves, and what a consuming read takes (R42, R43,
R48, R177). -/

open Sys2Proof Sys2Proof.Machine

namespace Sys2Proof.Claims

theorem qdCore_eq (q : Word) : qdCore q = q.toNat % 8192 := by simp [qdCore, bits]

theorem qdG_iff (q : Word) : qdG q = true ↔ q.getLsbD 63 = true := by
  simp [qdG, bits, BitVec.getLsbD, Nat.testBit_eq_decide_div_mod_eq]

/-- R48, R329: QDST names another package where G is set and PKG is not the own one. -/
theorem farDest_iff (s : State) (q : Word) :
    s.farDest q = true ↔ q.getLsbD 63 = true ∧ q.toNat / 2 ^ 53 % 1024 ≠ s.pkg := by
  simp [State.farDest, qdG_iff, qdPkg, bits]

theorem circuitFor_of_none {s : State} {q : Word} (h : ∀ c ∈ s.core.circuits.toList, c = none) :
    s.circuitFor q = none := by
  have (i : Fin 2) : s.core.circuits[i] = none := h _ (by simp)
  simp [State.circuitFor, this]

/-- R43, R100: with no circuit to its destination, a flit for the own package leaves on MSG. -/
theorem launchFlit_near {s : State} {f : Flit} (hc : s.circuitFor f.qdst = none) (h : s.farDest f.qdst = false) :
    s.launchFlit f = { s with flits := s.flits ++ [f] } := by
  simp only [State.launchFlit, hc, State.sendFlit, h, Bool.false_eq_true, if_false]

/-- R177, R329: a flit for another package travels on no circuit. -/
theorem launchFlit_far {s : State} {f : Flit} (h : s.farDest f.qdst = true) :
    s.launchFlit f = { s with out := s.out ++ [.flit (qdPkg f.qdst) f] } := by
  have hg : qdG f.qdst = true := (Bool.and_eq_true_iff.1 h).1
  have hc : s.circuitFor f.qdst = none := by simp only [State.circuitFor, hg, if_true]
  simp only [State.launchFlit, hc, State.sendFlit, h, if_true]

/-- R101: past the checks of its destination, a write to qs7 sends the registers, with a new region after it. -/
theorem exec_movqSend_seven {s : State} {a : XSrc} (hu : Usable s a.regs a.cells)
    (hc : s.core.csrs.qdst.toNat % 8192 < 6144) (hq : ∀ k < 7, Place.reg s.core.num (cellQs k) ∉ s.poison)
    (hb : s.farDest s.core.csrs.qdst = true ∨ s.msgBlocked (s.core.csrs.qdst.toNat % 8192) = false) :
    exec (.movqSend 7 a) s =
      .next ((s.setQs 7 (s.src a)).launchFlit (s.setQs 7 (s.src a)).ownFlit).retireMark := by
  have hp : s.poisonedCell ((List.range 7).map cellQs) = none := poisonedCell_eq_none (by simpa using hq)
  have hw : (!s.farDest s.core.csrs.qdst && s.msgBlocked (qdCore s.core.csrs.qdst)) = false := by
    rw [qdCore_eq]
    obtain h | h := hb <;> simp [h]
  have hn : ¬numCores ≤ qdCore s.core.csrs.qdst := by
    rw [qdCore_eq]
    exact not_le.2 hc
  refine hu.guard.trans ?_
  simp only [show (7 : QReg).val = 7 from rfl, if_true, hn, if_false, hp, hw, Bool.false_eq_true]

theorem sendFlitHolds : SendFlit := by
  intro s a hu q words u f far
  have hu' : s.setQs 7 (s.src a) = u := setQs_eq ..
  refine ⟨fun hc hq => ⟨fun hfar hb hcirc => ?_, fun hfar => ?_⟩, fun hc => ?_⟩
  · have hf : u.farDest q = false := Bool.eq_false_iff.2 fun h => hfar ((farDest_iff s q).1 h)
    have hl : u.launchFlit u.ownFlit = { u with flits := s.flits ++ [f] } :=
      launchFlit_near (circuitFor_of_none hcirc) hf
    rw [exec_movqSend_seven hu hc hq (.inr hb), hu', hl]
    rfl
  · have hf : u.farDest q = true := (farDest_iff s q).2 hfar
    have hl : u.launchFlit u.ownFlit = { u with out := s.out ++ [.flit (q.toNat / 2 ^ 53 % 1024) f] } :=
      launchFlit_far hf
    rw [exec_movqSend_seven hu hc hq (.inl hf), hu', hl]
    rfl
  · have hn : numCores ≤ qdCore q := by
      rw [qdCore_eq]
      exact hc
    exact hu.guard.trans (if_pos hn)

/-! ### Consuming reads -/

theorem exec_movqReceive {s : State} {d : XReg} {e : QReg} {f : Flit} (hu : Usable s [d.val] [])
    (hl : s.core.latched = some f) (hb : f.bad = false) :
    exec (.movqReceive d e) s = .next (if e.val = 7 then (s.setX d (f.words.getD e.val 0)).popFlit
      else s.setX d (f.words.getD e.val 0)).retire := by
  refine hu.guard.trans ?_
  simp only [State.latch, State.badFlit, hl, Option.map_some, Option.getD_some, hb, Bool.false_eq_true, if_false]

theorem movs_of_end {s : State} {i : SReg} (d : XReg) (ext : Nat → Nat → Word)
    (h : ∀ t, s.core.s[i] = some t → t.count ≤ t.pos) : s.movs d i ext = s.ill := by
  unfold State.movs
  split
  · rfl
  case h_2 t ht => exact if_pos (Nat.sub_eq_zero_of_le (h t ht))

theorem movs_of_ready {s : State} {d : XReg} {i : SReg} {t : Stream} {v : Nat} (ext : Nat → Nat → Word)
    (hu : Usable s [d.val] []) (ht : s.core.s[i] = some t) (hl : t.pos < t.count) (hv : s.element t = .ready v) :
    s.movs d i ext = .next ((s.setX d (ext t.width v)).setStream i (some t.consume)).retire := by
  have hn : t.left ≠ 0 := Nat.sub_ne_zero_of_lt hl
  unfold State.movs
  rw [ht]
  simp only [hn, if_false, hv]
  exact hu.guard

theorem consumingReads : ConsumingReads := by
  intro s d e i
  refine ⟨fun hu => ⟨fun f hl hb => ⟨fun he => ?_, ?_⟩, fun t v rest ht he hl hv => ?_⟩, fun h =>
    ⟨movs_of_end d (fun _ v => BitVec.ofNat 64 v) h, movs_of_end d (fun w v => BitVec.ofInt 64 (toS (8 * w) v)) h⟩⟩
  · refine (exec_movqReceive hu hl hb).trans ?_
    rw [if_neg he, retire_setX]
  · refine (exec_movqReceive hu hl hb).trans ?_
    rw [if_pos (show (7 : QReg).val = 7 from rfl), setX_eq]
    simp only [State.popFlit, hl]
    rfl
  · intro taken
    obtain ⟨n, hn⟩ := Option.isSome_iff_exists.1 he
    have hr : s.element t = .ready v := by simp only [State.element, hn, hv]
    have hc : t.consume = { t with pos := t.pos + 1, buf := rest, back := t.back ++ [some v] } := by
      simp only [Stream.consume, hv, List.drop_one, List.tail_cons, List.take_succ_cons, List.take_zero]
    have htaken (w : Word) : .next ((s.setX d w).setStream i (some t.consume)).retire = taken w := by
      rw [hc, setX_eq]
      rfl
    exact ⟨(movs_of_ready (fun _ v => BitVec.ofNat 64 v) hu ht hl hr).trans (htaken _),
      (movs_of_ready (fun w v => BitVec.ofInt 64 (toS (8 * w) v)) hu ht hl hr).trans (htaken _)⟩

/-- Settles O7: a send by what QDST names, and a consuming read by what stands latched or next in the stream. -/
theorem flitMoves : Obligations.FlitMoves := ⟨sendFlitHolds, consumingReads⟩

end Sys2Proof.Claims
end

section
/-! SUPPORT. The checks of an access in their order (R104), and the space that an address lies in (R218). -/

open Sys2Proof Sys2Proof.Machine

namespace Sys2Proof.Claims

/-! ### The space of an address -/

/-- R218: bit 63 clear and bits 62:60 of no space. -/
theorem spaceOf_unused (s : State) {v : Nat} (h1 : 5 * 2 ^ 60 ≤ v) (h2 : v < 2 ^ 63) : s.spaceOf v = .bad := by
  have h63 : bits v 63 1 ≠ 1 := by simp only [bits]; omega
  have hk : bits v 60 3 = 5 ∨ bits v 60 3 = 6 ∨ bits v 60 3 = 7 := by simp only [bits]; omega
  unfold State.spaceOf
  rw [if_neg h63]
  obtain h | h | h := hk <;> simp only [h]

/-- R218, R329: a global address lies in the package it names, where a route reaches that. -/
theorem spaceOf_global (s : State) {v : Nat} (h1 : 2 ^ 63 ≤ v) (h2 : v < 2 ^ 64) :
    s.spaceOf v = if s.route (v / 2 ^ 53 % 1024) = 0 then .bad else .global (v / 2 ^ 53 % 1024) (v % 2 ^ 53) := by
  have h63 : bits v 63 1 = 1 := by simp only [bits]; omega
  have h0 : bits v 0 53 = v % 2 ^ 53 := by simp [bits]
  unfold State.spaceOf
  rw [if_pos h63, h0]
  rfl

/-- R218: an address of the vaults' space, where its router is one of the package's and its layer stands. -/
theorem spaceOf_vaults (s : State) {v : Nat} (h1 : 2 ^ 60 ≤ v) (h2 : v < 2 ^ 61) :
    s.spaceOf v = if v < 2 ^ 60 + 2 ^ 30 ∧ v / 2 ^ 21 % 512 < 384 ∧ (s.layer (v / 2 ^ 26 % 16)).state ≠ .retired
      then .vault (v % 2 ^ 30) else .bad := by
  have h63 : bits v 63 1 ≠ 1 := by simp only [bits]; omega
  have hk : bits v 60 3 = 1 := by simp only [bits]; omega
  have hz : bits v 30 30 = 0 ↔ v < 2 ^ 60 + 2 ^ 30 := by simp only [bits]; omega
  have hr : bits v 21 9 = v / 2 ^ 21 % 512 := rfl
  have hl : layerOfRouter (v / 2 ^ 21 % 512) = v / 2 ^ 26 % 16 := by simp only [layerOfRouter]; omega
  have h0 : bits v 0 30 = v % 2 ^ 30 := by simp [bits]
  unfold State.spaceOf
  rw [if_neg h63, hk]
  simp only [hr, hl, h0, hz, numRouters, Bool.and_eq_true, decide_eq_true_eq, bne_iff_ne, and_assoc, ne_eq]

theorem spaceOf_local (s : State) {v : Nat} (h1 : 2 ^ 61 ≤ v) (h2 : v < 3 * 2 ^ 60) :
    s.spaceOf v = if v < 2 ^ 61 + 2 ^ 14 then .loc (v % 2 ^ 14) else .bad := by
  have h63 : bits v 63 1 ≠ 1 := by simp only [bits]; omega
  have hk : bits v 60 3 = 2 := by simp only [bits]; omega
  have hz : bits v 14 46 = 0 ↔ v < 2 ^ 61 + 2 ^ 14 := by simp only [bits]; omega
  have h0 : bits v 0 14 = v % 2 ^ 14 := by simp [bits]
  unfold State.spaceOf
  rw [if_neg h63, hk]
  simp only [h0, hz]

theorem spaceOf_mirrored (s : State) {v : Nat} (h1 : 3 * 2 ^ 60 ≤ v) (h2 : v < 2 ^ 62) :
    s.spaceOf v = if v < 3 * 2 ^ 60 + 2 ^ 22 then .mirror (v % 2 ^ 22) else .bad := by
  have h63 : bits v 63 1 ≠ 1 := by simp only [bits]; omega
  have hk : bits v 60 3 = 3 := by simp only [bits]; omega
  have hz : bits v 22 38 = 0 ↔ v < 3 * 2 ^ 60 + 2 ^ 22 := by simp only [bits]; omega
  have h0 : bits v 0 22 = v % 2 ^ 22 := by simp [bits]
  unfold State.spaceOf
  rw [if_neg h63, hk]
  simp only [h0, hz]

theorem spaceOf_registers (s : State) {v : Nat} (h1 : 2 ^ 62 ≤ v) (h2 : v < 5 * 2 ^ 60) :
    s.spaceOf v = if v < 2 ^ 62 + 2 ^ 32 then .mmio (v % 2 ^ 32) else .bad := by
  have h63 : bits v 63 1 ≠ 1 := by simp only [bits]; omega
  have hk : bits v 60 3 = 4 := by simp only [bits]; omega
  have hz : bits v 32 28 = 0 ↔ v < 2 ^ 62 + 2 ^ 32 := by simp only [bits]; omega
  have h0 : bits v 0 32 = v % 2 ^ 32 := by simp [bits]
  unfold State.spaceOf
  rw [if_neg h63, hk]
  simp only [h0, hz]

/-! ### The checks, one after the other (R104) -/

section
variable {s : State} {acc : Access} {a : Word} {n : Nat} {sp : Space}

/-- Step 1: an address of no space. -/
theorem check_bad (hn : n ≠ 0) (hs : s.spaceOf a.toNat = .bad) : s.check acc a n = .trap .addr a := by
  have hok : acc.allow.ok .bad = false := by cases acc.allow <;> rfl
  simp only [State.check, hn, if_false, hs, hok, Bool.not_false, if_true]

/-- Step 1: an access that leaves its space. -/
theorem check_end {i : Nat} (hn : n ≠ 0) (hs : s.spaceOf a.toNat = sp) (hok : acc.allow.ok sp = true)
    (he : s.spaceEnd sp n = some i) : s.check acc a n = .trap .addr (a + BitVec.ofNat 64 i) := by
  simp only [State.check, hn, if_false, hs, hok, Bool.not_true, Bool.false_eq_true, he]

/-- Step 2: a misaligned access. -/
theorem check_misaligned (hn : n ≠ 0) (hs : s.spaceOf a.toNat = sp) (hok : acc.allow.ok sp = true)
    (he : s.spaceEnd sp n = none) (ha : a.toNat % acc.align ≠ 0) : s.check acc a n = .trap .align a := by
  simp only [State.check, hn, if_false, hs, hok, Bool.not_true, Bool.false_eq_true, he, ha, ne_eq, not_false_eq_true,
    if_true]

/-- Step 3: an access that the protection unit denies. -/
theorem check_denied {i : Nat} (hn : n ≠ 0) (hs : s.spaceOf a.toNat = sp) (hok : acc.allow.ok sp = true)
    (he : s.spaceEnd sp n = none) (ha : a.toNat % acc.align = 0) (hp : s.core.protFail sp acc.kind n = some i) :
    s.check acc a n = .trap .prot (a + BitVec.ofNat 64 i) := by
  simp only [State.check, hn, if_false, hs, hok, Bool.not_true, Bool.false_eq_true, he, ha, ne_eq, not_true_eq_false, hp]

end

theorem lockHit_of_none {c : Core} {k : Kind} {a n : Nat} (h : ∀ i : Fin 16, c.locks[i] = none) :
    c.lockHit k a n = none := by
  simp only [Core.lockHit, h, Option.bind_none]
  exact List.foldl_fixed ..

/-- R222: what the launch header and one region grant of local memory. -/
theorem protFail_local (c : Core) (off n : Nat) (k : Kind) : c.protFail (.loc off) k n =
    if Nat.min (c.protReach 2 k off n) (c.localSize - off) < n
      then some (Nat.min (c.protReach 2 k off n) (c.localSize - off)) else none := rfl

/-- R104 with nothing in the way, in local memory. -/
theorem check_local_ok {s : State} {a : Word} {off n : Nat} (hn : n ≠ 0) (hs : s.spaceOf a.toNat = .loc off)
    (he : s.spaceEnd (.loc off) n = none) (hp : s.core.protFail (.loc off) .load n = none)
    (hl : ∀ i : Fin 16, s.core.locks[i] = none) (hpoison : s.poison = []) :
    s.check {} a n = .ok [(.loc s.core.num off, n)] := by
  simp only [State.check, hn, if_false, hs, Allow.ok, Bool.not_true, Bool.false_eq_true, he, Nat.mod_one, ne_eq,
    not_true_eq_false, hp, lockHit_of_none hl, ite_self, State.poisonHit, hpoison, List.isEmpty_nil, if_true,
    List.foldl_cons, List.foldl_nil, Option.map_none]

theorem localChecks : LocalChecks := by
  intro s off n hoff hn a reach
  have hv : a.toNat = 2 ^ 61 + off := by
    rw [BitVec.toNat_ofNat]
    exact Nat.mod_eq_of_lt (by omega)
  have hs : s.spaceOf a.toNat = .loc off := by
    rw [hv, spaceOf_local s (by omega) (by omega), if_pos (by omega)]
    congr 1
    omega
  have hn0 : n ≠ 0 := by omega
  refine ⟨fun h => ?_, fun h hr => ?_, fun h hr hl hp => ?_⟩
  · have he : s.spaceEnd (.loc off) n = some (16384 - off) := if_neg (by omega)
    rw [check_end hn0 hs rfl he]
    congr 1
    apply BitVec.eq_of_toNat_eq
    rw [BitVec.toNat_add, hv, BitVec.toNat_ofNat, BitVec.toNat_ofNat]
    omega
  · have he : s.spaceEnd (.loc off) n = none := if_pos h
    exact check_denied hn0 hs rfl he (Nat.mod_one _) (if_pos hr)
  · have he : s.spaceEnd (.loc off) n = none := if_pos h
    exact check_local_ok hn0 hs he (if_neg (not_lt.2 hr)) hl hp

/-! ### A scalar load and its checks -/

theorem loadSize_pos (t : LdType) : 0 < loadSize t := by cases t <;> decide

/-- R104, R111: a load whose checks deny it traps. -/
theorem exec_ld_of_trap {s : State} {d : XReg} {a : XSrc} {la : BitVec 4} {t : LdType} {c : Cause} {tv : Word}
    (hu : Usable s (loadRegs d t ++ a.regs) a.cells) (ho : s.orderedBack = false)
    (hc : s.check { align := s.loadAlign (s.src a) (loadSize t) false } (s.src a) (loadSize t) = .trap c tv) :
    exec (.ld d a la t 0) s = .next (s.takeTrap c tv) := by
  have ha : s.src a + sext 6 0 * BitVec.ofNat 64 (loadSize t) = s.src a := by simp [sext]
  refine hu.guard.trans ?_
  rw [ha]
  simp only [State.loadFrom, ho, Bool.false_eq_true, if_false]
  exact access_trap hc

/-- R105: outside local memory a load is aligned to its size. -/
theorem loadAlign_of_space {s : State} {a : Word} {n : Nat} {sp : Space} (hs : s.spaceOf a.toNat = sp)
    (h : ∀ off, sp ≠ .loc off) : s.loadAlign a n false = n := by
  unfold State.loadAlign
  split
  case h_1 off he => exact absurd (hs.symm.trans he) (h off)
  case h_2 => rfl

/-- R219: an access within one slice that has no well area ends in it. -/
theorem spaceEnd_vault {s : State} {off n : Nat} (hoff : off < 768 * 2 ^ 20)
    (hl : (s.layer (layerOfRouter (off / 2 ^ 20 / 2))).state ≠ .retired) (hw : s.wellArea (off / 2 ^ 20) = 2 ^ 20)
    (hn : off % 2 ^ 20 + n ≤ 2 ^ 20) : s.spaceEnd (.vault off) n = none := by
  have hlim : ¬(768 ≤ off / 2 ^ 20 ∨ (s.layer (layerOfRouter (off / 2 ^ 20 / 2))).state = .retired) := by
    simp only [hl, or_false, not_le]
    omega
  have ho : ¬2 ^ 20 ≤ off % 2 ^ 20 := by omega
  simp only [State.spaceEnd, State.vaultEnd, Bool.or_eq_true, decide_eq_true_eq, beq_iff_eq, hlim, if_false, hw, ho, hn,
    if_true]

theorem addressChecks : AddressChecks := by
  intro s d a la t hu ho v traps
  have hn : loadSize t ≠ 0 := (loadSize_pos t).ne'
  have hv : v < 2 ^ 64 := (s.src a).isLt
  have bad (h : s.spaceOf v = .bad) : traps .addr := exec_ld_of_trap hu ho (check_bad hn h)
  have misaligned {sp : Space} (h : s.spaceOf v = sp) (hloc : ∀ off, sp ≠ .loc off) (hok : Allow.ok .all sp = true)
      (he : s.spaceEnd sp (loadSize t) = none) (ha : v % loadSize t ≠ 0) : traps .align := by
    refine exec_ld_of_trap hu ho (check_misaligned hn h hok he ?_)
    rwa [loadAlign_of_space h hloc]
  refine ⟨fun h1 h2 => bad (spaceOf_unused s h1 h2), fun h1 hr => ?_, fun h1 hr ha => ?_, fun h1 h2 => ?_,
    fun h1 h2 => ?_, fun h1 h2 => ?_, fun h1 h2 ha hp => ?_, fun h1 h2 hr hl h20 ha hw => ?_⟩
  · exact bad ((spaceOf_global s h1 hv).trans (if_pos hr))
  · exact misaligned ((spaceOf_global s h1 hv).trans (if_neg hr)) (by simp) rfl rfl ha
  · exact bad ((spaceOf_vaults s (by omega) h2).trans (if_neg (by omega)))
  · exact bad ((spaceOf_local s (by omega) h2).trans (if_neg (by omega)))
  · exact bad ((spaceOf_mirrored s (by omega) h2).trans (if_neg (by omega)))
  · have hs : s.spaceOf v = .mmio (v % 2 ^ 32) :=
      (spaceOf_registers s h1 (by omega)).trans (if_pos (by have := loadSize_pos t; omega))
    have he : s.spaceEnd (.mmio (v % 2 ^ 32)) (loadSize t) = none := if_pos (by omega)
    have hal : v % s.loadAlign (s.src a) (loadSize t) false = 0 := by rwa [loadAlign_of_space hs (by simp)]
    have hprot : s.core.protFail (.mmio (v % 2 ^ 32)) .load (loadSize t) = some 0 := by
      simp only [Core.protFail, hp, Bool.false_eq_true, if_false]
    have hc : s.check { align := s.loadAlign (s.src a) (loadSize t) false } (s.src a) (loadSize t)
        = .trap .prot (s.src a + 0#64) := check_denied hn hs rfl he hal hprot
    rw [BitVec.add_zero] at hc
    exact exec_ld_of_trap hu ho hc
  · have hs : s.spaceOf v = .vault (v % 2 ^ 30) := (spaceOf_vaults s h1 (by omega)).trans (if_pos ⟨h2, hr, hl⟩)
    have h20' : v % 2 ^ 30 / 2 ^ 20 = v / 2 ^ 20 % 1024 := by omega
    have hlay : layerOfRouter (v % 2 ^ 30 / 2 ^ 20 / 2) = v / 2 ^ 26 % 16 := by simp only [layerOfRouter]; omega
    refine misaligned hs (by simp) rfl (spaceEnd_vault (by omega) ?_ ((congrArg s.wellArea h20').trans hw) (by omega)) ha
    rwa [hlay]

/-- Settles O9: the checks of R104 in their order, from the space that the address lies in. -/
theorem accessChecks : Obligations.AccessChecks := ⟨localChecks, addressChecks⟩

end Sys2Proof.Claims
end

section
/-! SUPPORT. Traps: delivery, the two freezes, and what ERET leaves (R50, R186, R187, R189, R276, R362). -/

open Sys2Proof Sys2Proof.Machine

namespace Sys2Proof.Claims

/-- R186: a trap that is heard enters the handler. -/
theorem takeTrap_of_heard {s : State} (h : Heard s) (c : Cause) (tval : Word) :
    s.takeTrap c tval = entered s c.code tval s.core.pc := by
  obtain ⟨hp, hd, t, ht, he⟩ := h
  exact takeTrapAt_deliver ht hd hp he

/-- Settles O20: whatever the cause, a trap that is heard is delivered with its code. -/
theorem trapDelivery : Obligations.TrapDelivery := by
  intro s tval h p hp
  have hcode : p.1.code = p.2 := by
    simp only [List.mem_cons, List.not_mem_nil, or_false] at hp
    obtain h | h | h | h | h | h | h | h | h | h | h | h | h | h | h | h | h := hp <;> rw [h] <;> rfl
  rw [takeTrap_of_heard h, hcode]

/-! ### The instructions that trap or return -/

theorem privileged_pass {s : State} {k : Out} (h : s.core.p = true) : s.privileged k = k := if_pos h

theorem privileged_trap {s : State} {k : Out} (h : s.core.p = false) : s.privileged k = s.trap .priv 0 :=
  if_neg (by simp [h])

theorem trapsAndReturn : TrapsAndReturn := by
  intro s i w
  refine ⟨fun h => ?_, fun hp => privileged_pass hp⟩
  have next (c : Cause) (tval : Word) : s.trap c tval = .next (entered s c.code tval s.core.pc) :=
    congrArg _ (takeTrap_of_heard h c tval)
  exact ⟨next .trapi _, next .brk _, next .ill _, (privileged_trap h.1).trans (next .priv 0)⟩

theorem eretWords : EretWords := by
  refine ⟨rfl, fun o ho x y => ⟨.reserved, ?_⟩⟩
  have ho' : o.toNat ≠ 0 := fun h => ho (BitVec.eq_of_toNat_eq h)
  have hop : fOp (0x7A * 2 ^ 25 + o.toNat) = 0x7A := by
    have := o.isLt
    simp only [fOp, bits]
    omega
  have hlow : (bits (0x7A * 2 ^ 25 + o.toNat) 0 25 == 0) = false := by
    have := o.isLt
    simp only [bits, beq_eq_false_iff_ne]
    omega
  simp only [decodeWord, hop, dZ, hlow, need, Bool.false_eq_true, if_false]
  rfl

/-! ### A trap that no handler takes -/

/-- R276: a task that holds no place in a unit leaves nothing behind there. -/
theorem leaveUnits_of_none {s : State} {n : Nat} (hw : s.walks = []) (hr : s.reads = []) (ht : s.terms = []) :
    s.leaveUnits n = s := by
  obtain ⟨⟩ := s
  simp only at hw hr ht
  subst hw hr ht
  rfl

/-- R362, R363: a core alone, of a context that is not being stopped, is frozen where it stands. -/
theorem freezeHere_alone {s : State} {t : Task} (ht : s.core.task = some t) (hm : s.core.memberOf = none)
    (hl : s.core.members = []) (hh : s.core.ctx ∉ s.held) (hw : s.walks = []) (hr : s.reads = []) (hterm : s.terms = []) :
    s.freezeHere = { s with core := { s.core.abandon with frozen := true, tstate := .frozen } } := by
  have hcore : s.getCore s.core.num = s.core := if_pos rfl
  have hsaving : s.saving s.core.ctx = false := by simp [State.saving, hh]
  have hlig : s.ligature s.core.num = [s.core.num] := by simp [State.ligature, hcore, hm, hl]
  simp only [State.freezeHere, State.freezeAt, hcore, hm, Option.getD_none, hsaving, Bool.and_false, Bool.false_eq_true,
    if_false, hlig, List.foldl_cons, List.foldl_nil, leaveUnits_of_none hw hr hterm, State.modCore, ht,
    Option.isSome_some, if_true]
  exact if_pos rfl

/-- R50, R276: with no handler to take it, a trap is violation 1 in the handler and violation 2 outside it. -/
theorem takeTrap_unheard {s : State} {c : Cause} {tval : Word} {t : Task} (ht : s.core.task = some t)
    (hd : s.dbgEn s.core.ctx = false) (h : s.core.p = true ∨ t.hdr.handler = 0) :
    s.takeTrap c tval = s.violate (if s.core.p then 1 else 2) c.code s.core.pc := by
  cases hp : s.core.p with
  | true => exact takeTrapAt_violate hd hp
  | false =>
    have he : (t.hdr.handler == 0) = true := by simpa [hp] using h
    simp only [State.takeTrap, State.takeTrapAt, State.dbgCatch, hd, hp, ht, Bool.false_and, Bool.false_eq_true, if_false,
      Option.map_some, Option.getD_some, he, if_true]

theorem trapFreeze : TrapFreeze := by
  intro s cause tval t ht hd hm hl hw hr hterm hn hh h v
  rw [takeTrap_unheard ht hd h]
  simp only [State.violate, freezeHere_alone ht hm hl hh hw hr hterm, hm, Option.getD_none, ht, Option.map_some]
  rfl

/-- Settles O21: each of the instructions, the words of ERET's major, and the freeze of a trap with no handler. -/
theorem traps : Obligations.Traps := ⟨trapsAndReturn, eretWords, trapFreeze⟩

end Sys2Proof.Claims
end

section
/-! SUPPORT. The machine after reset (R48-R50, R151, R250, R308, R309, R330, R350). -/

open Sys2Proof Sys2Proof.Machine

namespace Sys2Proof.Claims

/-! ### The registers of space 4 that reset leaves at zero -/

theorem read_eq_zero {m : Memory} {a : Nat} (h : ∀ c ∈ m, c.1 ≠ a) : m.read a = 0 := by
  induction m with
  | nil => rfl
  | cons c t ih => simp [Memory.read, h c (by simp), ih fun d hd => h d (by simp [hd])]

theorem readN_eq_zero {m : Memory} : ∀ {n a : Nat}, (∀ c ∈ m, c.1 < a) → m.readN a n = 0
  | 0, _, _ => rfl
  | n + 1, a, h => by
    rw [Memory.readN, read_eq_zero fun c hc => (h c hc).ne, readN_eq_zero fun c hc => (h c hc).trans (by omega)]
    rfl

/-- R330: what reset sets in space 4 lies in the ports' configurations, below 0x41_0000. -/
theorem resetRegs_below : ∀ c ∈ resetRegs, c.1 < 0x0041_0000 := by decide +kernel

theorem reset_reg_eq_zero {a n : Nat} (h : 0x0041_0000 ≤ a) : State.reset.reg a n = 0 :=
  readN_eq_zero fun c hc => (resetRegs_below c hc).trans_le h

/-- R309: the entries of the stacks' page tables. -/
theorem reset_pte {t f : Nat} (ht : t < 8) : State.reset.pte t f = 0 :=
  (if_pos ht).trans (reset_reg_eq_zero (by omega))

theorem reset_anchor {t i : Nat} (ht : t < 8) : State.reset.anchor t i = 0 :=
  (if_pos ht).trans (reset_reg_eq_zero (by omega))

/-! ### The control registers -/

theorem reset_csr_eq_zero : ∀ n ∈ [0x001, 0x002, 0x005, 0x006, 0x007, 0x008, 0x009, 0x00A, 0x00B, 0x403, 0x404, 0x405,
    0x406, 0x408, 0x800, 0xC00], State.reset.csr n = some 0 := by decide +kernel

/-- R49: a core in no ligature. -/
theorem reset_geom : ∃ v, State.reset.csr 0x401 = some v ∧ v.toNat / 2 ^ 32 = 0
    ∧ v.toNat % 2 ^ 13 = State.reset.core.num :=
  ⟨State.reset.core.geom, rfl, by decide, by decide⟩

/-- R151: a preset's encode sequence serves. -/
theorem reset_tblst : State.reset.csr 0x407 = some 5 := by decide +kernel

theorem reset_prot : ∀ i < 16, State.reset.csr (0x810 + i) = some 0 := by decide +kernel

/-- R330: RTXL and LDLY of each port. -/
theorem reset_ports : ∀ p < 16, State.reset.reg (0x0040_0000 + 0x100 * p) 4 = 250
    ∧ State.reset.reg (0x0040_0004 + 0x100 * p) 1 = 16 := by decide +kernel

theorem reset_slotmap : ∀ k : Fin 64, State.reset.slotmap[k] =
    if k.val = 0 ∨ 61 ≤ k.val then 12#4 else BitVec.ofNat 4 (k.val % 12) := by decide +kernel

theorem resetValues : ResetValues :=
  ⟨reset_csr_eq_zero, reset_tblst, reset_geom, fun _ _ => reset_reg_eq_zero (by omega),
    fun _ _ => reset_reg_eq_zero (by omega), fun _ _ => reset_reg_eq_zero (by omega), fun _ ht _ _ => reset_pte ht,
    fun _ ht _ _ => reset_anchor ht, rfl, rfl, reset_slotmap, reset_prot, reset_ports, by decide +kernel, by decide +kernel⟩

/-- Settles O60: slot 0, the registers one by one, and the tables that nothing has been written to. -/
theorem reset : Obligations.Reset := ⟨slot0_reset, resetValues⟩

end Sys2Proof.Claims
end

section
/-! SUPPORT. GSTOP and GSTOP.GO: what each answers (R191, R299, R304). -/

open Sys2Proof Sys2Proof.Machine

namespace Sys2Proof.Claims

theorem retireMark_setX (s : State) (d : XReg) (v : Word) : (s.setX d v).retireMark = marked s d v := by
  rw [State.retireMark, retire_setX]
  rfl

theorem stopAndGo : StopAndGo := by
  intro s d a hu c
  refine ⟨fun hp => ⟨privileged_trap hp, privileged_trap hp⟩, fun hp hpr => ⟨fun h => ?_,
    fun hc hst hctx hstop => ?_⟩, fun hp hpr hstop => ?_, fun hp => ⟨fun h => ?_, fun hc hst => ?_⟩⟩
  · have hc : (decide (255 < c) || s.ctxState c != 1 || s.core.ctx == c || s.stopping c) = true := by
      simpa [or_assoc, Nat.lt_iff_add_one_le] using h
    refine (privileged_pass hp).trans (hu.guard.trans ?_)
    dsimp only
    rw [hpr, hc, ← retireMark_setX]
    rfl
  · have hno : (decide (255 < c) || s.ctxState c != 1 || s.core.ctx == c || s.stopping c) = false := by
      simp [hst, hctx, hstop]
      omega
    refine (privileged_pass hp).trans (hu.guard.trans ?_)
    dsimp only
    rw [hpr, hno]
    rfl
  · refine (privileged_pass hp).trans (hu.guard.trans ?_)
    dsimp only
    rw [hpr, hstop, ← retireMark_setX]
    rfl
  · have hc : (decide (255 < c) || s.ctxState c != 2) = true := by
      simpa [Nat.lt_iff_add_one_le] using h
    refine (privileged_pass hp).trans (hu.guard.trans ?_)
    dsimp only
    rw [hc, ← retireMark_setX]
    rfl
  · have hno : (decide (255 < c) || s.ctxState c != 2) = false := by
      simp [hst]
      omega
    refine (privileged_pass hp).trans (hu.guard.trans ?_)
    dsimp only
    rw [hno, ← retireMark_setX]
    rfl

end Sys2Proof.Claims
end

section
/-! SUPPORT. Stopping and resuming a gang: the halt, the drain, the queue of the resumed tasks, and the restore of a
record onto its home core (R299-R304). -/

open Sys2Proof Sys2Proof.Machine

namespace Sys2Proof.Claims

/-! ### Cores -/

theorem getCore_own (s : State) : s.getCore s.core.num = s.core := if_pos rfl

theorem getCore_num (s : State) (n : Nat) : (s.getCore n).num = n := by
  unfold State.getCore
  split
  case isTrue h => exact h
  case isFalse =>
    cases h : s.others.find? (·.num == n) with
    | none => rfl
    | some c => simpa using List.find?_some h

/-- A change that keeps the number of every core, made to the current one. -/
theorem modCore_own {s : State} {n : Nat} {f : Core → Core} (hn : s.core.num = n) (h : (f s.core).num = n) :
    s.modCore n f = { s with core := f s.core } := by
  subst hn
  simp only [State.modCore, getCore_own, State.putCore, h, if_true]

/-- A change that keeps the number of every core, made to another one. -/
theorem core_modCore_other {s : State} {n : Nat} {f : Core → Core} (hn : s.core.num ≠ n)
    (h : ∀ c, (f c).num = c.num) : (s.modCore n f).core = s.core := by
  simp only [State.modCore, State.putCore, h, getCore_num, hn, if_false]

theorem onCore_own (s : State) (f : State → State) (h : (f s).core.num = s.core.num) : s.onCore s.core.num f = f s := by
  have hf : s.focus s.core.num = s := if_pos rfl
  rw [State.onCore, hf]
  exact if_pos h

/-! ### The command of the stop, and the halt (R299, R300) -/

theorem command_head {s : State} {c : Command} {t : List Command} {k : State → State} (h : s.cmds = c :: t) :
    s.command c k = .next (k { s with cmds := t }) := by
  simp only [State.command, h, if_true]

theorem mem_haltsOf {s : State} {c : Nat} {k : Core} (h : k ∈ s.haltsOf c) : k.tstate ≠ .queued ∧ k.ctx = c := by
  simp only [State.haltsOf, State.coresOf, List.mem_filter, Bool.and_eq_true, beq_iff_eq, bne_iff_ne] at h
  exact ⟨h.2, h.1.2.2⟩

theorem haltCore_own {s : State} (hr : s.reads = []) (ht : s.terms = []) (hw : s.walks = [])
    (hn : s.core.halt.num = s.core.num) : s.haltCore s.core.num = { s with core := s.core.halt } := by
  rw [State.haltCore, leaveUnits_of_none hw hr ht]
  exact modCore_own rfl hn

/-- R300: a wait other than a YIELD's is abandoned. -/
theorem halt_of_wait {k : Core} (hq : k.tstate ≠ .queued) (hw : ∀ n, k.wait ≠ .yield n) : k.halt = k.abandon := by
  unfold Core.halt
  rw [if_neg (by simpa using hq)]
  split
  case h_1 n h => exact absurd h (hw n)
  case h_2 => rfl

/-- R50, R300: a YIELD ends. -/
theorem halt_of_yield {k : Core} {n : Nat} (hq : k.tstate ≠ .queued) (hw : k.wait = .yield n) : k.halt = { k with
    pc := k.npc, wait := .none, progress := .none, stalled := false, brkDue := k.ss && !k.p
    tstate := if k.tstate = .parked then .running else k.tstate } := by
  unfold Core.halt
  rw [if_neg (by simpa using hq), hw]
  simp only [Core.doneHalted, beq_iff_eq]

/-! ### The tasks of the records are queued again (R280, R304) -/

/-- What a record's task is in the queue. -/
def requeued (s : State) (k : Record) (y : Task) : Task :=
  { y with bound := some k.image.num, saved := true, resident := false
           level := if (s.getCore k.image.num).task.isSome ∨ (s.getCore k.image.num).memberOf.isSome then y.pri else 8 }

theorem requeue_eq (s : State) (k : Record) : s.requeue k = s
    ∧ (∀ y, k.image.task = some y → ∃ x ∈ s.queue, x.id = y.id)
    ∨ ∃ y, k.image.task = some y ∧ s.requeue k = { s with queue := s.queue ++ [requeued s k y] } := by
  unfold State.requeue
  split
  case h_1 y hy =>
    split
    case isTrue h =>
      obtain ⟨x, hx, hid⟩ := List.any_eq_true.1 h
      refine .inl ⟨rfl, fun z hz => ⟨x, hx, ?_⟩⟩
      cases hy.symm.trans hz
      exact beq_iff_eq.1 hid
    case isFalse =>
      refine .inr ⟨y, hy, ?_⟩
      simp only [requeued, State.taken, restoreLevel, Bool.or_eq_true]
  case h_2 h => exact .inl ⟨rfl, fun z hz => absurd hz (by simp [h])⟩

/-- The resumed tasks go behind the queue as it stands: each as its record's, and none is left out. -/
theorem foldl_requeue : ∀ (l : List Record) (s : State), ∃ q : List Task,
    l.foldl State.requeue s = { s with queue := s.queue ++ q }
    ∧ (∀ x ∈ q, ∃ k ∈ l, ∃ y, k.image.task = some y ∧ x = requeued s k y)
    ∧ ∀ k ∈ l, ∀ y, k.image.task = some y → ∃ x ∈ s.queue ++ q, x.id = y.id
  | [], s => ⟨[], by simp, by simp, by simp⟩
  | k :: l, s => by
    obtain ⟨hs, hid⟩ | ⟨y, hy, hs⟩ := requeue_eq s k
    · obtain ⟨q, hq, hmem, hall⟩ := foldl_requeue l s
      refine ⟨q, by rw [List.foldl_cons, hs, hq], fun x hx => ?_, ?_⟩
      · obtain ⟨r, hr, h⟩ := hmem x hx
        exact ⟨r, by simp [hr], h⟩
      · simp only [List.forall_mem_cons]
        refine ⟨fun z hz => ?_, hall⟩
        obtain ⟨x, hx, h⟩ := hid z hz
        exact ⟨x, by simp [hx], h⟩
    · obtain ⟨q, hq, hmem, hall⟩ := foldl_requeue l { s with queue := s.queue ++ [requeued s k y] }
      refine ⟨requeued s k y :: q, ?_, ?_, ?_⟩
      · rw [List.foldl_cons, hs, hq]
        simp
      · simp only [List.forall_mem_cons]
        refine ⟨⟨k, by simp, y, hy, rfl⟩, fun x hx => ?_⟩
        obtain ⟨r, hr, h⟩ := hmem x hx
        exact ⟨r, by simp [hr], h⟩
      · simp only [List.forall_mem_cons]
        refine ⟨fun z hz => ⟨requeued s k y, by simp, ?_⟩, fun r hr z hz => ?_⟩
        · cases hy.symm.trans hz
          rfl
        · obtain ⟨x, hx, h⟩ := hall r hr z hz
          exact ⟨x, by simpa using hx, h⟩

/-- R304: a record that the resume command names goes back to its core. -/
def resumedRecord (c : Nat) (k : Record) : Record := if k.ctx = c ∧ k.stop = true then { k with go := true } else k

theorem resumedRecord_eq (c : Nat) (k : Record) : resumedRecord c k = { k with go := (resumedRecord c k).go } := by
  unfold resumedRecord
  split <;> rfl

/-- The records whose tasks the resume command queues are the context's stopped ones. -/
theorem mem_resumed {l : List Record} {c : Nat} {r : Record} :
    r ∈ (l.map (resumedRecord c)).filter (fun k => k.ctx == c && k.stop)
      ↔ ∃ k ∈ l, k.ctx = c ∧ k.stop = true ∧ r = resumedRecord c k := by
  have hctx (k : Record) : (resumedRecord c k).ctx = k.ctx := by rw [resumedRecord_eq]
  have hstop (k : Record) : (resumedRecord c k).stop = k.stop := by rw [resumedRecord_eq]
  simp only [List.mem_filter, List.mem_map, Bool.and_eq_true, beq_iff_eq]
  constructor
  · rintro ⟨⟨k, hk, rfl⟩, hc, hs⟩
    exact ⟨k, hk, (hctx k).symm.trans hc, (hstop k).symm.trans hs, rfl⟩
  · rintro ⟨k, hk, hc, hs, rfl⟩
    exact ⟨⟨k, hk, rfl⟩, (hctx k).trans hc, (hstop k).trans hs⟩

theorem exec_resumeCommand {s : State} {c : Nat} {t : List Command} (h : s.cmds = .resume c :: t) :
    ∃ q : List Task, exec (.resumeCommand c) s = .next { s with
        cmds := t, held := s.held.filter (· != c), queue := s.queue ++ q
        records := s.records.map (resumedRecord c) }
      ∧ (∀ x ∈ q, ∃ k ∈ s.records, k.ctx = c ∧ k.stop = true ∧ ∃ y, k.image.task = some y ∧ x = requeued s k y)
      ∧ ∀ k ∈ s.records, k.ctx = c → k.stop = true → ∀ y, k.image.task = some y → ∃ x ∈ s.queue ++ q, x.id = y.id := by
  have himage (k : Record) : (resumedRecord c k).image = k.image := by rw [resumedRecord_eq]
  have hrec : (fun k : Record => if (decide (k.ctx = c) && k.stop) = true then { k with go := true } else k)
      = resumedRecord c := funext fun k => by simp [resumedRecord]
  obtain ⟨q, hq, hmem, hall⟩ := foldl_requeue ((s.records.map (resumedRecord c)).filter fun k => k.ctx == c && k.stop)
    { s with cmds := t, held := s.held.filter (· != c), records := s.records.map (resumedRecord c) }
  refine ⟨q, ?_, fun x hx => ?_, fun k hk hc hs y hy => ?_⟩
  · change execResumeCommand c s = _
    rw [execResumeCommand, command_head h]
    simp only [hrec, hq]
  · obtain ⟨r, hr, y, hy, hx⟩ := hmem x hx
    obtain ⟨k, hk, hc, hs, rfl⟩ := mem_resumed.1 hr
    rw [himage] at hy
    refine ⟨k, hk, hc, hs, y, hy, hx.trans ?_⟩
    rw [requeued, himage]
    rfl
  · exact hall _ (mem_resumed.2 ⟨k, hk, hc, hs, rfl⟩) y (by rw [himage, hy])

/-! ### The restore of a record (R303, R304) -/

@[simp] theorem num_setWaitOf (k w : Nat) (c : Core) : (c.setWaitOf k w).num = c.num := by
  simp only [Core.setWaitOf]
  split <;> rfl

@[simp] theorem num_setHead (v : Nat) (c : Core) : (c.setHead v).num = c.num := by
  unfold Core.setHead
  split <;> simp

@[simp] theorem num_setWaitWord (w : Nat) (c : Core) : (c.setWaitWord w).num = c.num := by
  unfold Core.setWaitWord
  (repeat' split) <;> rfl

@[simp] theorem num_setSlotWord (i : Nat) (v : Word) (c : Core) : (c.setSlotWord i v).num = c.num := by
  simp only [Core.setSlotWord]
  split_ifs <;> rfl

@[simp] theorem num_setMember (i v : Nat) (c : Core) : (c.setMember i v).num = c.num := by
  unfold Core.setMember
  split <;> rfl

@[simp] theorem num_setPin (i v : Nat) (c : Core) : (c.setPin i v).num = c.num := by
  unfold Core.setPin
  split <;> rfl

/-- Writing the field leaves the core's number. -/
def KeepsNum (f : Fld) : Prop := ∀ (m : Memory) (c : Core), (f.set m c).num = c.num

theorem keepsNum_wordFld {off : Nat} {get : Core → Word} {set : Word → Core → Core}
    (h : ∀ v c, (set v c).num = c.num) : KeepsNum (wordFld off get set) := fun _ c => h _ c

theorem keepsNum_numFld {off n : Nat} {get : Core → Nat} {set : Nat → Core → Core}
    (h : ∀ v c, (set v c).num = c.num) : KeepsNum (numFld off n get set) := fun _ c => h _ c

theorem keepsNum_csrFld (off : Nat) (get : Csrs → Word) (set : Word → Csrs → Csrs) :
    KeepsNum (csrFld off get set) := keepsNum_wordFld fun _ _ => rfl

theorem num_setMine (fs : List Flit) (c : Core) : (c.setMine fs).num = c.num := rfl

theorem keepsNum_inboxFld (off n i : Nat) (get : Flit → Memory) (set : Memory → Flit → Flit) :
    KeepsNum (inboxFld off n i get set) := by
  intro m c
  simp only [inboxFld]
  split <;> rfl

theorem keepsNum_csrFlds : ∀ f ∈ csrFlds, KeepsNum f := by
  simp only [csrFlds, List.forall_mem_cons, List.not_mem_nil, false_imp_iff, implies_true, and_true, keepsNum_csrFld,
    true_and]
  exact ⟨keepsNum_numFld fun _ _ => rfl, keepsNum_wordFld fun _ _ => rfl, keepsNum_wordFld fun _ _ => rfl,
    keepsNum_wordFld fun _ _ => rfl, keepsNum_wordFld fun _ _ => rfl⟩

theorem keepsNum_frameFlds : ∀ f ∈ frameFlds, KeepsNum f := by
  simp only [frameFlds, List.forall_mem_cons, List.forall_mem_map]
  exact ⟨fun _ _ => rfl, fun _ _ _ _ => rfl⟩

theorem keepsNum_messageFlds : ∀ f ∈ messageFlds, KeepsNum f := by
  simp only [messageFlds, List.forall_mem_append, List.forall_mem_cons, List.forall_mem_map, List.not_mem_nil,
    false_imp_iff, implies_true, and_true, keepsNum_inboxFld]
  exact ⟨keepsNum_numFld fun _ _ => rfl, keepsNum_numFld fun _ _ => num_setMine .., fun _ _ => rfl, fun _ _ => rfl,
    keepsNum_numFld fun _ _ => rfl⟩

theorem keepsNum_bulkFlds : ∀ f ∈ bulkFlds, KeepsNum f := by
  simp only [bulkFlds, List.forall_mem_append, List.forall_mem_cons, List.forall_mem_map, List.not_mem_nil,
    false_imp_iff, implies_true, and_true]
  refine ⟨⟨⟨⟨⟨⟨⟨?_, ?_, fun m c => ?_⟩, ?_⟩, ?_⟩, ?_⟩, ?_⟩, ?_⟩, ?_⟩
  case refine_3 => dsimp only; split <;> rfl
  · exact fun _ _ => rfl
  · exact fun _ _ => rfl
  all_goals exact fun _ _ _ _ => rfl

theorem keepsNum_headFlds : ∀ f ∈ headFlds, KeepsNum f := by
  simp only [headFlds, List.forall_mem_cons, List.not_mem_nil, false_imp_iff, implies_true, and_true]
  exact ⟨keepsNum_numFld num_setHead, keepsNum_numFld num_setWaitWord⟩

theorem keepsNum_lockFlds : ∀ f ∈ lockFlds, KeepsNum f := by
  simp only [lockFlds, List.forall_mem_map]
  exact fun _ _ _ _ => rfl

theorem keepsNum_streamFlds : ∀ f ∈ streamFlds, KeepsNum f := by
  simp only [streamFlds, List.forall_mem_map]
  exact fun _ _ _ _ => rfl

/-- R302: no field of a record names the core. -/
theorem keepsNum_layout : ∀ f ∈ layout, KeepsNum f := by
  have hreg {α : Type} {l : List α} {off : α → Nat} {get : α → Core → Word} {set : α → Word → Core → Core}
      (h : ∀ i v c, (set i v c).num = c.num) : ∀ i ∈ l, KeepsNum (wordFld (off i) (get i) (set i)) :=
    fun i _ => keepsNum_wordFld (h i)
  have hnum {l : List Nat} {off : Nat → Nat} {n : Nat} {get : Nat → Core → Nat} {set : Nat → Nat → Core → Core}
      (h : ∀ i v c, (set i v c).num = c.num) : ∀ i ∈ l, KeepsNum (numFld (off i) n (get i) (set i)) :=
    fun i _ => keepsNum_numFld (h i)
  simp only [layout, List.forall_mem_append, List.forall_mem_cons, List.forall_mem_map, List.not_mem_nil,
    false_imp_iff, implies_true, and_true]
  exact ⟨⟨⟨⟨⟨⟨⟨⟨⟨⟨⟨⟨⟨keepsNum_headFlds, keepsNum_wordFld fun _ _ => rfl, keepsNum_wordFld fun _ _ => rfl,
    keepsNum_numFld fun _ _ => rfl⟩, hreg num_setSlotWord⟩, hreg fun _ _ _ => rfl⟩, hreg fun _ _ _ => rfl⟩,
    keepsNum_csrFlds⟩, hreg fun _ _ _ => rfl⟩, keepsNum_frameFlds⟩, keepsNum_lockFlds⟩, keepsNum_streamFlds⟩,
    hnum num_setMember⟩, hnum num_setPin⟩, keepsNum_messageFlds⟩, keepsNum_bulkFlds⟩

/-- R303: what a record's bytes make of a core has the core's number. -/
theorem num_getFlds (s : State) (hv hb : Nat) (c : Core) :
    (layout.foldl (fun c f => s.getFld hv hb c f) c).num = c.num := by
  have : ∀ (l : List Fld), (∀ f ∈ l, KeepsNum f) → ∀ c : Core,
      (l.foldl (fun c f => s.getFld hv hb c f) c).num = c.num := by
    intro l
    induction l with
    | nil => exact fun _ _ => rfl
    | cons f l ih =>
      intro h c
      exact (ih (fun g hg => h g (by simp [hg])) _).trans (h f (by simp) _ _)
  exact this layout keepsNum_layout c

/-! ### What a restored core is -/

/-- The core runs its task, no record is left, and its number is n. -/
def Resumed (n : Nat) (s : State) : Prop :=
  s.records = [] ∧ s.core.num = n ∧ s.core.tstate = .running ∧ s.core.frozen = false

/-- R304: the record goes back onto the core that has the turn. -/
theorem load_own {s : State} {k : Record} (hk : s.records = [k]) (hn : k.image.num = s.core.num) :
    Resumed s.core.num (s.load k) ∧ (s.load k).queue = s.queue := by
  have hnum (c : Core) (asid : Nat) : (c.homePins asid).num = c.num := rfl
  simp only [Resumed, State.load, State.putCore, State.poisonIn, hnum, num_getFlds, hn, if_true, hk]
  simp

theorem resumed_modCore {s : State} {n m : Nat} {f : Core → Core} (h : Resumed n s)
    (hf : ∀ c, (f c).num = c.num ∧ (f c).tstate = c.tstate ∧ (f c).frozen = c.frozen) :
    Resumed n (s.modCore m f) ∧ (s.modCore m f).queue = s.queue := by
  obtain ⟨hr, hn, ht, hz⟩ := h
  obtain ⟨fn, ft, fz⟩ := hf s.core
  by_cases hm : s.core.num = m
  · rw [modCore_own hm (fn.trans hm)]
    exact ⟨⟨hr, fn.trans hn, ft.trans ht, fz.trans hz⟩, rfl⟩
  · have hc := core_modCore_other hm fun c => (hf c).1
    have hne : s.core.num ≠ (f (s.getCore m)).num := by rw [(hf _).1, getCore_num]; exact hm
    rw [Resumed, hc, State.modCore, State.putCore, if_neg hne]
    exact ⟨⟨hr, hn, ht, hz⟩, rfl⟩

theorem resumed_sendRequest {s : State} {n : Nat} (r : Request) (h : Resumed n s) :
    Resumed n (s.sendRequest r) ∧ (s.sendRequest r).queue = s.queue := by
  unfold State.sendRequest
  split <;> exact ⟨h, rfl⟩

theorem resumed_sendRequests {n : Nat} : ∀ (l : List Request) {s : State}, Resumed n s →
    Resumed n (l.foldl State.sendRequest s) ∧ (l.foldl State.sendRequest s).queue = s.queue
  | [], _, h => ⟨h, rfl⟩
  | r :: l, _, h => by
    obtain ⟨h1, q1⟩ := resumed_sendRequest r h
    obtain ⟨h2, q2⟩ := resumed_sendRequests l h1
    exact ⟨h2, q2.trans q1⟩

theorem resumed_modCore_sendRequests {s u : State} {n m : Nat} {f : Core → Core} {l : List Request} (hu : Resumed n u)
    (hq : u.queue = s.queue) (hf : ∀ c, (f c).num = c.num ∧ (f c).tstate = c.tstate ∧ (f c).frozen = c.frozen) :
    Resumed n (l.foldl State.sendRequest (u.modCore m f))
      ∧ (l.foldl State.sendRequest (u.modCore m f)).queue = s.queue := by
  obtain ⟨h1, q1⟩ := resumed_modCore hu hf
  obtain ⟨h2, q2⟩ := resumed_sendRequests l h1
  exact ⟨h2, q2.trans (q1.trans hq)⟩

/-- R110, R304: the requests that a stopped task has not sent leave. -/
theorem resumed_resend {s : State} {n : Nat} (t : Nat) (h : Resumed n s) :
    Resumed n (s.resend t) ∧ (s.resend t).queue = s.queue := by
  unfold State.resend
  split
  · exact ⟨h, rfl⟩
  split
  · exact ⟨h, rfl⟩
  obtain ⟨hr, hn, ht, hz⟩ := h
  refine resumed_modCore_sendRequests ⟨?_, ?_, ?_, ?_⟩ rfl fun c => ⟨rfl, rfl, rfl⟩
  · simp only [hr, List.map_nil]
  all_goals
    dsimp only
    split
    · assumption
    · assumption

/-! ### The queue while a task leaves it (R170) -/

/-- A dispatcher that has room takes tasks that SPAWN has handed over, and nothing else changes. -/
def Filled (s t : State) : Prop :=
  (∃ q sp, t = { s with queue := q, spawns := sp })
  ∧ (∀ y ∈ t.queue, y ∈ s.queue ∨ ∃ x ∈ s.spawns, x.id = y.id) ∧ ∀ x ∈ t.spawns, x ∈ s.spawns

theorem Filled.refl (s : State) : Filled s s := ⟨⟨s.queue, s.spawns, rfl⟩, fun _ h => .inl h, fun _ h => h⟩

theorem Filled.trans {s t u : State} (h : Filled s t) (h' : Filled t u) : Filled s u := by
  obtain ⟨⟨q, sp, rfl⟩, hq, hsp⟩ := h
  obtain ⟨⟨q', sp', rfl⟩, hq', hsp'⟩ := h'
  refine ⟨⟨q', sp', rfl⟩, fun y hy => ?_, fun x hx => hsp x (hsp' x hx)⟩
  obtain h | ⟨x, hx, hid⟩ := hq' y hy
  · exact hq y h
  · exact .inr ⟨x, hsp x hx, hid⟩

theorem mem_of_mem_dropFirst {α : Type} {p : α → Bool} {a : α} : ∀ {l : List α}, a ∈ dropFirst p l → a ∈ l
  | b :: l, h => by
    unfold dropFirst at h
    split at h
    · exact List.mem_cons_of_mem b h
    · obtain rfl | h := List.mem_cons.1 h
      · exact List.mem_cons_self
      · exact List.mem_cons_of_mem b (mem_of_mem_dropFirst h)

theorem filled_refill (s : State) (dom : Nat) : Filled s (s.refill dom) := by
  unfold State.refill
  split
  · exact .refl s
  split
  case h_1 t ht =>
    refine ⟨⟨_, _, rfl⟩, fun y hy => ?_, fun x hx => mem_of_mem_dropFirst hx⟩
    obtain h | h := List.mem_append.1 hy
    · exact .inl h
    · rw [List.mem_singleton.1 h]
      exact .inr ⟨t, List.mem_of_find?_eq_some ht, rfl⟩
  case h_2 => exact .refl s

theorem filled_refillAll (s : State) : Filled s s.refillAll := by
  have : ∀ (l : List Nat) (u : State), Filled u (l.foldl State.refill u) := by
    intro l
    induction l with
    | nil => exact .refl
    | cons d l ih => exact fun u => (filled_refill u d).trans (ih _)
  exact this _ s

/-! ### The restore as a whole -/

/-- R216: a task that had no ligature is composed with no core. -/
theorem recompose_one (s : State) : s.recompose 1 = s := by
  have : largestSize (Nat.min 1 ((s.idleCores s.core.num).length + 1)) = 1 := by
    rw [show Nat.min 1 ((s.idleCores s.core.num).length + 1) = 1 from Nat.min_eq_left (by omega)]
    rfl
  simp only [State.recompose, this, if_true]

theorem onCore_recompose_one {s : State} {n : Nat} (hn : s.core.num = n) : s.onCore n (State.recompose 1) = s := by
  subst hn
  rw [onCore_own s _ (by rw [recompose_one]), recompose_one]

/-- R304: what a restored core waited for is issued again. -/
theorem release_own {s : State} {n : Nat} (h : Resumed n s) :
    Resumed n (s.release n) ∧ (s.release n).core.wait = .none ∧ (s.release n).queue = s.queue := by
  obtain ⟨hr, hn, ht, hz⟩ := h
  rw [State.release, modCore_own hn hn]
  exact ⟨⟨hr, hn, ht, hz⟩, rfl, rfl⟩

/-- R199: no core before this one of its router has a task to start. -/
theorem firstServed_of {s : State} {n : Nat} (h : ∀ m < n, m / 16 = n / 16 → s.canStart m = false) :
    s.firstServed n = true := by
  simp only [State.firstServed, Bool.not_eq_true', List.any_eq_false, List.mem_range, routerOf]
  intro i hi
  simp [h (16 * (n / 16) + i) (by omega) (by omega)]

theorem exec_recordRestore {s : State} {c r : Nat} {k : Record} (hrec : s.records = [k]) (hc : k.ctx = c) (hd : k.dom = r)
    (hstop : k.stop = true) (hgo : k.go = true) (hst : s.recordState k ≠ none) (hn : k.image.num = s.core.num)
    (hm : k.image.members = []) (htask : s.core.task = none) (hel : s.eligible s.core.num = true)
    (hfirst : s.firstServed s.core.num = true)
    (hnext : (s.nextTaskFor s.core.num).map (·.id) = k.image.task.map (·.id)) :
    ∃ u v : State, Filled { s with queue := s.queue.filter fun q => some q.id != k.image.task.map (·.id) } u
      ∧ Resumed s.core.num v ∧ v.queue = u.queue
      ∧ exec (.recordRestore c r k.num) s = .next (v.release s.core.num) := by
  have hfind : (s.records.find? fun q => q.ctx == c && q.dom == r && q.num == k.num && q.stop && q.go) = some k := by
    simp [hrec, hc, hd, hstop, hgo]
  obtain ⟨st, hst⟩ := Option.ne_none_iff_exists'.1 hst
  have hturn : (s.eligible s.core.num && s.firstServed s.core.num
      && (s.nextTaskFor s.core.num).map Task.id == k.image.task.map Task.id) = true := by
    simp [hel, hfirst, hnext]
  have hpark : s.parkSave s.core.num = some s := by simp only [State.parkSave, getCore_own, htask]
  have hu := filled_refillAll { s with queue := s.queue.filter fun q => some q.id != k.image.task.map (·.id) }
  set u := State.refillAll { s with queue := s.queue.filter fun q => some q.id != k.image.task.map (·.id) } with hudef
  have hcore : u.core = s.core := by
    obtain ⟨⟨q, sp, h⟩, -⟩ := hu
    rw [h]
  have hurec : u.records = [k] := by
    obtain ⟨⟨q, sp, h⟩, -⟩ := hu
    rw [h]
    exact hrec
  obtain ⟨hload, hqload⟩ := load_own hurec (hn.trans (congrArg Core.num hcore).symm)
  obtain ⟨hv, hqv⟩ := resumed_resend ((k.image.task.map Task.id).getD 0) hload
  rw [hcore] at hv
  refine ⟨u, { (u.load k).resend ((k.image.task.map Task.id).getD 0) with
    lost := ((u.load k).resend ((k.image.task.map Task.id).getD 0)).lost
      ++ k.lost.map fun a => { core := s.core.num, cls := a } }, hu, hv, hqv.trans hqload, ?_⟩
  change execRecordRestore c r k.num s = _
  simp only [execRecordRestore, hfind, hst, hn, hturn, hpark, hm, List.length_nil, Nat.zero_add, if_true, ← hudef]
  congr 2
  exact onCore_recompose_one hv.2.1

theorem gangStops : GangStops := by
  intro s c t
  refine ⟨fun h => ?_, fun k => mem_haltsOf, fun hq hr hterm hw => ⟨fun hy => ?_, fun n hy => ?_⟩,
    fun hheld hstop hcmd hdrain u hu => ?_, fun hdrain => ?_, fun h => ?_,
    fun k r hrec hc hd hstop hgo hst hn hm h6144 htask hel hfirst hnext => ?_⟩
  · change execGangStopCommand c s = _
    rw [execGangStopCommand, command_head h]
    rfl
  · rw [haltCore_own hr hterm hw (by rw [halt_of_wait hq hy]; rfl), halt_of_wait hq hy]
  · rw [haltCore_own hr hterm hw (by rw [halt_of_yield hq hy]), halt_of_yield hq hy]
  · change execGangStopDrainComplete c s = _
    simp only [execGangStopDrainComplete, hheld, hstop, hcmd, hdrain, hu, Bool.not_false, Bool.and_self, if_true]
  · change execGangStopDrainComplete c s = _
    simp only [execGangStopDrainComplete, hdrain, Bool.and_false, Bool.false_eq_true, if_false]
  · exact exec_resumeCommand h
  · obtain ⟨u, v, ⟨-, hq, -⟩, hv, hqv, he⟩ := exec_recordRestore hrec hc hd hstop hgo hst hn hm htask hel
      (firstServed_of hfirst) hnext
    obtain ⟨⟨hrec', hnum, hrun, hfrozen⟩, hwait, hqueue⟩ := release_own hv
    refine ⟨_, he, hrec', hnum, hrun, hwait, hfrozen, fun y hy => ?_⟩
    rw [hqueue, hqv] at hy
    obtain h | h := hq y hy
    · exact .inl (by simpa using (List.mem_filter.1 h).2)
    · exact .inr h

/-- Settles O38: what GSTOP and GSTOP.GO answer, and the stop, the drain and the restore that they ask for. -/
theorem stoppedCores : Obligations.StoppedCores := ⟨stopAndGo, gangStops⟩

end Sys2Proof.Claims
end

section
/-! SUPPORT. A read of RSLOT in a state whose order of remote loads names a core that the state does not list
(R350, R352). -/

open Sys2Proof Sys2Proof.Machine

namespace Sys2Proof.Claims

/-- A core right after reset, with eight registers, whose order of remote loads has an entry of core 1's slot 0. Core 1
is as at reset, so the state does not list it, and the slot is free. -/
def unlistedSlot : State := { core := { rlim := 8, rorder := [(1, 0)] } }

/-- The free slot has no register still to write, so nothing stands in the way of an instruction. -/
theorem unlistedSlot_usable : Usable unlistedSlot [(1 : XReg).val] [cellTab] :=
  ⟨fun i hi => by rw [List.mem_singleton.1 hi]; decide, by decide, fun c _ => by simp [unlistedSlot]⟩

/-- What the next state of an outcome lists beside its current core. -/
def othersOf : Out → List Nat
  | .next t => t.others.map (·.num)
  | _ => []

/-- R350: the read takes its destination from the order's entries, and so puts core 1 in the list. -/
theorem othersOf_csrr_unlistedSlot : othersOf (exec (.csrr 1 0x408) unlistedSlot) = [1] := by decide +kernel

/-- Refutes O19: with `unlistedSlot`, whose order of remote loads names core 1, CSRR of RSLOT does more than write its
register: it lists core 1, as at reset, among the cores that hold any state. -/
theorem not_controlRegisters : ¬ Obligations.ControlRegisters := by
  rintro ⟨hreads, -⟩
  obtain ⟨hrow, -⟩ := hreads unlistedSlot 1 0x408 unlistedSlot_usable rfl
  have hread := hrow (by decide) (0x408, unlistedSlot.core.rslot) (by simp) rfl
  have hlist : [1] = [] := othersOf_csrr_unlistedSlot.symm.trans (congrArg othersOf hread)
  exact absurd hlist (by decide)

end Sys2Proof.Claims
end

section
/-! SUPPORT. What the shapes of the scalar instructions come to once their registers are usable (R39, R78), and how
the decoder answers words of the R and I formats (R53, R65). -/

open Sys2Proof Sys2Proof.Machine

namespace Sys2Proof.Claims

/-! ### Operand shapes -/

theorem Usable.mono {s : State} {fields fields' cells cells' : List Nat} (h : Usable s fields' cells')
    (hf : fields ⊆ fields') (hc : cells ⊆ cells') : Usable s fields cells := by
  obtain ⟨hnamed, hawaits, hclean⟩ := h
  refine ⟨fun i hi => hnamed i (hf hi), ?_, fun c hcell => hclean c (hc hcell)⟩
  rw [State.awaits, Bool.and_eq_false_iff, List.any_eq_false] at hawaits ⊢
  exact hawaits.imp_right fun hnone i hi => hnone i (hf hi)

theorem alu1_usable {s : State} {d : XReg} {a : XSrc} (h : Usable s (d.val :: a.regs) a.cells) (f : Word → Word) :
    s.alu1 d a f = .next (wrote s d (f (s.src a)) s.core.npc) :=
  h.guard.trans (by rw [retire_setX])

theorem alu2_usable {s : State} {d : XReg} {a b : XSrc}
    (h : Usable s (d.val :: (a.regs ++ b.regs)) (a.cells ++ b.cells)) (f : Word → Word → Word) :
    s.alu2 d a b f = .next (wrote s d (f (s.src a) (s.src b)) s.core.npc) :=
  h.guard.trans (by rw [retire_setX])

/-- R78: where the destination is a source too, it is checked with the other sources. -/
theorem alu3_usable {s : State} {d : XReg} {a b : XSrc}
    (h : Usable s (d.val :: (a.regs ++ b.regs)) (a.cells ++ b.cells)) (hd : Usable s [] [cellX d.val])
    (f : Word → Word → Word → Word) :
    s.alu3 d a b f = .next (wrote s d (f (s.rx d) (s.src a) (s.src b)) s.core.npc) := by
  obtain ⟨hnamed, hawaits, hcells⟩ := h
  have hd' : Place.reg s.core.num (cellX d.val) ∉ s.poison := hd.2.2 _ (List.mem_singleton_self _)
  have h' : Usable s (d.val :: (a.regs ++ b.regs)) (cellX d.val :: (a.cells ++ b.cells)) :=
    ⟨hnamed, hawaits, List.forall_mem_cons.2 ⟨hd', hcells⟩⟩
  exact h'.guard.trans (by rw [retire_setX])

/-- An instruction whose meaning is such a shape writes the value of the shape's function. -/
theorem exec_of_alu1 {s : State} {d : XReg} {a : XSrc} {i : Instr} {v : Word} (h : Usable s (d.val :: a.regs) a.cells)
    (f : Word → Word) (hi : exec i s = s.alu1 d a f) (hv : f (s.src a) = v) :
    exec i s = .next (wrote s d v s.core.npc) := by
  rw [hi, alu1_usable h, hv]

theorem exec_of_alu2 {s : State} {d : XReg} {a b : XSrc} {i : Instr} {v : Word}
    (h : Usable s (d.val :: (a.regs ++ b.regs)) (a.cells ++ b.cells)) (f : Word → Word → Word)
    (hi : exec i s = s.alu2 d a b f) (hv : f (s.src a) (s.src b) = v) : exec i s = .next (wrote s d v s.core.npc) := by
  rw [hi, alu2_usable h, hv]

/-! ### The fields of a word -/

section
variable {op : Nat} (hop : op < 128) (d s t : BitVec 6) (fn : BitVec 7) (i : BitVec 13)

include hop in
theorem fOp_wordR : fOp (wordR op d s t fn) = op := by
  simp only [fOp, bits, wordR]
  omega

include hop in
theorem fOp_wordI : fOp (wordI op d s i) = op := by
  simp only [fOp, bits, wordI]
  omega

variable (op)

theorem fRd_wordR : fRd (wordR op d s t fn) = d.toNat := by
  simp only [fRd, bits, wordR]
  omega

theorem fRt_wordR : fRt (wordR op d s t fn) = t.toNat := by
  simp only [fRt, bits, wordR]
  omega

theorem fFn_wordR : fFn (wordR op d s t fn) = fn.toNat := by
  simp only [fFn, bits, wordR]
  omega

theorem fRd_wordI : fRd (wordI op d s i) = d.toNat := by
  simp only [fRd, bits, wordI]
  omega

theorem fRs_wordI : fRs (wordI op d s i) = s.toNat := by
  simp only [fRs, bits, wordI]
  omega

end

/-! ### Words that are no instruction -/

/-- Where the rest of a decoder fails whatever stands before it, the whole fails. -/
theorem bind_error {ε α β : Type} {x : Except ε α} {f : α → Except ε β} (h : ∀ a, ∃ e, f a = .error e) :
    ∃ e, (x >>= f) = .error e := by
  cases x with
  | error e => exact ⟨e, rfl⟩
  | ok a => exact h a

/-- R10: a check that is not met ends the decoding. -/
theorem need_bind_error {β : Type} {c : Bool} {e : DecodeError} {f : Unit → Except DecodeError β} (hc : c = false) :
    ∃ e', (need c e >>= f) = .error e' := by
  rw [hc]
  exact ⟨e, rfl⟩

theorem dR2_error {w l0 l1 : Nat} {k : XReg → XSrc → Instr} (h : fRt w ≠ 0) : ∃ e, dR2 w l0 l1 k = .error e :=
  bind_error fun _ => need_bind_error (beq_eq_false_iff_ne.2 h)

theorem dS1_error {w l0 l1 : Nat} {k : XSrc → Instr} (h : fRd w ≠ 0 ∨ fRt w ≠ 0) : ∃ e, dS1 w l0 l1 k = .error e :=
  need_bind_error (by rw [Bool.and_eq_false_iff, beq_eq_false_iff_ne, beq_eq_false_iff_ne]; exact h)

theorem toNat_ne_zero {n : Nat} {v : BitVec n} (h : v ≠ 0) : v.toNat ≠ 0 := fun h0 => h (BitVec.eq_of_toNat_eq h0)

end Sys2Proof.Claims
end

section
/-! SUPPORT. Branches, jumps, calls and the counted loop (R90-R94). -/

open Sys2Proof Sys2Proof.Machine

namespace Sys2Proof.Claims

/-! ### Branches and jumps -/

/-- R90: a branch whose registers are usable goes to its target where the condition holds. -/
theorem branch_usable {s : State} {a b : XSrc} (h : Usable s (a.regs ++ b.regs) (a.cells ++ b.cells)) (o : BitVec 13)
    (c : Word → Word → Bool) : s.branch a b o c
      = .next (went s (if c (s.src a) (s.src b) = true then dest s (o.signExtend 64) else s.core.npc)) := by
  refine h.guard.trans ?_
  split <;> rfl

theorem goto_setX (s : State) (d : XReg) (v t : Word) : (s.setX d v).goto t = wrote s d v t := by
  rw [setX_eq]
  rfl

/-- R38, R92: a jump that links writes the link register and the link shadow alike. -/
theorem goto_setLink_setX (s : State) (d : XReg) (v t : Word) : ((s.setX d v).setLink v).goto t
    = { wrote s d v t with core := { (wrote s d v t).core with link := v } } := by
  rw [setX_eq]
  rfl

/-- R93: an indirect target that is word aligned is taken, any other raises ALIGN. -/
theorem guard_indirect_aligned {s : State} {fields cells : List Nat} {t : Word} {k : Out} (hu : Usable s fields cells)
    (h : t.toNat % 4 = 0) : s.guard fields cells (s.indirect t k) = k :=
  hu.guard.trans (if_neg (not_not.2 h))

theorem guard_indirect_misaligned {s : State} {fields cells : List Nat} {t : Word} {k : Out}
    (hu : Usable s fields cells) (h : t.toNat % 4 ≠ 0) :
    s.guard fields cells (s.indirect t k) = .next (s.takeTrap .align t) :=
  hu.guard.trans (if_pos h)

theorem jumps : Jumps := by
  intro s d a b
  refine ⟨fun hu o => ?_, fun o => ⟨rfl, rfl, fun hu => ?_, fun hlim => ?_⟩, fun hu => ⟨fun h => ?_, fun h => ?_⟩,
    fun hu => ⟨fun h => ?_, fun h => ?_⟩⟩
  · intro t n
    refine ⟨(branch_usable hu o _).trans ?_, (branch_usable hu o _).trans ?_, (branch_usable hu o _).trans ?_,
      (branch_usable hu o fun x y => !x.slt y).trans ?_⟩
    · simp only [beq_iff_eq, t, n]
    · simp only [bne_iff_ne, ne_eq, ite_not, t, n]
    · simp only [BitVec.slt_iff_toInt_lt, t, n]
    · simp only [Bool.not_eq_true', ← Bool.not_eq_true, BitVec.slt_iff_toInt_lt, ite_not, t, n]
  · exact hu.guard.trans (congrArg _ (goto_setLink_setX ..))
  · exact guard_regidx (pre := []) (by simp) one_ne_zero hlim
  · exact ⟨guard_indirect_aligned hu h, guard_indirect_aligned hu h⟩
  · exact ⟨guard_indirect_misaligned hu h, guard_indirect_misaligned hu h⟩
  · exact (guard_indirect_aligned hu h).trans (congrArg _ (goto_setLink_setX ..))
  · exact guard_indirect_misaligned hu h

/-- R94: every word of the major is a no-op that holds its other 25 bits. -/
theorem decodeWord_hint (o : BitVec 25) (x y : Nat) : decodeWord (0x0F * 2 ^ 25 + o.toNat) x y = .ok (.hint o) := by
  have hop : fOp (0x0F * 2 ^ 25 + o.toNat) = 0x0F := by
    simp only [fOp, bits]
    omega
  have ho : BitVec.ofNat 25 (0x0F * 2 ^ 25 + o.toNat) = o := by
    apply BitVec.eq_of_toNat_eq
    simp only [BitVec.toNat_ofNat]
    omega
  simp only [decodeWord, hop, ho]

/-- R93: JR and RET have no destination and no second source, JALR no second source. -/
theorem decJr_error {w l0 l1 : Nat} (h : 3 ≤ fFn w ∨ fRt w ≠ 0 ∨ fFn w ≠ 1 ∧ fRd w ≠ 0) :
    ∃ e, decJr w l0 l1 = .error e := by
  unfold decJr
  split
  case h_1 hfn => exact dS1_error (by omega)
  case h_2 hfn => exact dR2_error (by omega)
  case h_3 hfn => exact dS1_error (by omega)
  case h_4 => exact ⟨_, rfl⟩

theorem jumpWords : JumpWords := by
  refine ⟨decodeWord_hint, decodeWord_hint 0 0 0, fun d s t fn h x y => ?_⟩
  simp only [decodeWord, fOp_wordR (show 0x15 < 128 by decide)]
  refine decJr_error ?_
  rw [fFn_wordR, fRt_wordR, fRd_wordR]
  obtain h | h | ⟨hfn, hd⟩ := h
  · exact .inl h
  · exact .inr (.inl (toNat_ne_zero h))
  · exact .inr (.inr ⟨fun e => hfn (BitVec.eq_of_toNat_eq e), toNat_ne_zero hd⟩)

/-- Settles O4: a branch by its condition, a jump by its target's alignment, and the words that R93 rules out. -/
theorem controlFlow : Obligations.ControlFlow := ⟨jumps, jumpWords⟩

/-! ### The counted loop -/

theorem countedLoop : CountedLoop := by
  intro s c o hc hu
  refine hu.guard.trans ?_
  simp only [bne_iff_ne, ne_eq, sub_eq_zero, ite_not]
  split
  · rw [retire_setX]
  · rw [goto_setX]
    rfl

/-- R91: LOOP has no second register, and its counter is not x0. -/
theorem decLoop_error {w : Nat} (h : fRs w ≠ 0 ∨ fRd w = 0) : ∃ e, decLoop w = .error e := by
  obtain hs | hd := h
  · exact need_bind_error (beq_eq_false_iff_ne.2 hs)
  · refine bind_error fun _ => ⟨.operand, ?_⟩
    rw [hd]
    rfl

theorem loopRest : LoopRest := by
  intro c t o h x y
  simp only [decodeWord, fOp_wordI (show 0x14 < 128 by decide)]
  refine decLoop_error ?_
  rw [fRs_wordI, fRd_wordI]
  exact h.imp toNat_ne_zero (congrArg BitVec.toNat)

/-- Settles O5: the counter one lower and the branch it decides, and the words that R91 rules out. -/
theorem countedLoops : Obligations.CountedLoops := ⟨countedLoop, loopRest⟩

end Sys2Proof.Claims
end

section
/-! SUPPORT. Integer arithmetic of two sources: the value of each member by what R80, R83, R84 and R88 say of it, and
the sub-codes that stand for none (R13-R16). -/

open Sys2Proof Sys2Proof.Machine

namespace Sys2Proof.Claims

/-! ### Words of 32 bits (R14) -/

theorem lo32_eq (x : Word) : lo32 x = x.extractLsb' 0 32 := by
  apply BitVec.eq_of_toNat_eq
  simp [lo32]

theorem lo32_sub (x y : Word) : lo32 (x - y) = lo32 x - lo32 y := by
  apply BitVec.eq_of_toNat_eq
  simp only [lo32, BitVec.truncate_eq_setWidth, BitVec.toNat_setWidth, BitVec.toNat_sub]
  omega

theorem lo32_add (x y : Word) : lo32 (x + y) = lo32 x + lo32 y := BitVec.setWidth_add x y (by decide)

/-! ### Shifts and rotations -/

/-- R13, R80: an arithmetic shift divides by a power of two, rounding down. -/
theorem toInt_sshiftRight_eq_div {w : Nat} (x : BitVec w) (n : Nat) : (x.sshiftRight n).toInt = x.toInt / 2 ^ n := by
  rw [BitVec.toInt_sshiftRight, Int.shiftRight_eq_div_pow, Nat.cast_pow, Nat.cast_ofNat]

theorem fSra_eq (x y : Word) : fSra x y = BitVec.ofInt 64 (x.toInt / 2 ^ (y.toNat % 64)) := by
  rw [← toInt_sshiftRight_eq_div, BitVec.ofInt_toInt]
  rfl

theorem fSraW_eq (x y : Word) :
    fSraW x y = BitVec.ofInt 64 ((x.extractLsb' 0 32).toInt / 2 ^ (y.toNat % 64)) := by
  rw [← toInt_sshiftRight_eq_div, ← lo32_eq]
  rfl

/-- R80: a word shifted by 32 or more is zero. -/
theorem fSllW_eq (x y : Word) : fSllW x y = if 32 ≤ y.toNat % 64 then 0
    else (x.extractLsb' 0 32 <<< (y.toNat % 64)).signExtend 64 := by
  rw [fSllW, lo32_eq, shAmt]
  split
  case isTrue h => rw [BitVec.shiftLeft_eq_zero h]; rfl
  case isFalse => rfl

theorem fSrlW_eq (x y : Word) : fSrlW x y = if 32 ≤ y.toNat % 64 then 0
    else (x.extractLsb' 0 32 >>> (y.toNat % 64)).zeroExtend 64 := by
  rw [fSrlW, lo32_eq, shAmt]
  split
  case isTrue h => rw [BitVec.ushiftRight_eq_zero h]; rfl
  case isFalse => rfl

theorem fRor_eq (x y : Word) : fRor x y = x >>> (y.toNat % 64) ||| x <<< (64 - y.toNat % 64) := by
  rw [fRor, shAmt, BitVec.rotateRight_def, Nat.mod_mod]

theorem fRorW_eq (x y : Word) : fRorW x y = (x.extractLsb' 0 32 >>> (y.toNat % 64 % 32)
    ||| x.extractLsb' 0 32 <<< (32 - y.toNat % 64 % 32)).zeroExtend 64 := by
  rw [fRorW, shAmt, lo32_eq, BitVec.rotateRight_def, Nat.mod_mod]
  rfl

/-- A left shift multiplies by a power of two. -/
theorem shiftLeft_eq_mul_ofNat {w : Nat} (x : BitVec w) (n : Nat) : x <<< n = x * BitVec.ofNat w (2 ^ n) := by
  apply BitVec.eq_of_toNat_eq
  rw [BitVec.toNat_shiftLeft, Nat.shiftLeft_eq, BitVec.toNat_mul, BitVec.toNat_ofNat, Nat.mul_mod_mod]

theorem fAddsh_eq (k : BitVec 3) (x y : Word) : fAddsh k x y = x + y * BitVec.ofNat 64 (2 ^ k.toNat) := by
  rw [fAddsh, shiftLeft_eq_mul_ofNat]

/-! ### The lesser and the greater -/

theorem fMin_eq (x y : Word) : fMin x y = if x.toInt < y.toInt then x else y := by
  simp only [fMin, BitVec.slt_iff_toInt_lt]

theorem fMax_eq (x y : Word) : fMax x y = if x.toInt < y.toInt then y else x := by
  simp only [fMax, BitVec.slt_iff_toInt_lt]

theorem fMinu_eq (x y : Word) : fMinu x y = if x.toNat < y.toNat then x else y := by
  simp only [fMinu, BitVec.ult_iff_lt, BitVec.lt_def]

theorem fMaxu_eq (x y : Word) : fMaxu x y = if x.toNat < y.toNat then y else x := by
  simp only [fMaxu, BitVec.ult_iff_lt, BitVec.lt_def]

/-! ### Products (R83) -/

/-- The high half of an exact product is that of the product of 128 bits. -/
theorem hi128_mul (p q : Int) : hi128 (p * q) = (BitVec.ofInt 128 p * BitVec.ofInt 128 q).extractLsb' 64 64 := by
  rw [← BitVec.ofInt_mul]
  apply BitVec.eq_of_toNat_eq
  rw [hi128, BitVec.extractLsb'_toNat, BitVec.toNat_ofInt, BitVec.toNat_ofInt, Nat.shiftRight_eq_div_pow]
  omega

theorem ofInt_toNat_eq_zeroExtend (x : Word) : BitVec.ofInt 128 (x.toNat : Int) = x.zeroExtend 128 := by
  rw [BitVec.ofInt_natCast, BitVec.ofNat_toNat]

theorem fMulh_eq (x y : Word) : fMulh x y = (x.signExtend 128 * y.signExtend 128).extractLsb' 64 64 := hi128_mul ..

theorem fMulhu_eq (x y : Word) : fMulhu x y = (x.zeroExtend 128 * y.zeroExtend 128).extractLsb' 64 64 := by
  rw [← ofInt_toNat_eq_zeroExtend, ← ofInt_toNat_eq_zeroExtend]
  exact hi128_mul ..

theorem fMulhsu_eq (x y : Word) : fMulhsu x y = (x.signExtend 128 * y.zeroExtend 128).extractLsb' 64 64 := by
  rw [← ofInt_toNat_eq_zeroExtend]
  exact hi128_mul ..

/-! ### Quotients and remainders (R15, R84) -/

section
variable {w : Nat} (x y : BitVec w)

theorem toInt_eq_zero_iff : y.toInt = 0 ↔ y = 0 := by
  rw [← BitVec.toInt_zero, BitVec.toInt_inj]
  rfl

theorem toNat_eq_zero_iff : y.toNat = 0 ↔ y = 0 := ⟨fun h => BitVec.eq_of_toNat_eq h, fun h => by rw [h]; rfl⟩

theorem ofInt_neg_one : BitVec.ofInt w (-1) = BitVec.allOnes w := by
  rw [BitVec.ofInt_neg, ← BitVec.neg_one_eq_allOnes]
  rfl

/-- R15: the signed quotient, of a division by zero -1 and of the one that overflows the dividend. -/
theorem toInt_divS (hw : 0 < w) : (divS w x y).toInt = if y = 0 then -1
    else if x.toInt = -2 ^ (w - 1) ∧ y.toInt = -1 then -2 ^ (w - 1) else x.toInt.tdiv y.toInt := by
  have hmin : (BitVec.intMin w).toInt = -2 ^ (w - 1) := BitVec.toInt_intMin_of_pos hw
  have hneg : (-1#w).toInt = -1 := by rw [BitVec.neg_one_eq_allOnes, BitVec.toInt_allOnes, if_pos hw]
  rw [divS]
  simp only [toInt_eq_zero_iff]
  split
  case isTrue => rw [ofInt_neg_one, BitVec.toInt_allOnes, if_pos hw]
  case isFalse =>
    have hdiv : BitVec.ofInt w (x.toInt.tdiv y.toInt) = x.sdiv y := by
      apply BitVec.eq_of_toInt_eq
      rw [BitVec.toInt_ofInt, BitVec.toInt_sdiv]
    simp only [hdiv, ← hmin, ← hneg, BitVec.toInt_inj]
    split
    case isTrue h => rw [h.1, h.2, BitVec.intMin_sdiv_neg_one]
    case isFalse h => exact BitVec.toInt_sdiv_of_ne_or_ne x y (not_and_or.1 h)

theorem toInt_remS : (remS w x y).toInt = if y = 0 then x.toInt else x.toInt.tmod y.toInt := by
  rw [remS]
  simp only [toInt_eq_zero_iff]
  split
  · rfl
  · rw [← BitVec.toInt_srem, BitVec.ofInt_toInt]

theorem toNat_divU : (divU w x y).toNat = if y = 0 then 2 ^ w - 1 else x.toNat / y.toNat := by
  rw [divU]
  simp only [toNat_eq_zero_iff]
  split
  · rw [ofInt_neg_one, BitVec.toNat_allOnes]
  · rw [← BitVec.udiv_def, BitVec.toNat_udiv]

theorem toNat_remU : (remU w x y).toNat = if y = 0 then x.toNat else x.toNat % y.toNat := by
  rw [remU]
  simp only [toNat_eq_zero_iff]
  split
  · rfl
  · rw [← BitVec.umod_def, BitVec.toNat_umod]

end

section
variable (x y : Word)

theorem divS_word : divS 64 x y = BitVec.ofInt 64 (if y = 0 then -1
    else if x.toInt = -2 ^ 63 ∧ y.toInt = -1 then -2 ^ 63 else x.toInt.tdiv y.toInt) := by
  rw [← toInt_divS x y (by decide), BitVec.ofInt_toInt]

theorem remS_word : remS 64 x y = BitVec.ofInt 64 (if y = 0 then x.toInt else x.toInt.tmod y.toInt) := by
  rw [← toInt_remS, BitVec.ofInt_toInt]

theorem divU_word : divU 64 x y = BitVec.ofNat 64 (if y = 0 then 2 ^ 64 - 1 else x.toNat / y.toNat) := by
  rw [← toNat_divU, BitVec.ofNat_toNat, BitVec.setWidth_eq]

theorem remU_word : remU 64 x y = BitVec.ofNat 64 (if y = 0 then x.toNat else x.toNat % y.toNat) := by
  rw [← toNat_remU, BitVec.ofNat_toNat, BitVec.setWidth_eq]

end

/-- R14: a quotient of 32 bits, extended, is the quotient of 64. -/
theorem sextW_divS (x y : BitVec 32) : sextW (divS 32 x y) = BitVec.ofInt 64 (if y = 0 then -1
    else if x.toInt = -2 ^ 31 ∧ y.toInt = -1 then -2 ^ 31 else x.toInt.tdiv y.toInt) :=
  congrArg (BitVec.ofInt 64) (toInt_divS x y (by decide))

theorem sextW_remS (x y : BitVec 32) :
    sextW (remS 32 x y) = BitVec.ofInt 64 (if y = 0 then x.toInt else x.toInt.tmod y.toInt) :=
  congrArg (BitVec.ofInt 64) (toInt_remS x y)

theorem zextW_divU (x y : BitVec 32) :
    zextW (divU 32 x y) = BitVec.ofNat 64 (if y = 0 then 2 ^ 32 - 1 else x.toNat / y.toNat) := by
  rw [← toNat_divU, BitVec.ofNat_toNat]
  rfl

theorem zextW_remU (x y : BitVec 32) :
    zextW (remU 32 x y) = BitVec.ofNat 64 (if y = 0 then x.toNat else x.toNat % y.toNat) := by
  rw [← toNat_remU, BitVec.ofNat_toNat]
  rfl

/-! ### The members -/

theorem integerTwoSource : IntegerTwoSource := by
  intro s d a b hu x y n does
  exact ⟨exec_of_alu2 hu (· + ·) rfl rfl, exec_of_alu2 hu (· - ·) rfl rfl, exec_of_alu2 hu (· &&& ·) rfl rfl,
    exec_of_alu2 hu (· ||| ·) rfl rfl, exec_of_alu2 hu (· ^^^ ·) rfl rfl,
    exec_of_alu2 hu (fun x y => x &&& ~~~y) rfl rfl, exec_of_alu2 hu (fun x y => x ||| ~~~y) rfl rfl,
    exec_of_alu2 hu (fun x y => ~~~(x ^^^ y)) rfl rfl, exec_of_alu2 hu fSll rfl rfl, exec_of_alu2 hu fSrl rfl rfl,
    exec_of_alu2 hu fSra rfl (fSra_eq x y), exec_of_alu2 hu fRor rfl (fRor_eq x y),
    exec_of_alu2 hu fMin rfl (fMin_eq x y), exec_of_alu2 hu fMax rfl (fMax_eq x y),
    exec_of_alu2 hu fMinu rfl (fMinu_eq x y), exec_of_alu2 hu fMaxu rfl (fMaxu_eq x y),
    fun k => exec_of_alu2 hu (fAddsh k) rfl (fAddsh_eq k x y)⟩

theorem integerTwoSourceW : IntegerTwoSourceW := by
  intro s d a b hu x y n does
  have hx : lo32 (s.src a) = x := lo32_eq _
  have hy : lo32 (s.src b) = y := lo32_eq _
  refine ⟨exec_of_alu2 hu fAddW rfl ?_, exec_of_alu2 hu fSubW rfl ?_, exec_of_alu2 hu fMulW rfl ?_,
    exec_of_alu2 hu fSllW rfl (fSllW_eq ..), exec_of_alu2 hu fSrlW rfl (fSrlW_eq ..),
    exec_of_alu2 hu fSraW rfl (fSraW_eq ..), exec_of_alu2 hu fRorW rfl (fRorW_eq ..),
    exec_of_alu2 hu (fun x y => sextW (divS 32 (lo32 x) (lo32 y))) rfl ?_,
    exec_of_alu2 hu (fun x y => zextW (divU 32 (lo32 x) (lo32 y))) rfl ?_,
    exec_of_alu2 hu (fun x y => sextW (remS 32 (lo32 x) (lo32 y))) rfl ?_,
    exec_of_alu2 hu (fun x y => zextW (remU 32 (lo32 x) (lo32 y))) rfl ?_⟩
  · rw [fAddW, lo32_add, hx, hy]
    rfl
  · rw [fSubW, lo32_sub, hx, hy]
    rfl
  · rw [fMulW, hx, hy]
    rfl
  · rw [hx, hy, sextW_divS]
  · rw [hx, hy, zextW_divU]
  · rw [hx, hy, sextW_remS]
  · rw [hx, hy, zextW_remU]

theorem multiplyDivide : MultiplyDivide := by
  intro s d a b hu x y does
  exact ⟨exec_of_alu2 hu (· * ·) rfl rfl, exec_of_alu2 hu fMulh rfl (fMulh_eq x y),
    exec_of_alu2 hu fMulhu rfl (fMulhu_eq x y), exec_of_alu2 hu fMulhsu rfl (fMulhsu_eq x y),
    exec_of_alu2 hu (divS 64) rfl (divS_word x y), exec_of_alu2 hu (divU 64) rfl (divU_word x y),
    exec_of_alu2 hu (remS 64) rfl (remS_word x y), exec_of_alu2 hu (remU 64) rfl (remU_word x y),
    fun hd => alu3_usable hu hd fun c x y => c + x * y⟩

/-! ### Words that are no instruction -/

/-- R80: the sub-codes of ALU that stand for no member. -/
theorem decAlu_error {w l0 l1 : Nat} (hlow : 0x12 ≤ fFn w) (hw : ¬(0x18 ≤ fFn w ∧ fFn w ≤ 0x1B)) :
    decAlu w l0 l1 = .error .sub := by
  unfold decAlu
  split
  case h_23 => rfl
  all_goals omega

/-- R88: bits 6:3 of the sub-code of ADDSH are zero. -/
theorem decAddsh_error {w l0 l1 : Nat} (h : 8 ≤ fFn w) : ∃ e, decAddsh w l0 l1 = .error e := by
  refine need_bind_error (beq_eq_false_iff_ne.2 ?_)
  simp only [fFn, bits] at h ⊢
  omega

theorem aluRest : AluRest := by
  intro d s t fn
  refine ⟨fun hlow hw x y => ?_, fun h x y => ?_⟩
  · simp only [decodeWord, fOp_wordR (show 0x01 < 128 by decide)]
    rw [← fFn_wordR 0x01 d s t] at hlow hw
    exact ⟨_, decAlu_error hlow hw⟩
  · simp only [decodeWord, fOp_wordR (show 0x0D < 128 by decide)]
    rw [← fFn_wordR 0x0D d s t] at h
    exact decAddsh_error h

/-- Settles O1: each member by its own value, and the sub-codes that R80 and R88 leave out. -/
theorem integerArithmetic : Obligations.IntegerArithmetic :=
  ⟨integerTwoSource, integerTwoSourceW, multiplyDivide, aluRest⟩

end Sys2Proof.Claims
end

section
/-! SUPPORT. Bit fields and bit counts, bit by bit (R87). -/

open Sys2Proof Sys2Proof.Machine

namespace Sys2Proof.Claims

/-! ### Fields -/

theorem testBit_bits (v lo len k : Nat) : (bits v lo len).testBit k = (decide (k < len) && v.testBit (lo + k)) := by
  rw [bits, Nat.testBit_mod_two_pow, Nat.testBit_div_two_pow, Nat.add_comm]

/-- R87: a field is at most the 64 bits of a register and does not leave it. -/
theorem fieldLen_eq (t : Word) :
    fieldLen t = min (min (t.toNat / 256 % 128) 64) (64 - t.toNat % 64) := by
  rw [min_comm (t.toNat / 256 % 128)]
  rfl

theorem fieldPos_add_fieldLen_le (t : Word) : fieldPos t + fieldLen t ≤ 64 := by
  rw [fieldLen_eq, fieldPos]
  omega

theorem fieldLen_le (t : Word) : fieldLen t ≤ 64 := (Nat.le_add_left ..).trans (fieldPos_add_fieldLen_le t)

theorem getLsbD_fExtz (a t : Word) (k : Nat) :
    (fExtz a t).getLsbD k = (decide (k < fieldLen t) && a.getLsbD (fieldPos t + k)) := by
  have hlen := fieldLen_le t
  rw [fExtz, BitVec.getLsbD_ofNat, testBit_bits, BitVec.testBit_toNat]
  by_cases hk : k < fieldLen t
  · simp [hk, show k < 64 by omega]
  · simp [hk]

/-- R13: the signed reading of the low bits of a number is that of the word they make. -/
theorem toS_eq_toInt (n v : Nat) : toS n v = (BitVec.ofNat n v).toInt := by
  rw [toS, BitVec.toInt_eq_toNat_cond, BitVec.toNat_ofNat]

theorem getLsbD_fExts (a t : Word) {k : Nat} (hk : k < 64) : (fExts a t).getLsbD k
    = if k < fieldLen t then a.getLsbD (fieldPos t + k)
      else (decide (0 < fieldLen t) && a.getLsbD (fieldPos t + fieldLen t - 1)) := by
  unfold fExts
  split
  case isTrue h0 => simp [h0]
  case isFalse h0 =>
    have hbit (j : Nat) : (BitVec.ofNat (fieldLen t) (bits a.toNat (fieldPos t) (fieldLen t))).getLsbD j
        = (decide (j < fieldLen t) && a.getLsbD (fieldPos t + j)) := by
      rw [BitVec.getLsbD_ofNat, testBit_bits, BitVec.testBit_toNat, ← Bool.and_assoc, Bool.and_self]
    have hpos : 0 < fieldLen t := Nat.pos_of_ne_zero h0
    rw [toS_eq_toInt, ← BitVec.signExtend, BitVec.getLsbD_signExtend, BitVec.msb_eq_getLsbD_last, hbit, hbit,
      Nat.add_sub_assoc hpos]
    by_cases hlt : k < fieldLen t
    · simp [hk, hlt]
    · simp [hk, hlt, hpos]

theorem getLsbD_fIns (d a t : Word) {k : Nat} (hk : k < 64) : (fIns d a t).getLsbD k
    = if fieldPos t ≤ k ∧ k < fieldPos t + fieldLen t then a.getLsbD (k - fieldPos t) else d.getLsbD k := by
  have hmask : (BitVec.ofNat 64 ((2 ^ fieldLen t - 1) * 2 ^ fieldPos t)).getLsbD k
      = decide (fieldPos t ≤ k ∧ k < fieldPos t + fieldLen t) := by
    rw [BitVec.getLsbD_ofNat, Nat.testBit_mul_two_pow, Nat.testBit_two_pow_sub_one]
    simp only [hk, decide_true, Bool.true_and, ← Bool.decide_and, decide_eq_decide]
    omega
  simp only [fIns, BitVec.getLsbD_or, BitVec.getLsbD_and, BitVec.getLsbD_not, hmask, BitVec.getLsbD_shiftLeft, hk]
  by_cases h : fieldPos t ≤ k ∧ k < fieldPos t + fieldLen t
  · simp [h, not_lt.2 h.1]
  · simp [h]

/-! ### Counts -/

/-- The leading zeros stand above the highest one bit. -/
theorem clzN_spec {n v : Nat} (hv : v < 2 ^ n) : clzN n v ≤ n
    ∧ (∀ k, n - clzN n v ≤ k → v.testBit k = false)
    ∧ (clzN n v < n → v.testBit (n - 1 - clzN n v) = true) := by
  unfold clzN
  split
  case isTrue h0 => exact ⟨le_rfl, fun k _ => by rw [h0, Nat.zero_testBit], fun h => absurd h (lt_irrefl n)⟩
  case isFalse h0 =>
    have hlog : v.log2 < n := (Nat.log2_lt h0).2 hv
    refine ⟨by omega, fun k hk => ?_, fun _ => ?_⟩
    · have hk' : v.log2 + 1 ≤ k := by omega
      exact Nat.testBit_lt_two_pow (Nat.lt_log2_self.trans_le (Nat.pow_le_pow_right (by decide) hk'))
    · rw [show n - 1 - (n - 1 - v.log2) = v.log2 by omega]
      exact Nat.testBit_log2 h0

/-- The trailing zeros stand below the lowest one bit. -/
theorem ctzN_spec : ∀ n v : Nat, ctzN n v ≤ n ∧ (∀ k < ctzN n v, v.testBit k = false)
    ∧ (ctzN n v < n → v.testBit (ctzN n v) = true)
  | 0, _ => ⟨le_rfl, fun _ hk => absurd hk (Nat.not_lt_zero _), fun h => absurd h (lt_irrefl 0)⟩
  | n + 1, v => by
    obtain ⟨hle, hzero, hone⟩ := ctzN_spec n (v / 2)
    rw [ctzN]
    split
    case isTrue hodd =>
      exact ⟨Nat.zero_le _, fun _ hk => absurd hk (Nat.not_lt_zero _), fun _ => by simp [hodd]⟩
    case isFalse heven =>
      refine ⟨by omega, fun k hk => ?_, fun h => ?_⟩
      · cases k with
        | zero => simpa using heven
        | succ k =>
          rw [Nat.testBit_add_one]
          exact hzero k (by omega)
      · rw [Nat.add_comm, Nat.testBit_add_one]
        exact hone (by omega)

theorem popN_eq_countP : ∀ n v : Nat, popN n v = (List.range n).countP (fun k => v.testBit k)
  | 0, _ => rfl
  | n + 1, v => by
    have hbit : (if v.testBit 0 = true then 1 else 0) = v % 2 := by
      simp only [Nat.testBit_zero, decide_eq_true_eq]
      split <;> omega
    rw [popN, popN_eq_countP n (v / 2), List.range_succ_eq_map, List.countP_cons, List.countP_map, hbit, Nat.add_comm]
    simp only [Function.comp_def, Nat.succ_eq_add_one, Nat.testBit_add_one]

theorem popN_le (n v : Nat) : popN n v ≤ n := by
  rw [popN_eq_countP]
  exact List.countP_le_length.trans_eq List.length_range

/-! ### Reversals -/

theorem revN_lt : ∀ n v : Nat, revN n v < 2 ^ n
  | 0, _ => Nat.one_pos
  | n + 1, v => by
    have ih := revN_lt n (v / 2)
    have hbit : v % 2 * 2 ^ n ≤ 1 * 2 ^ n := Nat.mul_le_mul_right _ (by omega)
    rw [revN, Nat.pow_succ]
    omega

theorem testBit_revN : ∀ {n k : Nat} (v : Nat), k < n → (revN n v).testBit k = v.testBit (n - 1 - k)
  | n + 1, k, v, hk => by
    rw [revN, Nat.mul_comm, Nat.testBit_two_pow_mul_add _ (revN_lt n (v / 2))]
    split
    case isTrue h =>
      rw [testBit_revN (v / 2) h, Nat.testBit_div_two]
      congr 1
      omega
    case isFalse h =>
      obtain rfl : k = n := by omega
      simp

/-- Bit `k` of the number that bytes make is bit `k % 8` of byte `k / 8`. -/
theorem testBit_ofBytes : ∀ (l : List Byte) (k : Nat), (ofBytes l).testBit k = (l.getD (k / 8) 0).getLsbD (k % 8)
  | [], k => by simp [ofBytes]
  | b :: t, k => by
    rw [ofBytes, Nat.add_comm, Nat.testBit_two_pow_mul_add (i := 8) _ b.isLt]
    split
    case isTrue h =>
      rw [Nat.div_eq_of_lt h, Nat.mod_eq_of_lt h, BitVec.testBit_toNat]
      rfl
    case isFalse h =>
      obtain ⟨j, rfl⟩ := Nat.exists_eq_add_of_le' (not_lt.1 h)
      rw [Nat.add_sub_cancel, testBit_ofBytes t j, Nat.add_div_right j (by decide), Nat.add_mod_right]
      rfl

theorem getElem_bytesOf : ∀ {n i : Nat} (v : Nat) (h : i < (bytesOf n v).length),
    (bytesOf n v)[i] = BitVec.ofNat 8 (v / 2 ^ (8 * i))
  | n + 1, 0, v, _ => by simp [bytesOf]
  | n + 1, i + 1, v, h => by
    simp only [bytesOf, List.getElem_cons_succ]
    rw [getElem_bytesOf (v / 256), Nat.div_div_eq_div_mul]
    congr 2
    rw [Nat.mul_succ, Nat.pow_add, Nat.mul_comm]

theorem testBit_ofBytes_reverse {n k : Nat} (v : Nat) (hk : k < 8 * n) :
    (ofBytes (bytesOf n v).reverse).testBit k = v.testBit (8 * (n - 1 - k / 8) + k % 8) := by
  have hlen := bytesOf_length n v
  have hi : k / 8 < (bytesOf n v).reverse.length := by
    rw [List.length_reverse, hlen]
    omega
  rw [testBit_ofBytes, List.getD_eq_getElem _ _ hi, List.getElem_reverse, getElem_bytesOf, BitVec.getLsbD_ofNat,
    Nat.testBit_div_two_pow, hlen, Nat.add_comm]
  simp [Nat.mod_lt]

end Sys2Proof.Claims
end

section
/-! SUPPORT. Immediates, comparisons, selects and bit fields (R81, R82, R85-R87, R95). -/

open Sys2Proof Sys2Proof.Machine

namespace Sys2Proof.Claims

/-! ### Immediates -/

/-- R81: adding a sign-extended field adds its signed value. -/
theorem add_sext_eq_ofInt {n : Nat} (x : Word) (i : BitVec n) : x + sext n i = BitVec.ofInt 64 (x.toInt + i.toInt) := by
  rw [BitVec.ofInt_add, BitVec.ofInt_toInt]
  rfl

/-- R95: shifting a sign-extended field multiplies its signed value by a power of two. -/
theorem sext_shiftLeft_eq_ofInt {n : Nat} (i : BitVec n) (h : Nat) :
    sext n i <<< h = BitVec.ofInt 64 (i.toInt * 2 ^ h) := by
  rw [shiftLeft_eq_mul_ofNat, BitVec.ofInt_mul, ← BitVec.ofInt_natCast, Nat.cast_pow, Nat.cast_ofNat]
  rfl

/-- R82: the six bits of the shift count are the register's count. -/
theorem toNat_shiftCount (n : BitVec 6) : (n.zeroExtend 64).toNat % 64 = n.toNat := by
  rw [BitVec.toNat_setWidth]
  omega

theorem integerImmediate : IntegerImmediate := by
  intro s d a hu x does
  refine ⟨fun i => ⟨?_, ?_, ?_, ?_⟩, fun n => ⟨?_, ?_, ?_, ?_⟩, fun n => ⟨?_, ?_, ?_, ?_⟩, ?_, fun h i => ?_⟩
  · exact exec_of_alu1 hu (· + sext 13 i) rfl (add_sext_eq_ofInt x i)
  · exact exec_of_alu1 hu (· &&& sext 13 i) rfl rfl
  · exact exec_of_alu1 hu (· ||| sext 13 i) rfl rfl
  · exact exec_of_alu1 hu (· ^^^ sext 13 i) rfl rfl
  · exact exec_of_alu1 hu (fSll · (n.zeroExtend 64)) rfl (by rw [fSll, shAmt, toNat_shiftCount])
  · exact exec_of_alu1 hu (fSrl · (n.zeroExtend 64)) rfl (by rw [fSrl, shAmt, toNat_shiftCount])
  · exact exec_of_alu1 hu (fSra · (n.zeroExtend 64)) rfl (by rw [fSra_eq, toNat_shiftCount])
  · exact exec_of_alu1 hu (fRor · (n.zeroExtend 64)) rfl (by rw [fRor_eq, toNat_shiftCount])
  · exact exec_of_alu1 hu (fSllW · (n.zeroExtend 64)) rfl (by rw [fSllW_eq, toNat_shiftCount])
  · exact exec_of_alu1 hu (fSrlW · (n.zeroExtend 64)) rfl (by rw [fSrlW_eq, toNat_shiftCount])
  · exact exec_of_alu1 hu (fSraW · (n.zeroExtend 64)) rfl (by rw [fSraW_eq, toNat_shiftCount])
  · exact exec_of_alu1 hu (fRorW · (n.zeroExtend 64)) rfl (by rw [fRorW_eq, toNat_shiftCount])
  · exact exec_of_alu1 hu id rfl rfl
  · have hd : Usable s [d.val] [] := hu.mono (by simp) (by simp)
    exact hd.guard.trans (by rw [retire_setX, sext_shiftLeft_eq_ofInt])

/-! ### Comparisons and selects -/

theorem truth_of {b : Bool} {p : Prop} (h : b = true ↔ p) : (p → truth b = 1) ∧ (¬p → truth b = 0) :=
  ⟨fun hp => if_pos (h.2 hp), fun hp => if_neg (mt h.1 hp)⟩

theorem ult_iff_toNat_lt (x y : Word) : x.ult y = true ↔ x.toNat < y.toNat := BitVec.ult_iff_lt

theorem not_slt_iff_toInt_le (x y : Word) : (!x.slt y) = true ↔ y.toInt ≤ x.toInt := by
  rw [Bool.not_eq_true', ← Bool.not_eq_true, BitVec.slt_iff_toInt_lt, not_lt]

theorem not_ult_iff_toNat_le (x y : Word) : (!x.ult y) = true ↔ y.toNat ≤ x.toNat := by
  rw [Bool.not_eq_true', ← Bool.not_eq_true, ult_iff_toNat_lt, not_lt]

theorem comparisons : Comparisons := by
  intro s d a b i c holds
  have hiff (x y : Word) : condHolds c x y = true ↔ holds x y := by
    cases c with
    | eq => exact beq_iff_eq
    | ne => exact bne_iff_ne
    | lt => exact BitVec.slt_iff_toInt_lt
    | ge => exact not_slt_iff_toInt_le x y
    | ltu => exact ult_iff_toNat_lt x y
    | geu => exact not_ult_iff_toNat_le x y
    | le => exact not_slt_iff_toInt_le y x
    | gt => exact BitVec.slt_iff_toInt_lt
    | leu => exact not_ult_iff_toNat_le y x
    | gtu => exact ult_iff_toNat_lt y x
  exact ⟨fun hu => ⟨_, exec_of_alu2 hu (fun x y => truth (condHolds c x y)) rfl rfl, truth_of (hiff ..)⟩,
    fun hu => ⟨_, exec_of_alu1 hu (fun x => truth (condHolds c x (sext 9 i))) rfl rfl, truth_of (hiff ..)⟩⟩

theorem selects : Selects := by
  refine fun s d c a b => ⟨fun hu => ⟨?_, ?_⟩, fun hn hc => ?_⟩
  · exact hu.guard.trans (by rw [retire_setX])
  · exact hu.guard.trans (by rw [retire_setX]; simp only [ne_eq, ite_not])
  · obtain ⟨h0, hlim⟩ : c.val ≠ 0 ∧ s.core.rlim ≤ c.val := by
      simpa [Named] using hc
    have hregidx {cells : List Nat} {k : Out} : s.guard (d.val :: (a.regs ++ b.regs ++ [c.val])) cells k
        = .next (s.takeTrap .regidx (BitVec.ofNat 64 c.val)) := guard_regidx (post := []) hn h0 hlim
    exact ⟨hregidx, hregidx⟩

/-! ### Bit fields -/

/-- A count of at most 64 stands in a register as it is. -/
theorem toNat_count {n : Nat} (h : n ≤ 64) : (BitVec.ofNat 64 n).toNat = n := by
  rw [BitVec.toNat_ofNat]
  omega

theorem toNat_fClz (x : Word) : (fClz x).toNat = clzN 64 x.toNat := toNat_count (clzN_spec x.isLt).1

theorem toNat_fCtz (x : Word) : (fCtz x).toNat = ctzN 64 x.toNat := toNat_count (ctzN_spec 64 x.toNat).1

theorem toNat_fPopc (x : Word) : (fPopc x).toNat = popN 64 x.toNat := toNat_count (popN_le 64 x.toNat)

theorem getLsbD_fBrev (x : Word) {k : Nat} (hk : k < 64) : (fBrev x).getLsbD k = x.getLsbD (63 - k) := by
  rw [fBrev, BitVec.getLsbD_ofNat, testBit_revN x.toNat hk, BitVec.testBit_toNat, decide_eq_true hk, Bool.true_and]

theorem getLsbD_fBswap (x : Word) {k : Nat} (hk : k < 64) :
    (fBswap x).getLsbD k = x.getLsbD (8 * (7 - k / 8) + k % 8) := by
  rw [fBswap, BitVec.getLsbD_ofNat, testBit_ofBytes_reverse x.toNat hk, BitVec.testBit_toNat, decide_eq_true hk,
    Bool.true_and]

theorem bitFields : BitFields := by
  intro s d a b x pos len w does
  have hpos : fieldPos (s.src b) = pos := rfl
  have hlen : fieldLen (s.src b) = w := fieldLen_eq _
  refine ⟨fun hu => ⟨⟨_, exec_of_alu2 hu fExtz rfl rfl, fun k => ?_⟩, ⟨_, exec_of_alu2 hu fExts rfl rfl, fun k hk => ?_⟩,
    fun hd => ⟨_, alu3_usable hu hd fIns, fun k hk => ?_⟩⟩, fun hu => ⟨⟨_, exec_of_alu1 hu fClz rfl rfl, ?_⟩,
    ⟨_, exec_of_alu1 hu fCtz rfl rfl, ?_⟩, ⟨_, exec_of_alu1 hu fPopc rfl rfl, ?_⟩,
    ⟨_, exec_of_alu1 hu fBrev rfl rfl, fun k hk => ?_⟩, ⟨_, exec_of_alu1 hu fBswap rfl rfl, fun k hk => ?_⟩⟩⟩
  · rw [getLsbD_fExtz, hpos, hlen]
  · rw [getLsbD_fExts _ _ hk, hpos, hlen]
  · rw [getLsbD_fIns _ _ _ hk, hpos, hlen]
  · obtain ⟨hle, hzero, hone⟩ := clzN_spec x.isLt
    simp only [toNat_fClz]
    exact ⟨hle, fun k _ => hzero k, hone⟩
  · simp only [toNat_fCtz]
    exact ctzN_spec 64 x.toNat
  · exact (toNat_fPopc x).trans (popN_eq_countP 64 x.toNat)
  · exact getLsbD_fBrev x hk
  · exact getLsbD_fBswap x hk

/-! ### Words that are no instruction -/

theorem condOf_error : ∀ {n : Nat}, 10 ≤ n → condOf n = .error .sub
  | _ + 10, _ => rfl

/-- R85: the codes that stand for no condition. -/
theorem decCmp_error {w l0 l1 : Nat} (h : 10 ≤ fFn w) : decCmp w l0 l1 = .error .sub := by
  rw [decCmp, condOf_error h]
  rfl

theorem decCmpi_error {w l0 l1 : Nat} (h : 10 ≤ bits w 9 4) : decCmpi w l0 l1 = .error .sub := by
  rw [decCmpi, condOf_error h]
  rfl

/-- R87: the sub-codes that stand for no member, and those with no second source. -/
theorem decBitf_error {w l0 l1 : Nat} (h : 8 ≤ fFn w ∨ 3 ≤ fFn w ∧ fRt w ≠ 0) : ∃ e, decBitf w l0 l1 = .error e := by
  unfold decBitf
  split
  case h_1 | h_2 | h_3 => omega
  case h_9 => exact ⟨_, rfl⟩
  all_goals exact dR2_error (by omega)

/-- R95: MOV has one sub-code and no second source. -/
theorem decMov_error {w l0 l1 : Nat} (h : fFn w ≠ 0 ∨ fRt w ≠ 0) : ∃ e, decMov w l0 l1 = .error e := by
  unfold decMov
  split
  case h_1 hfn => exact dR2_error (h.resolve_left (not_not.2 hfn))
  case h_2 => exact ⟨_, rfl⟩

/-- R85: the condition stands above the immediate of CMPI. -/
theorem condition_wordI (op : Nat) (d s : BitVec 6) (c : BitVec 4) (i : BitVec 9) :
    bits (wordI op d s (c ++ i)) 9 4 = c.toNat := by
  have happend : (c ++ i).toNat = c.toNat * 2 ^ 9 + i.toNat := by
    rw [BitVec.toNat_append, ← Nat.shiftLeft_add_eq_or_of_lt i.isLt, Nat.shiftLeft_eq]
  simp only [bits, wordI, happend]
  omega

theorem operandRest : OperandRest := by
  intro d s t fn i c
  refine ⟨fun h x y => ?_, fun h x y => ?_, fun h x y => ?_, fun h x y => ?_⟩
  · simp only [decodeWord, fOp_wordR (show 0x09 < 128 by decide)]
    exact ⟨_, decCmp_error (by rwa [fFn_wordR])⟩
  · simp only [decodeWord, fOp_wordI (show 0x0A < 128 by decide)]
    exact ⟨_, decCmpi_error (by rwa [condition_wordI])⟩
  · simp only [decodeWord, fOp_wordR (show 0x0C < 128 by decide)]
    refine decBitf_error ?_
    rw [fFn_wordR, fRt_wordR]
    exact h.imp_right (And.imp_right toNat_ne_zero)
  · simp only [decodeWord, fOp_wordR (show 0x18 < 128 by decide)]
    refine decMov_error ?_
    rw [fFn_wordR, fRt_wordR]
    exact h.imp toNat_ne_zero toNat_ne_zero

/-- Settles O2: each member by its own value or bit by bit, and the words that R85, R87 and R95 leave out. -/
theorem integerOperands : Obligations.IntegerOperands :=
  ⟨integerImmediate, comparisons, selects, bitFields, operandRest⟩

end Sys2Proof.Claims
end

section
/-! SUPPORT. Memory accesses whose checks have passed: homes in this package's memory, the store buffer, and what a
load finds there (R104, R105, R111-R113). -/

open Sys2Proof Sys2Proof.Machine

namespace Sys2Proof.Claims

/-! ### Homes in this package's memory -/

/-- An access to this package's memory asks no other package. -/
theorem checkSegs_inMemory {s : State} {i n : Nat} {a : Word} {segs : List (Home × Nat)} {kind : Kind} {k : State → Out}
    (h : InMemory segs) : s.checkSegs i a n segs kind k = k s := by
  unfold State.checkSegs
  split
  · exact absurd (h _ List.mem_cons_self) id
  · rfl

/-- R109: no home of a plain access makes a region mark. -/
theorem marks_plain {segs : List (Home × Nat)} (h : Plain segs) : segs.any (·.1.marks) = false := by
  obtain ⟨hin, hmirror⟩ := h
  rw [List.any_eq_false]
  intro g hg
  have hglobal := hin g hg
  have hm := hmirror g hg
  cases hhome : g.1 <;> simp_all [Home.marks]

/-- R109: after a plain store the region goes on. -/
theorem retireStore_plain {s : State} {segs : List (Home × Nat)} (h : Plain segs) : s.retireStore segs = s.retire := by
  rw [State.retireStore, marks_plain h]
  rfl

/-- R109: a store to the mirrored region begins a new region. -/
theorem retireStore_mirror {s : State} {segs : List (Home × Nat)} (h : ∃ g ∈ segs, ∃ off, g.1 = .mirror off) :
    s.retireStore segs = s.retireMark := by
  obtain ⟨g, hg, off, hm⟩ := h
  have : segs.any (·.1.marks) = true := List.any_eq_true.2 ⟨g, hg, by rw [hm]; rfl⟩
  rw [State.retireStore, this]
  rfl

/-- R112: an instruction that has only stored leaves its bytes in the buffer. -/
theorem retire_push (s : State) (a : Word) (segs : List (Home × Nat)) (bs : List Byte) :
    (s.push a segs bs).retire = stored s a segs bs := rfl

/-! ### Loads -/

theorem ofInt_toS (n v : Nat) : BitVec.ofInt 64 (toS n v) = (BitVec.ofNat n v).signExtend 64 := by
  rw [BitVec.signExtend, toS, BitVec.toInt_eq_toNat_cond, BitVec.toNat_ofNat]

/-- R111: what a load whose bytes make `v` writes. -/
def loadedAs (s : State) (d : XReg) (t : LdType) (v : Nat) : State :=
  match t with
  | .s8 => wrote s d ((BitVec.ofNat 8 v).signExtend 64) s.core.npc
  | .s16 => wrote s d ((BitVec.ofNat 16 v).signExtend 64) s.core.npc
  | .s32 => wrote s d ((BitVec.ofNat 32 v).signExtend 64) s.core.npc
  | .p => wrote (wrote s d (BitVec.ofNat 64 v) s.core.npc) (nextReg d) (BitVec.ofNat 64 (v / 2 ^ 64)) s.core.npc
  | _ => wrote s d (BitVec.ofNat 64 v) s.core.npc

theorem retire_setLoad (s : State) (d : XReg) (t : LdType) (v : Nat) : (s.setLoad d t v).retire = loadedAs s d t v := by
  cases t <;> simp only [State.setLoad, extendLoad, loadedAs, ofInt_toS, retire_setX]
  simp only [setX_eq]
  rfl

/-- R111: a load from this package's memory that nothing holds back. -/
theorem loadFrom_inMemory {s : State} {d : XReg} {t : LdType} {a : Word} {aligned acq : Bool} {segs : List (Home × Nat)}
    (ho : s.orderedBack = false) (hc : s.check { align := s.loadAlign a (loadSize t) aligned } a (loadSize t) = .ok segs)
    (hm : InMemory segs) (hw : s.mustWait segs = false) (hg : s.gldHolds segs = false) :
    s.loadFrom d t a aligned acq = .next (loadedAs s d t (ofBytes (s.loadSegs segs))) := by
  simp only [State.loadFrom, ho, Bool.false_eq_true, if_false, access_ok hc]
  split
  · exact absurd (hm _ List.mem_cons_self) id
  · exact absurd (hm _ List.mem_cons_self) id
  · simp only [hg, hw, Bool.false_eq_true, if_false, retire_setLoad]

theorem loads : Loads := by
  intro s d a b t addr al segs ho hc hm hw hg v loads
  have done {aligned acq : Bool} {i : Instr} (hal : al = s.loadAlign addr (loadSize t) aligned)
      (hi : exec i s = s.loadFrom d t addr aligned acq) : loads i := by
    subst hal
    rw [loadFrom_inMemory ho hc hm hw hg] at hi
    cases t <;> exact hi
  refine ⟨fun hu => ⟨fun la o ha hal => ?_, fun c q r o ha hal => ?_⟩, fun hu hal => ⟨fun ha => ?_, fun ha => ?_⟩⟩
  all_goals
    subst ha
    exact done hal hu.guard

/-! ### Stores -/

/-- R112, R113: what a store to this package's memory leaves. -/
theorem storeTo_inMemory {s : State} {d : XSrc} {w : StWidth} {a : Word} {al : Bool} {segs : List (Home × Nat)}
    (hc : s.check (s.storeAccess a (storeSize w) al) a (storeSize w) = .ok segs) (hm : InMemory segs) :
    s.storeTo d w a al = .next ((s.push a segs (s.storeData d w)).retireStore segs) := by
  rw [State.storeTo, access_ok hc, checkSegs_inMemory hm]

theorem stores : Stores := by
  intro s d a b w addr al segs hc hm bs stores
  have done {i : Instr} (hi : exec i s = .next ((s.push addr segs (s.storeData d w)).retireStore segs)) : stores i := by
    refine ⟨fun hp => ?_, fun hmirror => ?_⟩
    · rw [hi, retireStore_plain hp]
      rfl
    · rw [hi, retireStore_mirror hmirror]
      rfl
  refine ⟨fun hu => ⟨fun o ha hal => ?_, fun c q r o ha hal hq => ?_⟩, fun hu hal => ⟨fun ha => ?_, fun ha => ?_⟩⟩
  · subst ha hal
    exact done (hu.guard.trans (storeTo_inMemory hc hm))
  · subst ha hal
    have hs : (q && !s.settled c) = false := by
      cases q
      · rfl
      · simp [hq rfl]
    refine done (hu.guard.trans ((access_ok hc).trans ?_))
    rw [hs, if_neg Bool.false_ne_true, checkSegs_inMemory hm]
    rfl
  all_goals
    subst ha hal
    exact done (hu.guard.trans (storeTo_inMemory hc hm))

/-! ### A load of what a store has just stored (R112) -/

theorem dist_eq_some {g h : Home} {i : Nat} : g.dist h = some i ↔ h = g.plus i := by
  have hle {a b : Nat} : a ≤ b ∧ b - a = i ↔ b = a + i := by omega
  cases g <;> cases h <;>
    simp only [Home.dist, Home.plus, Home.vault.injEq, Home.hbm.injEq, Home.loc.injEq, Home.mirror.injEq, Home.mmio.injEq,
      Home.global.injEq, reduceCtorEq, Bool.and_eq_true, decide_eq_true_eq, Option.ite_none_right_eq_some,
      Option.some.injEq, and_assoc, hle]
  all_goals exact and_congr_left' eq_comm

/-- The byte of a home after one more buffered store, `r` being what the older ones hold for it. -/
def newest (h : Home) (r : Option Byte) (e : SbEntry) : Option Byte :=
  match e.home.dist h with
  | some i => match e.bytes[i]? with
    | some b => some b
    | none => r
  | none => r

/-- R112: for a home that stores forward to, the newest buffered store counts. -/
theorem forwarded_eq_foldl {h : Home} (h1 : ∀ off, h ≠ .mirror off) (h2 : ∀ off, h ≠ .mmio off) (sb : List SbEntry) :
    forwarded sb h = sb.foldl (newest h) none := by
  cases h
  case mirror off => exact absurd rfl (h1 off)
  case mmio off => exact absurd rfl (h2 off)
  all_goals rfl

theorem newest_of_byte {h : Home} {i : Nat} {e : SbEntry} {b : Byte} (he : h = e.home.plus i) (hb : e.bytes[i]? = some b)
    (r : Option Byte) : newest h r e = some b := by
  simp only [newest, dist_eq_some.2 he, hb]

theorem newest_of_other {h : Home} {e : SbEntry} (he : ∀ i < e.bytes.length, h ≠ e.home.plus i) (r : Option Byte) :
    newest h r e = r := by
  unfold newest
  split
  case h_1 i hi =>
    have : e.bytes[i]? = none := by
      rw [List.getElem?_eq_none_iff]
      exact not_lt.1 fun hlt => he i hlt (dist_eq_some.1 hi)
    rw [this]
  case h_2 => rfl

theorem places_cons (g : Home × Nat) (t : List (Home × Nat)) :
    places (g :: t) = (List.range g.2).map g.1.plus ++ places t := rfl

/-- A store's entries change nothing of a home that it does not write. -/
theorem foldl_newest_other {h : Home} (asid : Nat) : ∀ (a : Word) (segs : List (Home × Nat)) (bs : List Byte)
    (r : Option Byte), h ∉ places segs → (sbEntries asid a segs bs).foldl (newest h) r = r
  | _, [], _, _, _ => rfl
  | a, (g, n) :: t, bs, r, hh => by
    rw [places_cons, List.mem_append, not_or] at hh
    have hfirst : newest h r { home := g, addr := a, bytes := bs.take n, asid := asid } = r :=
      newest_of_other (fun i hi he => hh.1 (List.mem_map.2 ⟨i, by simp at hi ⊢; omega, he.symm⟩)) r
    rw [sbEntries, List.foldl_cons, hfirst]
    exact foldl_newest_other asid _ t _ r hh.2

/-- A store's entries give each home that it writes its byte. -/
theorem foldl_newest_place {h : Home} {b : Byte} (asid : Nat) : ∀ (a : Word) (segs : List (Home × Nat)) (bs : List Byte)
    (r : Option Byte) (k : Nat), (places segs).Nodup → (places segs)[k]? = some h → bs[k]? = some b →
    (sbEntries asid a segs bs).foldl (newest h) r = some b
  | _, [], _, _, _, _, hk, _ => by simp [places] at hk
  | a, (g, n) :: t, bs, r, k, hnodup, hk, hb => by
    rw [places_cons] at hnodup hk
    obtain ⟨-, htail, hdisj⟩ := List.nodup_append.1 hnodup
    rw [sbEntries, List.foldl_cons]
    by_cases hkn : k < n
    · have hg : h = g.plus k := by
        rw [List.getElem?_append_left (by simpa using hkn)] at hk
        simpa [hkn, eq_comm] using hk
      have hlater : h ∉ places t := fun hmem =>
        hdisj h (hg ▸ List.mem_map_of_mem (List.mem_range.2 hkn)) h hmem rfl
      have hbyte : (bs.take n)[k]? = some b := by rw [List.getElem?_take_of_lt hkn, hb]
      rw [newest_of_byte (e := { home := g, addr := a, bytes := bs.take n, asid := asid }) hg hbyte,
        foldl_newest_other asid _ t _ _ hlater]
    · refine foldl_newest_place asid _ t _ _ (k - n) htail ?_ ?_
      · rwa [List.getElem?_append_right (by simpa using not_lt.1 hkn), List.length_map, List.length_range] at hk
      · rwa [List.getElem?_drop, Nat.add_sub_cancel' (not_lt.1 hkn)]

theorem mem_places {segs : List (Home × Nat)} {h : Home} (hh : h ∈ places segs) :
    ∃ g ∈ segs, ∃ i < g.2, h = g.1.plus i := by
  obtain ⟨g, hg, hmem⟩ := List.mem_flatMap.1 hh
  obtain ⟨i, hi, rfl⟩ := List.mem_map.1 hmem
  exact ⟨g, hg, i, List.mem_range.1 hi, rfl⟩

/-- The bytes of a plain access stand in a vault, HBM or local memory. -/
theorem place_plain {segs : List (Home × Nat)} {h : Home} (hp : Plain segs) (hh : h ∈ places segs) :
    (∀ off, h ≠ .mirror off) ∧ (∀ off, h ≠ .mmio off) := by
  obtain ⟨hin, hmirror⟩ := hp
  obtain ⟨g, hg, i, -, rfl⟩ := mem_places hh
  have hglobal := hin g hg
  have hm := hmirror g hg
  cases hhome : g.1 <;> simp_all [Home.plus]

/-- A store in the buffer changes no byte at its home; a register of space 4 may show the buffer. -/
theorem homeByte_stored (s : State) (a : Word) (segs : List (Home × Nat)) (bs : List Byte) (l : Nat) {h : Home}
    (hh : ∀ off, h ≠ .mmio off) : (stored s a segs bs).homeByte l h = s.homeByte l h := by
  cases h
  case loc c off =>
    by_cases hc : s.core.num = c <;> simp [State.homeByte, State.getCore, hc, stored, went]
  case mmio off => exact absurd rfl (hh off)
  all_goals rfl

theorem ownStores_stored (s : State) (a : Word) (segs : List (Home × Nat)) (bs : List Byte) :
    (stored s a segs bs).ownStores = s.ownStores ++ sbEntries (s.ctxAsid s.core.ctx) a segs bs := by
  simp only [State.ownStores, List.append_assoc]
  rfl

theorem storeThenLoad : StoreThenLoad := by
  intro s a segs bs hp _ hnodup
  refine ⟨fun k h b hk hb => ?_, fun h hh hmmio => ?_⟩
  · obtain ⟨h1, h2⟩ := place_plain hp (List.mem_of_getElem? hk)
    rw [State.loadByte, ownStores_stored, forwarded_eq_foldl h1 h2, List.foldl_append,
      foldl_newest_place _ _ _ _ _ k hnodup hk hb]
  · have hf : forwarded (stored s a segs bs).ownStores h = forwarded s.ownStores h := by
      by_cases hm : ∃ off, h = .mirror off
      · obtain ⟨off, rfl⟩ := hm
        rfl
      · have h1 : ∀ off, h ≠ .mirror off := fun off e => hm ⟨off, e⟩
        rw [ownStores_stored, forwarded_eq_foldl h1 hmmio, forwarded_eq_foldl h1 hmmio, List.foldl_append,
          foldl_newest_other _ _ _ _ _ hh]
    simp only [State.loadByte, hf]
    split
    · rfl
    · exact homeByte_stored s a segs bs _ hmmio

/-- Settles O8: a load and a store by what their checks find, and the buffer's newest byte for a load. -/
theorem loadsAndStores : Obligations.LoadsAndStores := ⟨loads, stores, storeThenLoad⟩

end Sys2Proof.Claims
end

section
/-! SUPPORT. Fences, SPINW, REGION and TOUCH (R118-R121). -/

open Sys2Proof Sys2Proof.Machine

namespace Sys2Proof.Claims

theorem retire_eq_went (s : State) : s.retire = went s s.core.npc := rfl

/-- R118: a fence goes on once its scope is settled, and waits until then. -/
theorem exec_fence (s : State) (c : Scope) : exec (.fenceFull c) s = exec (.fenceRel c) s
    ∧ exec (.fenceFull c) s = .next (if s.settled c then went s s.core.npc else s.stall) :=
  ⟨rfl, (apply_ite Host.Outcome.next ..).symm⟩

/-- R119: SPINW takes its read from this package's memory. -/
theorem exec_spinw {s : State} {d : XReg} {a : XSrc} {h : Home} {n : Nat} (l : BitVec 4) (e : BitVec 5)
    (hu : Usable s (d.val :: a.regs) (cellX d.val :: a.cells)) (hr : s.core.rwait = false) (hf : s.frameWait = false)
    (hc : s.check { allow := .noLocMmio, align := 8 } (s.src a) 8 = .ok [(h, n)]) (hm : InMemory [(h, n)])
    (hw : s.mustWait [(h, n)] = false) :
    let v := BitVec.ofNat 64 (ofBytes (s.loadSegs [(h, n)]))
    exec (.spinw d a l e) s = .next (if s.core.woken = true ∨ v ≠ s.rx d then
      { wrote s d v s.core.npc with core := { (wrote s d v s.core.npc).core with woken := false } }
      else s.parkSpin h e.toNat) := by
  intro v
  have hbusy : (s.core.rwait || s.frameWait) = false := by simp [hr, hf]
  refine hu.guard.trans ?_
  rw [hbusy, if_neg Bool.false_ne_true, access_ok hc]
  split
  case h_1 hseg =>
    cases hseg
    exact absurd (hm _ List.mem_cons_self) id
  case h_3 hseg => cases hseg
  case h_2 hseg =>
    obtain ⟨⟨rfl, rfl⟩, rfl⟩ : (_ = _ ∧ _ = _) ∧ _ = _ := by simpa using hseg
    simp only [hw, Bool.false_eq_true, if_false, Bool.or_eq_true, bne_iff_ne, ne_eq, setX_eq]
    exact (apply_ite Host.Outcome.next ..).symm

/-- R218: between spaces 0 and 4, and up to bit 63, no address is translated or names a package. -/
theorem spaceOf_untranslated (s : State) {v : Nat} (h1 : 2 ^ 60 ≤ v) (h2 : v < 2 ^ 63) :
    (∀ va, s.spaceOf v ≠ .virt va) ∧ ∀ p va, s.spaceOf v ≠ .global p va := by
  have h63 : bits v 63 1 ≠ 1 := by simp only [bits]; omega
  have h60 : bits v 60 3 ≠ 0 := by simp only [bits]; omega
  unfold State.spaceOf
  rw [if_neg h63]
  split
  case h_1 h => exact absurd h h60
  case h_2 =>
    dsimp only
    split <;> simp
  case h_6 => simp
  all_goals split <;> simp

/-- R121: TOUCH of an untranslated space only checks. -/
theorem exec_touch_untranslated {s : State} {a : XSrc} {w : Bool} {o : BitVec 12} {segs : List (Home × Nat)}
    (hu : Usable s a.regs a.cells)
    (hc : s.check { kind := if w then .store else .load, locks := false, data := false } (s.src a + o.signExtend 64) 1
      = .ok segs) (h1 : 2 ^ 60 ≤ (s.src a + o.signExtend 64).toNat) (h2 : (s.src a + o.signExtend 64).toNat < 2 ^ 63) :
    exec (.touch a w o) s = .next (went s s.core.npc) := by
  obtain ⟨hvirt, hglobal⟩ := spaceOf_untranslated s h1 h2
  refine hu.guard.trans ((access_ok hc).trans ?_)
  split
  case h_1 hs => exact absurd hs (hvirt _)
  case h_2 hs => exact absurd hs (hglobal _ _)
  case h_3 => rfl

/-- Settles O12: a fence by its scope, SPINW by the value that it reads, and the two that only mark or check. -/
theorem ordering : Obligations.Ordering := by
  intro s c
  obtain ⟨hrel, hfull⟩ := exec_fence s c
  refine ⟨fun h => ?_, fun h => ?_, rfl, rfl, ?_, fun a w o segs hu => exec_touch_untranslated hu⟩
  · rw [← hrel, hfull, h]
    exact ⟨rfl, rfl⟩
  · rw [← hrel, hfull, h]
    exact ⟨rfl, rfl⟩
  · intro d a l e h n hu hr hf hc hm hw v
    rw [exec_spinw l e hu hr hf hc hm hw]
    refine ⟨fun hv => by rw [if_pos hv.symm], fun hv hwoken => ⟨s.parkSpin h e.toNat, ?_, rfl, rfl, rfl, rfl, rfl⟩⟩
    rw [if_neg]
    simpa [hwoken] using hv

end Sys2Proof.Claims
end

section
/-! SUPPORT. Message control, PHASE and YIELD (R168, R169, R174), and the wake of a task that is resident (R197). -/

open Sys2Proof Sys2Proof.Machine

namespace Sys2Proof.Claims

/-! ### Message control (R174) -/

theorem waitingFlits_eq {s : State} {t : Task} (ht : s.core.task = some t) :
    s.waitingFlits = (s.core.inbox.filter (·.task == t.id)).length
      + (s.overflow.filter fun o => o.core == s.core.num && o.entry.task == t.id).length := by
  simp only [State.waitingFlits, Core.mine, ht, Option.map_some, Option.getD_some, List.length_map]
  rfl

theorem messages : Messages := by
  intro s d t ht mine
  refine ⟨fun hu => ⟨?_, fun hl => ?_, fun f hl hb => ?_⟩, fun hl => ?_, fun f hl => ?_⟩
  · refine hu.guard.trans ?_
    rw [retire_setX, waitingFlits_eq ht]
  · refine hu.guard.trans ?_
    simp only [State.badFlit, hl, Option.map_none, Option.getD_none, Bool.false_eq_true, if_false, retire_setX]
  · refine hu.guard.trans ?_
    simp only [State.badFlit, hl, Option.map_some, Option.getD_some, hb, Bool.false_eq_true, if_false, retire_setX]
  · change execMsgDrop s = _
    rw [execMsgDrop, hl]
    rfl
  · change execMsgDrop s = _
    rw [execMsgDrop, hl, State.popFlit, hl]
    rfl

/-! ### The phase word (R168) -/

/-- A change of the launch that a slot holds. -/
def onLaunch (f : Launch → Launch) (k : Slot) : Slot :=
  match k.kind with
  | .launch l => { k with kind := .launch (f l) }
  | _ => k

theorem modLaunch_eq (s : State) (id : Nat) (f : Launch → Launch) :
    s.modLaunch id f = { s with slots := s.slots.map fun k => if k.id = id then onLaunch f k else k } := rfl

theorem onLaunch_id (k : Slot) : onLaunch (fun l => l) k = k := by
  unfold onLaunch
  split
  case h_1 l hl => rw [← hl]
  case h_2 => rfl

theorem onLaunch_congr {f g : Launch → Launch} {k : Slot} (h : ∀ l, k.kind = .launch l → f l = g l) :
    onLaunch f k = onLaunch g k := by
  unfold onLaunch
  split
  case h_1 l hl => rw [h l hl]
  case h_2 => rfl

/-- Two changes that agree on the launches with the number come to the same. -/
theorem modLaunch_congr {s : State} {id : Nat} {f g : Launch → Launch}
    (h : ∀ k ∈ s.slots, ∀ l, k.id = id → k.kind = .launch l → f l = g l) : s.modLaunch id f = s.modLaunch id g := by
  rw [modLaunch_eq, modLaunch_eq, List.map_congr_left fun k hk => ?_]
  by_cases hid : k.id = id
  · simp only [hid, if_true, onLaunch_congr fun l hl => h k hk l hid hl]
  · simp only [hid, if_false]

theorem modLaunch_id (s : State) (id : Nat) : (s.modLaunch id fun l => l) = s := by
  simp only [modLaunch_eq, onLaunch_id, ite_self, List.map_id']

/-- R168: a PHASE changes the word while its task's phase runs. -/
theorem phase_running {s : State} {t : Task} (ht : s.core.task = some t)
    (h : ∀ k ∈ s.slots, ∀ l, k.id = t.launch → k.kind = .launch l → l.phases = t.phase ∧ l.state = .running)
    (f : Word → Word → Word) (v : Word) :
    s.phase f v = s.modLaunch t.launch fun l => { l with word := f l.word v } := by
  simp only [State.phase, ht]
  refine modLaunch_congr fun k hk l hid hl => ?_
  obtain ⟨hphase, hrun⟩ := h k hk l hid hl
  simp only [hphase, hrun, decide_true, Bool.and_self, if_true]

/-- R168: once the phase is over, it changes nothing. -/
theorem phase_over {s : State} {t : Task} (ht : s.core.task = some t)
    (h : ∀ k ∈ s.slots, ∀ l, k.id = t.launch → k.kind = .launch l → ¬(l.phases = t.phase ∧ l.state = .running))
    (f : Word → Word → Word) (v : Word) : s.phase f v = s := by
  have hid : s.phase f v = s.modLaunch t.launch fun l => l := by
    simp only [State.phase, ht]
    refine modLaunch_congr fun k hk l hid hl => if_neg ?_
    simpa using h k hk l hid hl
  rw [hid, modLaunch_id]

theorem phaseWords : PhaseWords := by
  intro s a t hu ht with_ running
  refine ⟨fun h => ⟨?_, ?_⟩, fun h => ⟨?_, ?_⟩⟩
  · exact hu.guard.trans (by rw [phase_running ht h]; rfl)
  · refine hu.guard.trans ?_
    rw [phase_running ht h]
    simp only [BitVec.ult_iff_lt, BitVec.lt_def]
    rfl
  · exact hu.guard.trans (by rw [phase_over ht h]; rfl)
  · exact hu.guard.trans (by rw [phase_over ht h]; rfl)

/-! ### Waking a resident task (R197) -/

/-- The core that has the turn is the one that its task is found at. -/
theorem find?_own {s : State} {t : Task} (ht : s.core.task = some t) :
    (s.allCores.find? fun c => (c.task.map (·.id)) == some t.id) = some s.core := by
  simp [State.allCores, ht]

/-- R197: the parked task of a core alone stands ready at the tail of its priority. -/
theorem wake_own {s : State} {t : Task} (ht : s.core.task = some t) (hp : s.core.tstate = .parked)
    (hm : s.core.members = []) (hh : s.core.ctx ∉ s.held) : s.wake t.id = { s with
      core := { s.core with tstate := .queued, wait := .none, watch := none, woken := s.core.wait.ends }
      queue := s.queue ++
        [{ t with bound := some s.core.num, resident := true, saved := false, level := t.pri }] } := by
  have hheld : s.held.contains s.core.ctx = false := by simpa using hh
  simp only [State.wake, find?_own ht, hp, if_true, hheld, Bool.false_eq_true, if_false, State.putCore, hm, ht,
    List.isEmpty_nil, State.enqueue, Core.awake]

theorem yieldWaits : Yield := by
  intro s a hu
  refine ⟨fun hw hf hn => ?_, fun t ht hm hh hw hf h0 => ?_, fun hw => ?_⟩
  · have hpos : Nat.min (s.src a).toNat (2 ^ 26) ≠ 0 := by
      have : (s.src a).toNat ≠ 0 := fun h => hn (BitVec.eq_of_toNat_eq h)
      have := Nat.min_def (n := (s.src a).toNat) (m := 2 ^ 26)
      change min _ _ ≠ 0
      omega
    refine hu.guard.trans ?_
    simp only [hw, hf, Bool.false_eq_true, if_false, hpos]
    rfl
  · refine hu.guard.trans ?_
    have hz : Nat.min (s.src a).toNat (2 ^ 26) = 0 := by rw [h0]; rfl
    have hid : ((s.core.task.map (·.id)).getD 0) = t.id := by rw [ht]; rfl
    have hwake := wake_own (s := s.park (.yield 0)) (t := t) ht rfl hm hh
    simp only [hw, hf, Bool.false_eq_true, if_false, hz, if_true]
    exact congrArg _ ((congrArg _ hid).trans hwake)
  · refine hu.guard.trans ?_
    rw [hw]
    rfl

/-- Settles O24: message control by what is latched and waits, a PHASE by its own phase, and YIELD by its time. -/
theorem messagesAndPhases : Obligations.MessagesAndPhases := ⟨messages, phaseWords, yieldWaits⟩

end Sys2Proof.Claims
end

section
/-! SUPPORT. Copies and streams (R122-R126). -/

open Sys2Proof Sys2Proof.Machine

namespace Sys2Proof.Claims

/-! ### The range-lock entries and the control block (R122, R126) -/

theorem freeLock_eq {c : Core} {f : Fin 16} (hf : c.locks[f] = none) (h : ∀ i : Fin 16, i < f → c.locks[i] ≠ none) :
    c.freeLock = some f := by
  rw [Core.freeLock, List.find?_eq_some_iff_getElem]
  refine ⟨by rw [hf]; rfl, f.val, by simp, by simp, fun j hj => ?_⟩
  have := h ⟨j, by omega⟩ hj
  simpa [← Option.ne_none_iff_isSome] using this

/-- R122: a control block that lies aligned in local memory is read. -/
theorem readBlock_ok {s : State} {a : Word} {off : Nat} {g : List (Home × Nat)} {k : List Byte → Out}
    (hs : s.spaceOf a.toNat = .loc off) (ha : a.toNat % 32 = 0) (hc : s.check {} a 32 = .ok g) :
    s.readBlock a k = k (s.loadSegs g) := by
  simp only [State.readBlock, hs, ha, ne_eq, not_true_eq_false, if_false, access_ok hc]

/-- R122: a range of this package's memory that passes its checks. -/
theorem checkRange_ok {s : State} {i n : Nat} {k : Kind} {a : Word} {g : List (Home × Nat)} {c : State → Out}
    (hc : s.check { kind := k, locks := false, data := false } a n = .ok g) (hm : InMemory g) :
    s.checkRange i k a n c = c s := by
  rw [State.checkRange, access_ok hc, checkSegs_inMemory hm]

/-- R122: what both commands ask of their control block. -/
theorem copyBlock_good {bs : List Byte} (hpad : ofBytes (bs.drop 24) = 0) (hflg : ofBytes ((bs.drop 20).take 4) < 4)
    (hlen : 0 < ofBytes ((bs.drop 16).take 4)) (hmax : ofBytes ((bs.drop 16).take 4) ≤ 2 ^ 24) :
    ¬((decide ((copyBlock bs).pad ≠ 0) || decide ((copyBlock bs).flg / 4 ≠ 0) || decide ((copyBlock bs).len = 0)
      || decide (2 ^ 24 < (copyBlock bs).len)) = true) := by
  have hdiv : ofBytes ((bs.drop 20).take 4) / 4 = 0 := by omega
  have hne : ofBytes ((bs.drop 16).take 4) ≠ 0 := by omega
  simp only [copyBlock, hpad, hdiv, hne, not_lt.2 hmax, ne_eq, not_true_eq_false, decide_false, Bool.or_self,
    Bool.false_eq_true, not_false_eq_true]

theorem firstCommon_apart {a b n : Nat} (h : a + n ≤ b ∨ b + n ≤ a) : firstCommon a n b n = none := by
  refine if_neg ?_
  change ¬max a b < min (a + n) (b + n)
  omega

/-- R124: a copy that delivers to a stream runs on with its elements discarded. -/
def hushed (i : SReg) (k : LockEntry) : LockEntry :=
  match k.kind with
  | .stream (some j) w => if j = i then { k with kind := CopyKind.stream none w } else k
  | _ => k

theorem unbind_eq (s : State) (i : SReg) : s.unbind i = { s with core := { s.core with
    s := s.core.s.set i.val none, locks := s.core.locks.map fun e => e.map (hushed i) } } := rfl

theorem hushed_of_unheard {i : SReg} {k : LockEntry} (h : ∀ j w, k.kind ≠ .stream (some j) w) : hushed i k = k := by
  unfold hushed
  split
  case h_1 j w hk => exact absurd hk (h j w)
  case h_2 => rfl

/-- R124: a stream that is unbound, and that no copy delivers to, stays as it is. -/
theorem unbind_of_none {s : State} {e : SReg} (h : s.core.s[e] = none) (hu : Unheard s) : s.unbind e = s := by
  have hstreams : s.core.s.set e.val none = s.core.s := by
    rw [← h]
    exact Vector.set_getElem_self ..
  have hlocks : (s.core.locks.map fun x => x.map (hushed e)) = s.core.locks := by
    refine (Vector.map_congr_left fun x hx => ?_).trans (Vector.map_id _)
    cases x with
    | none => rfl
    | some k => exact congrArg some (hushed_of_unheard (hu k (by simpa using hx)))
  rw [unbind_eq, hstreams, hlocks]

/-! ### COPY and COPYS (R122) -/

theorem copies : Copies := by
  intro s d e a off gb gs gd f hs ha hb bs dst src len flg hpad hflg hlen hmax hsrc hms hf hlow
  have hgood := copyBlock_good hpad hflg hlen hmax
  have hfree : s.core.freeLock = some f := freeLock_eq hf hlow
  refine ⟨fun hu hapart hdst hmd => ?_, fun hu hd hw hn hunheard => ?_⟩
  · have happart : ¬(firstCommon src len dst len).isSome = true := by simp [firstCommon_apart hapart]
    refine hu.guard.trans ((readBlock_ok hs ha hb).trans ((if_neg hgood).trans ((if_neg happart).trans
      ((checkRange_ok hsrc hms).trans ((checkRange_ok hdst hmd).trans ?_)))))
    simp only [hfree, retire_setX]
    rfl
  · have hmod : (copyBlock (s.loadSegs gb)).flg % 4 = flg := Nat.mod_eq_of_lt hflg
    have heven : ¬(decide (dst ≠ 0) || decide (len % 2 ^ ((copyBlock bs).flg % 4) ≠ 0)) = true := by
      simp [bs, hmod, hd, hw]
    refine hu.guard.trans ((readBlock_ok hs ha hb).trans ((if_neg hgood).trans ((if_neg heven).trans
      ((checkRange_ok hsrc hms).trans ?_))))
    simp only [hfree, unbind_of_none hn hunheard, hmod]
    rfl

/-! ### Streams (R123-R125) -/

/-- R123: what SBIND leaves: a range of local memory bound to a stream that was free. -/
def boundTo (s : State) (e : SReg) (start width count : Nat) : State :=
  went { s with core := { s.core with
    s := s.core.s.set e.val (some { entry := none, start := start, width := width, count := count }) } } s.core.npc

theorem exec_sbind {s : State} {e : SReg} {a b : XSrc} {w : BitVec 2} {segs : List (Home × Nat)}
    (hu : Usable s (a.regs ++ b.regs) (a.cells ++ b.cells)) (hn : s.core.s[e] = none) (hunheard : Unheard s)
    (h : s.check { allow := .onlyLoc, align := 2 ^ BitVec.toNat w, data := false } (s.src a)
        ((s.src b).toNat * 2 ^ BitVec.toNat w) = .ok segs ∧ (s.src b).toNat ≠ 0
      ∨ (∃ off, s.spaceOf (s.src a).toNat = .loc off) ∧ (s.src a).toNat % 2 ^ BitVec.toNat w = 0 ∧ (s.src b).toNat = 0) :
    exec (.sbind e a b w) s = .next (boundTo s e (s.src a).toNat (2 ^ BitVec.toNat w) (s.src b).toNat) := by
  refine hu.guard.trans ?_
  dsimp only
  rw [unbind_of_none hn hunheard]
  obtain ⟨hc, h0⟩ | ⟨⟨off, hs⟩, ha, h0⟩ := h
  · rw [if_neg h0, access_ok hc]
    rfl
  · rw [if_pos h0, hs]
    simp only [ha, ne_eq, not_true_eq_false, if_false]
    rfl

/-- R125: WAITR of an entry's number. -/
theorem exec_waitr {s : State} {a : XSrc} {f : Fin 16} (hu : Usable s a.regs a.cells)
    (hf : (s.src a).toNat % 16 = f.val) :
    exec (.waitr a) s = .next (if s.core.locks[f] = none then went s s.core.npc else s.stall) := by
  have hlock : s.core.locks[(s.src a).toNat % 16]'(Nat.mod_lt _ (by decide)) = s.core.locks[f] := by
    simp only [hf]
    rfl
  refine hu.guard.trans ?_
  rw [hlock, apply_ite Host.Outcome.next]
  simp only [Option.isNone_iff_eq_none]
  rfl

theorem streams : Streams := by
  intro s d e a b
  refine ⟨fun hu w segs hn hunheard h => exec_sbind hu hn hunheard h, fun t ht => ?_, fun hn => ?_,
    fun hu t ht hentry => ?_, fun hu => ⟨?_, ?_⟩, fun hu f hf => ?_, fun h => ?_⟩
  · refine ⟨(s.unbind e).retire, ?_, ?_, rfl, rfl, rfl, rfl⟩
    · change execSctlUnbind e s = _
      rw [execSctlUnbind, ht]
    · exact Vector.getElem_set_self ..
  · change execSctlUnbind e s = _
    rw [execSctlUnbind, hn]
  · change execSctlSkip e a s = _
    simp only [execSctlSkip, ht, hentry]
    exact hu.guard
  · exact hu.guard.trans (by rw [retire_setX])
  · exact hu.guard.trans (by rw [retire_setX]; rfl)
  · rw [exec_waitr hu hf]
    exact ⟨fun h => by rw [if_pos h], fun h => by rw [if_neg h]⟩
  · have hall : s.core.locks.toList.all (·.isNone) = true := by
      rw [List.all_eq_true]
      intro x hx
      obtain ⟨i, hi, rfl⟩ := List.mem_iff_getElem.1 hx
      have := h ⟨i, by simpa using hi⟩
      simpa [Option.isNone_iff_eq_none] using this
    exact if_pos hall

/-- Settles O13: a command by its control block and the free entry, a stream by its binding, WAITR by its entry. -/
theorem copiesAndStreams : Obligations.CopiesAndStreams := ⟨copies, streams⟩

end Sys2Proof.Claims
end

section
/-! SUPPORT. Vector loads and stores and block moves (R114, R115, R138). -/

open Sys2Proof Sys2Proof.Machine

namespace Sys2Proof.Claims

/-! ### Several accesses (R104, R114) -/

/-- R104: accesses that all pass are made together. -/
theorem accesses_ok {s : State} {acc : Access} {n : Nat} {addr : Nat → Word} {g : Nat → List (Home × Nat)} :
    ∀ {l : List Nat} {k : List (List (Home × Nat)) → Out}, (∀ i ∈ l, s.check acc (addr i) n = .ok (g i)) →
      s.accesses acc (l.map fun i => (addr i, n)) k = k (l.map g)
  | [], _, _ => rfl
  | i :: t, k, h => by
    rw [List.map_cons, State.accesses, access_ok (h i List.mem_cons_self), List.map_cons]
    exact accesses_ok fun j hj => h j (List.mem_cons_of_mem i hj)

/-- R384: a load from this package's memory changes no register of space 4. -/
theorem loaded_inMemory {s : State} {segs : List (Home × Nat)} (h : InMemory segs) : s.loaded segs = s := by
  refine if_neg ?_
  rw [Bool.not_eq_true, List.any_eq_false]
  intro g hg
  have := h g hg
  cases hhome : g.1 <;> simp_all

theorem foldl_loaded {s : State} : ∀ {gs : List (List (Home × Nat))}, (∀ g ∈ gs, InMemory g) →
    gs.foldl State.loaded s = s
  | [], _ => rfl
  | g :: t, h => by
    rw [List.foldl_cons, loaded_inMemory (h g List.mem_cons_self)]
    exact foldl_loaded fun x hx => h x (List.mem_cons_of_mem g hx)

/-! ### The vector load (R114, R138) -/

/-- A lane that is put takes its value, and every other lane stays. -/
theorem getElem_putLanes (f : Nat → Nat) : ∀ (l : List Nat) (v : Vector Lane 64), ∀ i (h : i < 64),
    (putLanes v (l.map fun j => (j, f j)))[i] = if i ∈ l then BitVec.ofNat 32 (f i) else v[i]
  | [], _, _, _ => by simp [putLanes]
  | j :: t, v, i, h => by
    rw [List.map_cons, putLanes, getElem_putLanes f t]
    by_cases hj : j = i
    · subst hj
      simp
    · simp [hj, Ne.symm hj, List.mem_cons]

/-- The active lanes of a mask. -/
def activeOf (s : State) (k : Mask) : List Nat := (List.range 64).filter fun i => (s.mask k).getLsbD i

theorem mem_activeOf {s : State} {k : Mask} {i : Nat} : i ∈ activeOf s k ↔ i < 64 ∧ (s.mask k).getLsbD i = true := by
  simp [activeOf]

theorem retire_setV (s : State) (d : VReg) (v : Vector Lane 64) : (s.setV d v).retire = went { s with
    core := { s.core with v := s.core.v.set d.val v }, poison := cleaned s (cellV d.val) } s.core.npc := by
  rw [State.setV, unpoison_eq]
  rfl

theorem exec_vld {s : State} {d : VReg} {m : VMode} {k : Mask} {g : Nat → List (Home × Nat)} (hb : s.vmuBusy = false)
    (hu : Usable s (modeRegs m) (modeCells m ++ maskCells k)) (hm : ∀ i < 64, InMemory (g i))
    (hc : ∀ i ∈ activeOf s k, s.check { allow := .noGlobal, align := 4 } (s.laneAddr m i) 4 = .ok (g i))
    (hw : ∀ i ∈ activeOf s k, s.mustWait (g i) = false) :
    exec (.vld d m k) s = .next (s.setV d (putLanes s.core.v[d] ((activeOf s k).map fun i =>
      (i, ofBytes (s.loadSegs (g i)))))).retire := by
  have haddr : (s.lanes m k).map (fun l => (l.2, 4)) = (activeOf s k).map fun i => (s.laneAddr m i, 4) := by
    simp [State.lanes, activeOf, Function.comp_def]
  have hlane : (s.lanes m k).map (·.1) = activeOf s k := by
    simp [State.lanes, activeOf, Function.comp_def]
  have hclear : ((activeOf s k).map g).any s.mustWait = false := by
    simp only [List.any_map, List.any_eq_false, Function.comp_apply]
    intro i hi
    simp [hw i hi]
  have hin : ∀ x ∈ (activeOf s k).map g, InMemory x := by
    simp only [List.forall_mem_map]
    exact fun i hi => hm i (mem_activeOf.1 hi).1
  refine hu.guard.trans ((vmu_idle hb).trans ?_)
  simp only [haddr]
  rw [accesses_ok hc]
  simp only [hclear, Bool.false_eq_true, if_false, foldl_loaded hin, hlane, List.map_map, ← List.map_prod_left_eq_zip,
    Function.comp_apply]

/-! ### The vector store (R114, R138) -/

/-- One access of a vector store: its address, its homes and its bytes. -/
abbrev LaneStore := (Word × List (Home × Nat)) × List Byte

/-- The buffered stores of such accesses. -/
def laneEntries (asid : Nat) (l : List LaneStore) : List SbEntry := l.flatMap fun x => sbEntries asid x.1.1 x.1.2 x.2

theorem pushAll_eq : ∀ (l : List LaneStore) (s : State), s.pushAll l = { s with
    core := { s.core with sb := s.core.sb ++ laneEntries (s.ctxAsid s.core.ctx) l } }
  | [], s => by simp [State.pushAll, laneEntries]
  | x :: t, s => by
    have hcons (asid : Nat) : laneEntries asid (x :: t) = sbEntries asid x.1.1 x.1.2 x.2 ++ laneEntries asid t := rfl
    rw [State.pushAll, pushAll_eq t, hcons, ← List.append_assoc]
    rfl

/-- A store's bytes fill its homes, and no home is in the mirrored region. -/
def Filling (x : LaneStore) : Prop := x.2.length = (x.1.2.map (·.2)).sum ∧ Plain x.1.2

/-- The homes that an access writes, each with its byte. -/
def LaneStore.written (x : LaneStore) : List (Home × Option Byte) := (places x.1.2).zip (x.2.map some)

theorem places_length (segs : List (Home × Nat)) : (places segs).length = (segs.map (·.2)).sum := by
  simp [places, List.length_flatMap]

/-- R112: the entries of a store hold each of its bytes for its home. -/
theorem flatMap_sbEntries (asid : Nat) : ∀ (a : Word) (segs : List (Home × Nat)) (bs : List Byte),
    bs.length = (segs.map (·.2)).sum →
    ((sbEntries asid a segs bs).flatMap fun e => (List.range e.bytes.length).map fun j => (e.home.plus j, e.bytes[j]?))
      = (places segs).zip (bs.map some)
  | _, [], _, _ => rfl
  | a, (h, n) :: t, bs, hlen => by
    simp only [List.map_cons, List.sum_cons] at hlen
    have htake : (bs.take n).length = n := by simp; omega
    have hhead : ((List.range n).map fun j => (h.plus j, (bs.take n)[j]?))
        = ((List.range n).map h.plus).zip ((bs.take n).map some) := by
      apply List.ext_getElem
      · simp; omega
      · intro i h1 h2
        simp at h1
        simp [List.getElem?_take_of_lt h1, List.getElem?_eq_getElem (show i < bs.length by omega)]
    have hsplit : bs.map some = (bs.take n).map some ++ (bs.drop n).map some := by
      rw [← List.map_append, List.take_append_drop]
    rw [sbEntries, List.flatMap_cons, flatMap_sbEntries asid _ t _ (by simp; omega), places_cons, hsplit,
      List.zip_append (by simp; omega)]
    simp only [htake, hhead]

theorem plus_plus (h : Home) (i j : Nat) : (h.plus i).plus j = h.plus (i + j) := by
  cases h <;> simp [Home.plus, Nat.add_assoc]

/-- Two runs, one behind the other, are one run. -/
theorem places_join (h : Home) (n m : Nat) (t : List (Home × Nat)) :
    places ((h, n + m) :: t) = places [(h, n)] ++ places ((h.plus n, m) :: t) := by
  simp [places, List.range_add, plus_plus, Function.comp_def]

/-- Two runs of a vector store that follow each other make one. -/
theorem joined_written {a b : Word} {h : Home} {n m : Nat} {t : List (Home × Nat)} {x y : List Byte}
    (hx : Filling ((a, [(h, n)]), x)) (hy : Filling ((b, (h.plus n, m) :: t), y)) :
    Filling ((a, (h, n + m) :: t), x ++ y) ∧ LaneStore.written ((a, (h, n + m) :: t), x ++ y)
      = LaneStore.written ((a, [(h, n)]), x) ++ LaneStore.written ((b, (h.plus n, m) :: t), y) := by
  obtain ⟨hxlen, hxin, hxm⟩ := hx
  obtain ⟨hylen, hyin, hym⟩ := hy
  have hn : x.length = n := by simpa using hxlen
  refine ⟨⟨?_, ?_, ?_⟩, ?_⟩
  · simp only [List.map_cons, List.sum_cons, List.length_append, hn] at hylen ⊢
    omega
  · exact List.forall_mem_cons.2 ⟨hxin (h, n) List.mem_cons_self, (List.forall_mem_cons.1 hyin).2⟩
  · exact List.forall_mem_cons.2 ⟨hxm (h, n) List.mem_cons_self, (List.forall_mem_cons.1 hym).2⟩
  · simp only [LaneStore.written, places_join, List.map_append]
    exact List.zip_append (by simp [places_length, hn])

/-- R114: lanes that are stored together write the same bytes as each for itself. -/
theorem joinLanes_written : ∀ {l : List LaneStore}, (∀ x ∈ l, Filling x) →
    (∀ x ∈ joinLanes l, Filling x) ∧ (joinLanes l).flatMap LaneStore.written = l.flatMap LaneStore.written
  | [], _ => ⟨by simp [joinLanes], rfl⟩
  | x :: t, h => by
    obtain ⟨hx, ht⟩ := List.forall_mem_cons.1 h
    obtain ⟨hfill, hwrite⟩ := joinLanes_written ht
    have apart : (∀ y ∈ x :: joinLanes t, Filling y)
        ∧ (x :: joinLanes t).flatMap LaneStore.written = (x :: t).flatMap LaneStore.written :=
      ⟨List.forall_mem_cons.2 ⟨hx, hfill⟩, by rw [List.flatMap_cons, List.flatMap_cons, hwrite]⟩
    rw [joinLanes]
    split
    case h_2 hj =>
      rw [hj] at apart
      exact apart
    case h_1 y u hj =>
      obtain ⟨hy, hu⟩ := List.forall_mem_cons.1 (hj ▸ hfill)
      rw [hj] at apart
      rw [hj, List.flatMap_cons] at hwrite
      obtain ⟨⟨a, xs⟩, xb⟩ := x
      obtain ⟨⟨b, ys⟩, yb⟩ := y
      split
      case h_2 => exact apart
      case h_1 a0 n b0 n' gs hxs hys =>
        split
        case isFalse => exact apart
        case isTrue hnext =>
          obtain rfl : xs = [(a0, n)] := hxs
          obtain rfl : ys = (b0, n') :: gs := hys
          obtain rfl : a0.plus n = b0 := by
            simp only [Bool.and_eq_true, decide_eq_true_eq] at hnext
            exact hnext.1
          obtain ⟨hf, hw⟩ := joined_written hx hy
          refine ⟨List.forall_mem_cons.2 ⟨hf, hu⟩, ?_⟩
          rw [List.flatMap_cons, List.flatMap_cons, hw, List.append_assoc, hwrite]

/-- R251: a store that is not to the mirrored region has no entries that enter together. -/
theorem chained_plain : ∀ {es : List SbEntry}, (∀ e ∈ es, ∀ off, e.home ≠ .mirror off) → chained es = es
  | [], _ => rfl
  | [_], _ => rfl
  | e :: e' :: t, h => by
    obtain ⟨he, ht⟩ := List.forall_mem_cons.1 h
    rw [chained, chained_plain ht]
    · split
      case h_1 off hhome => exact absurd hhome (he off)
      case h_2 => rfl
    · simp

theorem mem_sbEntries {asid : Nat} {e : SbEntry} : ∀ {a : Word} {segs : List (Home × Nat)} {bs : List Byte},
    e ∈ sbEntries asid a segs bs → ∃ x ∈ segs, e.home = x.1
  | _, [], _, h => absurd h List.not_mem_nil
  | _, (h, n) :: t, _, he => by
    rw [sbEntries, List.mem_cons] at he
    obtain rfl | he := he
    · exact ⟨(h, n), List.mem_cons_self, rfl⟩
    · obtain ⟨x, hx, hhome⟩ := mem_sbEntries he
      exact ⟨x, List.mem_cons_of_mem _ hx, hhome⟩

theorem laneEntries_plain {asid : Nat} {l : List LaneStore} (h : ∀ x ∈ l, Filling x) :
    ∀ e ∈ laneEntries asid l, ∀ off, e.home ≠ .mirror off := by
  intro e he off
  obtain ⟨x, hx, hex⟩ := List.mem_flatMap.1 he
  obtain ⟨g, hg, hhome⟩ := mem_sbEntries hex
  rw [hhome]
  exact (h x hx).2.2 g hg off

/-- R112: the entries of several stores hold each of their bytes for its home. -/
theorem laneEntries_written {asid : Nat} {l : List LaneStore} (h : ∀ x ∈ l, Filling x) :
    ((laneEntries asid l).flatMap fun e => (List.range e.bytes.length).map fun j => (e.home.plus j, e.bytes[j]?))
      = l.flatMap LaneStore.written := by
  rw [laneEntries, List.flatMap_assoc]
  exact List.flatMap_congr fun x hx => flatMap_sbEntries asid _ _ _ (h x hx).1

/-- The accesses of a vector store. -/
def laneStores (s : State) (d : VReg) (m : VMode) (k : Mask) (g : Nat → List (Home × Nat)) : List LaneStore :=
  (activeOf s k).map fun i => ((s.laneAddr m i, g i), bytesOf 4 (s.core.v[d].toList.getD i 0).toNat)

/-- R114: the same as they are made: the consecutive lanes are one access. -/
def madeStores (s : State) (d : VReg) (m : VMode) (k : Mask) (g : Nat → List (Home × Nat)) : List LaneStore :=
  if oneAccess m then joinLanes (laneStores s d m k g) else laneStores s d m k g

/-- The buffer after the pushes of a vector store. -/
theorem push_madeStores {s : State} {d : VReg} {m : VMode} {k : Mask} {g : Nat → List (Home × Nat)}
    (h : ∀ x ∈ laneStores s d m k g, Filling x) :
    (if oneAccess m then (s.pushAll (joinLanes (laneStores s d m k g))).chain s.core.sb.length
      else s.pushAll (laneStores s d m k g)) = { s with core := { s.core with
        sb := s.core.sb ++ laneEntries (s.ctxAsid s.core.ctx) (madeStores s d m k g) } } := by
  by_cases hone : oneAccess m
  · have := chained_plain (laneEntries_plain (asid := s.ctxAsid s.core.ctx) (joinLanes_written h).1)
    simp [madeStores, hone, pushAll_eq, State.chain, this]
  · simp only [madeStores, hone, Bool.false_eq_true, if_false, pushAll_eq]

theorem plain_flatten {l : List (List (Home × Nat))} (h : ∀ x ∈ l, Plain x) : Plain l.flatten := by
  refine ⟨fun g hg => ?_, fun g hg => ?_⟩ <;> obtain ⟨x, hx, hgx⟩ := List.mem_flatten.1 hg
  · exact (h x hx).1 g hgx
  · exact (h x hx).2 g hgx

theorem exec_vst {s : State} {d : VReg} {m : VMode} {k : Mask} {g : Nat → List (Home × Nat)} (hb : s.vmuBusy = false)
    (hu : Usable s (modeRegs m) (cellV d.val :: (modeCells m ++ maskCells k)))
    (hc : ∀ i ∈ activeOf s k, s.check { kind := .store, allow := .noGlobal, align := 4 } (s.laneAddr m i) 4 = .ok (g i))
    (hf : ∀ x ∈ laneStores s d m k g, Filling x) :
    exec (.vst d m k) s = .next (went { s with core := { s.core with
      sb := s.core.sb ++ laneEntries (s.ctxAsid s.core.ctx) (madeStores s d m k g) } } s.core.npc) := by
  have haddr : (s.lanes m k).map (fun l => (l.2, 4)) = (activeOf s k).map fun i => (s.laneAddr m i, 4) := by
    simp [State.lanes, activeOf, Function.comp_def]
  have hstores : (((s.lanes m k).map (·.2)).zip ((activeOf s k).map g)).zip
      ((s.lanes m k).map fun l => bytesOf 4 (s.core.v[d].toList.getD l.1 0).toNat) = laneStores s d m k g := by
    simp [State.lanes, activeOf, laneStores, List.zip_map', Function.comp_def]
  have hplain : Plain ((activeOf s k).map g).flatten := plain_flatten fun x hx => by
    obtain ⟨i, hi, rfl⟩ := List.mem_map.1 hx
    exact (hf _ (List.mem_map_of_mem hi)).2
  refine hu.guard.trans ((vmu_idle hb).trans ?_)
  simp only [haddr]
  rw [accesses_ok hc, hstores, push_madeStores hf, retireStore_plain hplain]
  rfl

theorem vectorMemory : VectorMemory := by
  intro s d m k g hb hm on lanes
  have hon {i : Nat} : i ∈ activeOf s k ↔ on i := mem_activeOf
  refine ⟨fun hu hc hw => ⟨_, (exec_vld hb hu hm (fun i hi => hc i (hon.1 hi)) fun i hi => hw i (hon.1 hi)).trans
      (congrArg Host.Outcome.next (retire_setV ..)), fun i hi => ?_⟩, fun hu hc hg => ?_⟩
  · rw [getElem_putLanes]
    simp [mem_activeOf, hi]
  · have hf : ∀ x ∈ laneStores s d m k g, Filling x := by
      intro x hx
      obtain ⟨i, hi, rfl⟩ := List.mem_map.1 hx
      obtain ⟨hplain, hsum⟩ := hg i (hon.1 hi)
      exact ⟨by simp [bytesOf, hsum], hplain⟩
    have hmade : (∀ x ∈ madeStores s d m k g, Filling x) ∧ (madeStores s d m k g).flatMap LaneStore.written
        = (laneStores s d m k g).flatMap LaneStore.written := by
      rw [madeStores]
      split
      · exact joinLanes_written hf
      · exact ⟨hf, rfl⟩
    refine ⟨_, exec_vst hb hu (fun i hi => hc i (hon.1 hi)) hf, ?_⟩
    rw [laneEntries_written hmade.1, hmade.2, laneStores, List.flatMap_map]
    rfl

/-! ### The block moves (R115) -/

theorem localSide_of {s : State} {a : Word} {off : Nat} {k : Out} (h : s.spaceOf a.toNat = .loc off) :
    s.localSide a k = k := by
  rw [State.localSide, h]

theorem blockMoves : BlockMoves := by
  intro s a b la z r off gs gd hu hin hplain hwait n
  refine ⟨fun hback hholds hloc hsrc hdst => ?_, fun hloc hsrc hdst hr => ?_⟩
  · refine hu.guard.trans ((localSide_of hloc).trans ((access_ok hsrc).trans ((access_ok hdst).trans ?_)))
    refine (if_neg (by simp [hback, hholds])).trans ?_
    split
    case h_1 => exact absurd (hin _ List.mem_cons_self) id
    case h_2 => exact absurd (hin _ List.mem_cons_self) id
    case h_3 => exact (if_neg (by simp [hwait])).trans rfl
  · refine hu.guard.trans ((localSide_of hloc).trans ((access_ok hsrc).trans ((access_ok hdst).trans ?_)))
    refine (if_neg (by cases r <;> simp_all)).trans ?_
    rw [checkSegs_inMemory hplain.1, retireStore_plain hplain, retire_push]

/-- Settles O10: the lanes' accesses in one go, and a vector store's joined lanes write what each lane writes. -/
theorem vectorAndBlockMemory : Obligations.VectorAndBlockMemory := ⟨vectorMemory, blockMoves⟩

end Sys2Proof.Claims
end

section
/-! SUPPORT. Wells: slots, handles and their checks (R127, R128, R257, R258). -/

open Sys2Proof Sys2Proof.Machine

namespace Sys2Proof.Claims

/-! ### Slots (R257) -/

theorem wellSlot_named (s : State) (home idx : Nat) : (s.wellSlot home idx).home = home ∧ (s.wellSlot home idx).idx = idx := by
  rw [State.wellSlot]
  cases hfind : s.wells.find? fun w => w.home == home && w.idx == idx with
  | none => exact ⟨rfl, rfl⟩
  | some w => simpa using List.find?_some hfind

/-- A slot that is put is there. -/
theorem wellSlot_put (s : State) (w : WellSlot) : (s.putWellSlot w).wellSlot w.home w.idx = w := by
  simp [State.wellSlot, State.putWellSlot]

/-- A slot that is put leaves the others. -/
theorem wellSlot_put_other (s : State) (w : WellSlot) {home idx : Nat} (h : (home, idx) ≠ (w.home, w.idx)) :
    (s.putWellSlot w).wellSlot home idx = s.wellSlot home idx := by
  have hne : ¬(w.home = home ∧ w.idx = idx) := fun ⟨h1, h2⟩ => h (by rw [h1, h2])
  have hkeep : ∀ x : WellSlot, (!(x.home == w.home && x.idx == w.idx) && (x.home == home && x.idx == idx))
      = (x.home == home && x.idx == idx) := by
    intro x
    by_cases hx : x.home = home ∧ x.idx = idx
    · obtain ⟨rfl, rfl⟩ := hx
      simp only [beq_self_eq_true, Bool.and_self, Bool.and_true, Bool.not_eq_true', Bool.and_eq_false_iff,
        beq_eq_false_iff_ne]
      exact not_and_or.1 fun ⟨h1, h2⟩ => hne ⟨h1.symm, h2.symm⟩
    · have : (x.home == home && x.idx == idx) = false := by simpa using hx
      rw [this, Bool.and_false]
  simp only [State.wellSlot, State.putWellSlot]
  rw [List.find?_cons_of_neg (by simpa using hne), List.find?_filter]
  simp only [Bool.decide_and, Bool.decide_eq_true, hkeep]

/-- A change of the well at a slot. -/
theorem modWell_of {s : State} {home idx : Nat} {w : Well} (h : (s.wellSlot home idx).well = some w) (f : Well → Well) :
    s.modWell home idx f = wellSet s home idx (f w) := by
  obtain ⟨hhome, hidx⟩ := wellSlot_named s home idx
  rw [State.modWell]
  simp only [h, State.putWellSlot, wellSet, hhome, hidx]

/-- A change of the one well at a slot leaves its slot and incarnation. -/
theorem wellSlot_wellSet (s : State) (home idx : Nat) (w : Well) :
    (wellSet s home idx w).wellSlot home idx = { s.wellSlot home idx with well := some w } := by
  obtain ⟨hhome, hidx⟩ := wellSlot_named s home idx
  simp [State.wellSlot, wellSet] at hhome hidx ⊢
  simp [hhome, hidx]

/-! ### Handles (R127) -/

theorem wellAt_some {s : State} {home idx inc : Nat} {w : Well} (h : s.wellAt home idx inc = some w) :
    (s.wellSlot home idx).well = some w := by
  rw [State.wellAt] at h
  split at h
  · exact (Option.filter_eq_some_iff.1 h).1
  · cases h

theorem wellOf_some {s : State} {ctx : Nat} {h : Word} {w : Well} (hw : s.wellOf ctx h = some w) :
    (s.wellSlot (hHome h) (hIdx h)).well = some w := by
  rw [State.wellOf] at hw
  split at hw
  · cases hw
  · exact wellAt_some (Option.filter_eq_some_iff.1 hw).1

theorem onWell_some {s : State} {h : Word} {w : Well} {k : Well → Out} (hw : s.wellOf s.core.ctx h = some w) :
    s.onWell h k = k w := by
  rw [State.onWell, hw]

theorem onWell_none {s : State} {h : Word} {k : Well → Out} (hw : s.wellOf s.core.ctx h = none) :
    s.onWell h k = s.trap .rao h := by
  rw [State.onWell, hw]

/-- R266: with no read waiting at the well, there is none to check again. -/
theorem recheck_of_noReader {s : State} {home idx : Nat} (h : NoReader s home idx) : s.recheck home idx = s := by
  have hnone : (s.reads.filter fun r => r.home == home && r.idx == idx && r.phase == .waiting) = [] := by
    rw [List.filter_eq_nil_iff]
    intro r hr
    have := h r hr
    simp only [Bool.and_eq_true, beq_iff_eq, not_and]
    tauto
  rw [State.recheck, hnone]
  rfl

/-! ### The creation of a well (R128, R257) -/

/-- A descriptor that RNEW rejects. -/
def badDesc (s : State) (v : Nat) : Bool :=
  let x := wellDesc v (routerOf s.core.num)
  bits v 39 25 ≠ 0 || x.d = 0 || decide (512 < x.d) || decide (numRouters ≤ x.home)
    || (s.layer (layerOfRouter x.home)).state == .retired

theorem exec_rnew_bad {s : State} {d : XReg} {a : XSrc} (hu : Usable s (d.val :: a.regs) a.cells)
    (h : badDesc s (s.src a).toNat = true) : exec (.rnew d a) s = .next (s.takeTrap .rao (s.src a)) :=
  hu.guard.trans (if_pos h)

theorem exec_rnew_full {s : State} {d : XReg} {a : XSrc} (hu : Usable s (d.val :: a.regs) a.cells)
    (h : badDesc s (s.src a).toNat = false) (hfull : ((List.range 256).find? fun i =>
      let x := wellDesc (s.src a).toNat (routerOf s.core.num)
      s.wellFits x.home i x.d x.span x.p) = none) : exec (.rnew d a) s = .next (marked s d 0) := by
  refine hu.guard.trans ((if_neg (Bool.eq_false_iff.1 h)).trans ?_)
  rw [hfull, ← retireMark_setX]

theorem exec_rnew_new {s : State} {d : XReg} {a : XSrc} {i : Nat} (hu : Usable s (d.val :: a.regs) a.cells)
    (h : badDesc s (s.src a).toNat = false) (hi : ((List.range 256).find? fun i =>
      let x := wellDesc (s.src a).toNat (routerOf s.core.num)
      s.wellFits x.home i x.d x.span x.p) = some i) :
    let r := s.newWell s.core.ctx i (wellDesc (s.src a).toNat (routerOf s.core.num))
    exec (.rnew d a) s = .next (marked r.2 d r.1) := by
  refine hu.guard.trans ((if_neg (Bool.eq_false_iff.1 h)).trans ?_)
  rw [hi]
  simp only [← retireMark_setX]

theorem badDesc_iff {s : State} {v : Nat} (hv : v < 2 ^ 64) : badDesc s v = true ↔
    let home := if v / 2 ^ 28 % 512 = 511 then s.core.num / 16 else v / 2 ^ 28 % 512
    v / 2 ^ 39 ≠ 0 ∨ v % 1024 = 0 ∨ 512 < v % 1024 ∨ 384 ≤ home ∨ (s.layer (layerOfRouter home)).state = .retired := by
  have hrest : bits v 39 25 = v / 2 ^ 39 := by simp only [bits]; omega
  have hsize : (wellDesc v (routerOf s.core.num)).d = v % 1024 := by simp [wellDesc, bits]
  simp only [badDesc, hrest, hsize, Bool.or_eq_true, decide_eq_true_eq, beq_iff_eq, or_assoc,
    ne_eq]
  exact Iff.rfl

theorem wellsCreated : WellsCreated := by
  intro s d a hu v home size span p bad
  have hv : v < 2 ^ 64 := (s.src a).isLt
  have hbad : badDesc s v = true ↔ bad := badDesc_iff hv
  have hd : (wellDesc v (routerOf s.core.num)).d = size := by simp [wellDesc, bits, size]
  refine ⟨fun h => exec_rnew_bad hu (hbad.2 h), fun h => ?_⟩
  have hgood : badDesc s v = false := Bool.eq_false_iff.2 fun hb => h (hbad.1 hb)
  refine ⟨fun hfull => exec_rnew_full hu hgood ?_, fun i hi hfits hfirst => ?_⟩
  · rw [List.find?_eq_none]
    intro i hi
    have := hfull i (List.mem_range.1 hi)
    rw [← hd] at this
    exact Bool.eq_false_iff.1 this
  · intro inc
    have hfind : ((List.range 256).find? fun j => s.wellFits home j (wellDesc v (routerOf s.core.num)).d span p) = some i := by
      rw [List.find?_range_eq_some, hd]
      exact ⟨hfits, List.mem_range.2 hi, fun j hj => by simp [hfirst j hj]⟩
    refine ⟨_, exec_rnew_new hu hgood hfind, rfl, ?_, fun x y hxy => ?_⟩
    · rw [← hd]
      exact wellSlot_put s _
    · exact wellSlot_put_other s _ hxy

/-! ### The checks of a handle (R127) -/

theorem handlesChecked : HandlesChecked := by
  intro s d a b c l k f hpr hw rao
  have hpost : s.post (s.src a) (s.src b) (s.src c) l k f = s.trap .rao (s.src a) := by rw [State.post, hw]
  have hask (delta : Bool) : s.askRead delta d (s.src a) (s.src b) f = s.trap .rao (s.src a) := by
    rw [State.askRead, hw]
  have hread (delta : Bool) (hu : Usable s (d.val :: (a.regs ++ b.regs)) (a.cells ++ b.cells)) :
      s.readWell delta d a b f = s.trap .rao (s.src a) := by
    rw [State.readWell, hpr]
    exact hu.guard.trans (hask delta)
  have hstat (t : List XSrc) (g : Well → Nat)
      (hu : Usable s (d.val :: (a.regs ++ (t.map XSrc.regs).flatten)) (a.cells ++ (t.map XSrc.cells).flatten)) :
      s.rstat d a t g = s.trap .rao (s.src a) := hu.guard.trans (onWell_none hw)
  refine ⟨fun hu => ?_, fun hu => ?_, fun hu => ?_⟩
  · change execRpost a b c l k f s = _
    rw [execRpost, hpr]
    exact hu.guard.trans hpost
  · have hu2 : Usable s (d.val :: (a.regs ++ ([b].map XSrc.regs).flatten)) (a.cells ++ ([b].map XSrc.cells).flatten) := by
      simpa using hu
    refine ⟨hread false hu, hread true hu, ?_, hstat [b] _ hu2, hstat [b] _ hu2, hstat [b] _ hu2⟩
    exact (hu.mono (List.subset_cons_self ..) (List.Subset.refl _)).guard.trans (onWell_none hw)
  · have hu1 : Usable s (d.val :: (a.regs ++ (List.map XSrc.regs []).flatten)) (a.cells ++ (List.map XSrc.cells []).flatten) := by
      simpa using hu
    refine ⟨hu.guard.trans (onWell_none hw), ?_, hstat [] _ hu1, hstat [] _ hu1, hstat [] _ hu1,
      hu.guard.trans (onWell_none hw)⟩
    change execRfree a s = _
    rw [execRfree, hpr]
    exact (hu.mono (List.subset_cons_self ..) (List.Subset.refl _)).guard.trans (onWell_none hw)

/-- Settles O44: the descriptor's checks field by field, and the first slot with room by `find?`. -/
theorem wellHandles : Obligations.WellHandles := ⟨wellsCreated, handlesChecked⟩

end Sys2Proof.Claims
end

section
/-! SUPPORT. Absence, advance, release and state of a well (R131, R132, R270-R272). -/

open Sys2Proof Sys2Proof.Machine

namespace Sys2Proof.Claims

/-! ### Absence and advance (R270, R271) -/

/-- R131: the tags that RABSENT rejects. -/
theorem badAbsent_iff {w : Well} {tag : Word} : w.badAbsent tag = true ↔
    tag.toNat / 2 ^ 21 ≠ 0 ∨ w.n ≤ tagCon tag ∨ w.classOf (tagGen tag) = .ahead := by
  have hrest : bits tag.toNat 21 43 = tag.toNat / 2 ^ 21 := by
    have := tag.isLt
    simp only [bits]
    omega
  simp only [Well.badAbsent, hrest, Bool.or_eq_true, bne_iff_ne, decide_eq_true_eq, beq_iff_eq, or_assoc]

/-- R264: an event that no bank carries out takes a position all the same. -/
theorem position_nil (w : Well) : w.position [] = { w with q := w.q + 1 } := by
  rw [Well.position, List.append_nil]

/-- The well once an absence has taken its position. -/
def Well.absented (w : Well) (tag : Word) : Well :=
  let g := tagGen tag
  let w := w.position []
  if w.classOf g = .open_ then w.setGen g { w.gen g with absent := setBit (w.gen g).absent (tagCon tag) } else w

theorem absent_eq {s : State} {h tag : Word} {w : Well} (hw : s.wellOf s.core.ctx h = some w)
    (hr : NoReader s (hHome h) (hIdx h)) : s.absent h tag = wellSet s (hHome h) (hIdx h) (Well.absented w tag) := by
  have hset : s.absent h tag = (wellSet s (hHome h) (hIdx h) (Well.absented w tag)).recheck (hHome h) (hIdx h) :=
    congrArg (fun u : State => u.recheck (hHome h) (hIdx h)) (modWell_of (wellOf_some hw) fun w => Well.absented w tag)
  rw [hset]
  exact recheck_of_noReader hr

theorem absented_open {w : Well} {tag : Word} (h : w.classOf (tagGen tag) = .open_) :
    Well.absented w tag = { w.setGen (tagGen tag) { w.gen (tagGen tag) with
      absent := setBit (w.gen (tagGen tag)).absent (tagCon tag) } with q := w.q + 1 } := by
  rw [Well.absented, position_nil]
  exact if_pos h

theorem absented_of_not_open {w : Well} {tag : Word} (h : w.classOf (tagGen tag) ≠ .open_) :
    Well.absented w tag = { w with q := w.q + 1 } := by
  rw [Well.absented, position_nil]
  exact if_neg h

/-- The well once it has advanced at a time. -/
def Well.advanced (w : Well) (now : Nat) : Well :=
  let c := (w.cur + 1) % 65536
  let w := w.position [.advance (c % 4)]
  ({ w with cur := c, adv := Nat.min (2 ^ 32 - 1) (w.adv + 1), lastAdv := some now } : Well).setGen c {}

theorem advanceWell_eq {s : State} {h : Word} {w : Well} (hw : s.wellOf s.core.ctx h = some w)
    (hr : NoReader s (hHome h) (hIdx h)) :
    s.advanceWell h = wellSet s (hHome h) (hIdx h) (Well.advanced w s.tick) := by
  have hset : s.advanceWell h = (wellSet s (hHome h) (hIdx h) (Well.advanced w s.tick)).recheck (hHome h) (hIdx h) :=
    congrArg (fun u : State => u.recheck (hHome h) (hIdx h)) (modWell_of (wellOf_some hw) fun w => Well.advanced w s.tick)
  rw [hset]
  exact recheck_of_noReader hr

/-! ### Release (R272) -/

/-- R272: a well for which no term is on its way and that no read waits for is only marked as released. -/
theorem clearWell_idle {s : State} {home idx : Nat} (ht : s.terms = []) (hr : s.reads = []) :
    s.clearWell home idx = s := by
  have hsame : ({ s with terms := [], reads := [] } : State) = s := by rw [← ht, ← hr]
  simp only [State.clearWell, ht, hr, List.filter_nil, List.map_nil, List.foldl_nil]
  exact hsame

theorem freeWell_idle {s : State} {home idx n : Nat} {w : Well} (hw : (s.wellSlot home idx).well = some w)
    (ht : s.terms = []) (hr : s.reads = []) :
    s.freeWell home idx n = wellSet s home idx { w.position [.free] with freed := some n } := by
  rw [State.freeWell, modWell_of hw]
  exact clearWell_idle ht hr

/-! ### The instructions -/

theorem exec_rabsent_bad {s : State} {a b : XSrc} {w : Well} (hu : Usable s (a.regs ++ b.regs) (a.cells ++ b.cells))
    (hw : s.wellOf s.core.ctx (s.src a) = some w) (h : w.badAbsent (s.src b) = true) :
    exec (.rabsent a b) s = .next (s.takeTrap .rao (s.src b)) :=
  hu.guard.trans ((onWell_some hw).trans (if_pos h))

theorem exec_rabsent {s : State} {a b : XSrc} {w : Well} (hu : Usable s (a.regs ++ b.regs) (a.cells ++ b.cells))
    (hw : s.wellOf s.core.ctx (s.src a) = some w) (h : w.badAbsent (s.src b) = false)
    (hr : NoReader s (hHome (s.src a)) (hIdx (s.src a))) : exec (.rabsent a b) s
      = .next (went (wellSet s (hHome (s.src a)) (hIdx (s.src a)) (Well.absented w (s.src b))) s.core.npc) := by
  refine hu.guard.trans ((onWell_some hw).trans ((if_neg (Bool.eq_false_iff.1 h)).trans ?_))
  rw [absent_eq hw hr]
  rfl

theorem exec_radv {s : State} {d : XReg} {a : XSrc} {w : Well} (hu : Usable s (d.val :: a.regs) a.cells)
    (hw : s.wellOf s.core.ctx (s.src a) = some w) (hpast : ∀ t, w.lastAdv = some t → t + 2 ≤ s.tick)
    (hr : NoReader s (hHome (s.src a)) (hIdx (s.src a))) : exec (.radv d a) s
      = .next (marked (wellSet s (hHome (s.src a)) (hIdx (s.src a)) (Well.advanced w s.tick)) d
          (BitVec.ofNat 64 ((w.cur + 1) % 65536))) := by
  have hgo : (w.lastAdv.map fun t => decide (s.tick < t + 2)).getD false = false := by
    cases hl : w.lastAdv with
    | none => rfl
    | some t => simpa using hpast t hl
  refine hu.guard.trans ((onWell_some hw).trans ((if_neg (Bool.eq_false_iff.1 hgo)).trans ?_))
  rw [advanceWell_eq hw hr, retireMark_setX]

theorem exec_rfree {s : State} {a : XSrc} {w : Well} (hu : Usable s a.regs a.cells) (hp : s.core.progress = .none)
    (hw : s.wellOf s.core.ctx (s.src a) = some w) (ht : s.terms = []) (hr : s.reads = []) :
    exec (.rfree a) s = .next { wellSet s (hHome (s.src a)) (hIdx (s.src a))
        { w.position [.free] with freed := some s.core.num } with
      core := { s.core with progress := .asked 0 none, stalled := true } } := by
  change execRfree a s = _
  rw [execRfree, hp]
  refine hu.guard.trans ((onWell_some hw).trans ?_)
  dsimp only
  rw [freeWell_idle (wellOf_some hw) ht hr]
  rfl

/-- R132: RSTAT returns a value of the well. -/
theorem rstat_of {s : State} {d : XReg} {a : XSrc} {t : List XSrc} {w : Well} {f : Well → Nat}
    (hu : Usable s (d.val :: (a.regs ++ (t.map XSrc.regs).flatten)) (a.cells ++ (t.map XSrc.cells).flatten))
    (hw : s.wellOf s.core.ctx (s.src a) = some w) :
    s.rstat d a t f = .next (wrote s d (BitVec.ofNat 64 (f w)) s.core.npc) :=
  hu.guard.trans ((onWell_some hw).trans (congrArg Host.Outcome.next (retire_setX ..)))

theorem exec_rstatClear {s : State} {d : XReg} {a : XSrc} {w : Well} (hu : Usable s (d.val :: a.regs) a.cells)
    (hw : s.wellOf s.core.ctx (s.src a) = some w) : exec (.rstatClear d a) s
      = .next (wrote (wellSet s (hHome (s.src a)) (hIdx (s.src a)) { w with nLate := 0, nEarly := 0, nFull := 0, ldm := 0 })
          d (BitVec.ofNat 64 w.counts) s.core.npc) := by
  refine hu.guard.trans ((onWell_some hw).trans ?_)
  dsimp only
  rw [modWell_of (wellOf_some hw), retire_setX]
  rfl

/-- Settles O48: each member's well is the one its handle names, and what becomes of it is one `wellSet`. -/
theorem wellControl : Obligations.WellControl := by
  refine ⟨fun s a hp => ?_, fun s d a b w hp => ?_⟩
  · change execRfree a s = _
    rw [execRfree, hp]
    rfl
  intro h tag g set hw
  refine ⟨fun hu => ?_, fun hu => ?_, fun hu => ?_, fun home idx => ?_⟩
  · intro bad
    refine ⟨fun hb => exec_rabsent_bad hu hw (badAbsent_iff.2 hb), fun hb hr => ?_⟩
    have hgood : w.badAbsent tag = false := Bool.eq_false_iff.2 fun h => hb (badAbsent_iff.1 h)
    have hdone := exec_rabsent hu hw hgood hr
    exact ⟨fun ho => hdone.trans (by rw [absented_open ho]),
      fun ho => hdone.trans (by rw [absented_of_not_open (by rw [ho]; decide)])⟩
  · intro c
    exact ⟨fun hpast hr => exec_radv hu hw hpast hr, fun ht hr =>
      exec_rfree (hu.mono (List.subset_cons_self ..) (List.Subset.refl _)) hp hw ht hr⟩
  · intro reads x counts ifOpen
    have hone : Usable s (d.val :: a.regs) a.cells :=
      hu.mono (List.cons_subset_cons _ (List.subset_append_left ..)) (List.subset_append_left ..)
    have hstat (f : Well → Nat) : s.rstat d a [] f = .next (wrote s d (BitVec.ofNat 64 (f w)) s.core.npc) :=
      rstat_of (by simpa using hone) hw
    have hstat2 (f : Well → Nat) : s.rstat d a [b] f = .next (wrote s d (BitVec.ofNat 64 (f w)) s.core.npc) :=
      rstat_of (by simpa using hu) hw
    exact ⟨hstat _, hstat2 _, hstat2 _, hstat _, hstat _, hstat2 _, exec_rstatClear hone hw⟩
  · obtain ⟨hhome, hidx⟩ := wellSlot_named s home idx
    refine ⟨_, rfl, ?_, rfl⟩
    have hput := wellSlot_put s { s.wellSlot home idx with resting := false }
    simpa only [hhome, hidx] using hput

end Sys2Proof.Claims
end

section
/-! SUPPORT. What a trap keeps of its core (R186). -/

open Sys2Proof Sys2Proof.Machine

namespace Sys2Proof.Claims

variable {T : Nat → Prop}

theorem onward_violate (s : State) (v cause : Nat) (addr : Word) : Onward T s (s.violate v cause addr) := by
  rw [State.violate]
  exact (onward_freezeAt s s.core.num).trans (onward_postError (s.freezeAt s.core.num) _)

theorem keepsCore_halted : KeepsCore fun c => { c with halted := true } :=
  ⟨fun _ => rfl, fun _ => rfl, fun _ => id, fun _ => id⟩

theorem onward_debugHalt (s : State) (kind cause : Nat) (addr : Word) : Onward T s (s.debugHalt kind cause addr) := by
  rw [State.debugHalt]
  exact ((onward_freezeAt s s.core.num).trans (onward_modCore _ s.core.num keepsCore_halted)).trans (onward_postError _ _)

theorem onward_deliver (s : State) (c : Cause) (tval epc : Word) : Onward T s (s.deliver c tval epc) :=
  onward_core rfl rfl rfl rfl

/-- R186: a trap, however it is taken, takes nothing back. -/
theorem onward_takeTrapAt (s : State) (c : Cause) (tval epc : Word) : Onward T s (s.takeTrapAt c tval epc) := by
  rw [State.takeTrapAt]
  split
  · exact onward_debugHalt ..
  · split
    · split
      · exact onward_debugHalt ..
      · split
        · exact Onward.trans (u := { s with core := s.core.saveTrap c tval epc }) (onward_core rfl rfl rfl rfl)
            (onward_debugHalt ..)
        · exact (onward_deliver s c tval epc).trans (onward_debugHalt ..)
    · split
      · exact onward_violate ..
      · split
        · exact onward_violate ..
        · exact onward_deliver ..

/-- R186: a trap leaves the number of its core. -/
theorem takeTrap_num (s : State) (c : Cause) (tval : Word) : (s.takeTrap c tval).core.num = s.core.num :=
  (onward_takeTrapAt (T := fun _ => True) s c tval s.core.pc).num

/-- R50: without SS nothing follows an instruction. -/
theorem afterInstr_of_ss {s : State} (h : s.core.ss = false) : s.afterInstr = s := by
  refine if_neg ?_
  simp [h]

end Sys2Proof.Claims
end
section
/-! SUPPORT. Reads of a well (R130, R266-R269). -/

open Sys2Proof Sys2Proof.Machine

namespace Sys2Proof.Claims

/-! ### The checks of an access do not look at the reads -/

theorem vaultEnd_reads (s : State) (rs : List WellRead) : ∀ fuel v o n i : Nat,
    ({ s with reads := rs } : State).vaultEnd fuel v o n i = s.vaultEnd fuel v o n i
  | 0, _, _, _, _ => rfl
  | fuel + 1, v, o, n, i => by
    have harea (v : Nat) : ({ s with reads := rs } : State).wellArea v = s.wellArea v := rfl
    have hlayer (l : Nat) : ({ s with reads := rs } : State).layer l = s.layer l := rfl
    simp only [State.vaultEnd, harea, hlayer, vaultEnd_reads s rs fuel]
theorem spaceEnd_reads (s : State) (rs : List WellRead) (sp : Space) (n : Nat) :
   ({ s with reads := rs } : State).spaceEnd sp n = s.spaceEnd sp n := by
  simp only [State.spaceEnd, vaultEnd_reads]
theorem poisonedAt_reads (s : State) (rs : List WellRead) (l : Nat) (h : Home) :
    ({ s with reads := rs } : State).poisonedAt l h = s.poisonedAt l h := by
  have hopen (n : Nat) : ({ s with reads := rs } : State).windowOpen n = s.windowOpen n := rfl
  simp only [State.poisonedAt, hopen]
theorem poisonHit_reads (s : State) (rs : List WellRead) (sb : List SbEntry) (h : Home) (n : Nat) :
    ({ s with reads := rs } : State).poisonHit sb h n = s.poisonHit sb h n := by
  simp only [State.poisonHit, poisonedAt_reads]

theorem translate_reads (s : State) (rs : List WellRead) (u i : Nat) (k : Kind) (a : Word) (va n : Nat) :
      ({ s with reads := rs } : State).translate u i k a va n = s.translate u i k a va n := rfl
theorem check_reads (s : State) (rs : List WellRead) (acc : Access) (a : Word) (n : Nat) :
    ({ s with reads := rs } : State).check acc a n = s.check acc a n := by
  have hspace (v : Nat) : ({ s with reads := rs } : State).spaceOf v = s.spaceOf v := rfl
  have hown : ({ s with reads := rs } : State).ownStores = s.ownStores := rfl
  have hasid (c : Nat) : ({ s with reads := rs } : State).ctxAsid c = s.ctxAsid c := rfl
  simp only [State.check, hspace, spaceEnd_reads, translate_reads, hasid, hown, poisonHit_reads]

/-! ### The parts of a store (R268) -/

theorem plus_zero (h : Home) : h.plus 0 = h := by cases h <;> rfl

theorem cutRun_zero (h : Home) (off : Nat) : ∀ fuel, cutRun fuel off (h, 0) = []
  | 0 => rfl
  | _ + 1 => if_pos rfl

/-- A run that begins at a part's boundary, in its parts. -/
theorem cutRun_aligned : ∀ (fuel off n : Nat) (h : Home), off % 16 = 0 → n < fuel →
    cutRun fuel off (h, n) = (List.range ((n + 15) / 16)).map fun i => (h.plus (16 * i), min 16 (n - 16 * i))
  | 0, _, _, _, _, hn => absurd hn (Nat.not_lt_zero _)
  | fuel + 1, off, 0, h, _, _ => cutRun_zero h off (fuel + 1)
  | fuel + 1, off, n + 1, h, hoff, hn => by
    have hstep : cutRun (fuel + 1) off (h, n + 1) = (h, min (n + 1) 16)
        :: cutRun fuel (off + min (n + 1) 16) (h.plus (min (n + 1) 16), n + 1 - min (n + 1) 16) := by
      rw [cutRun, if_neg (Nat.succ_ne_zero n), hoff]
    rw [hstep]
    by_cases hlast : n + 1 ≤ 16
    · have hcount : (n + 1 + 15) / 16 = 1 := by omega
      rw [Nat.min_eq_left hlast, Nat.sub_self, cutRun_zero, hcount]
      simp [plus_zero, Nat.min_eq_right hlast]
    · have hcount : (n + 1 + 15) / 16 = (n + 1 - 16 + 15) / 16 + 1 := by omega
      have hpart (i : Nat) : (16 + 16 * i) = 16 * (i + 1) := by omega
      rw [Nat.min_eq_right (by omega), cutRun_aligned fuel _ _ _ (by omega) (by omega), hcount,
        List.range_succ_eq_map, List.map_cons, List.map_map]
      congr 1
      · simp [plus_zero]
        omega
      · refine List.map_congr_left fun i _ => ?_
        simp only [Function.comp_apply, plus_plus, hpart, Nat.succ_eq_add_one]
        congr 1
        omega

/-- R268: a store's 16-byte parts, in ascending order. -/
theorem cutRuns_one (h : Home) (n : Nat) :
    cutRuns 0 [(h, n)] = (List.range ((n + 15) / 16)).map fun i => (h.plus (16 * i), min 16 (n - 16 * i)) := by
  rw [cutRuns, cutRuns, List.append_nil]
  exact cutRun_aligned (n + 1) 0 n h rfl (Nat.lt_succ_self n)

/-! ### The question (R130, R266 steps 1 and 2) -/

/-- The number that `n` bytes of a control block make. -/
def fieldOf (bs : List Byte) (o n : Nat) : Nat := ofBytes ((bs.drop o).take n)

/-- The state once a read is on its way to the home. -/
def readAsked (s : State) (delta : Bool) (d : XReg) (h a : Word) (f : Bool) (w : Well) (bs : List Byte) : State :=
  { s with
    core := { s.core with progress := .asked 0 none, stalled := true }
    reads := s.reads ++ [{
      core := s.core.num, ctx := s.core.ctx, home := hHome h, idx := hIdx h, inc := hInc h, delta := delta, bf16 := f
      rd := d, handle := h, dst := BitVec.ofNat 64 (fieldOf bs 0 8), desc := a, req := fieldOf bs 8 4
      gen := fieldOf bs 12 2, dl := fieldOf bs 16 4, base := fieldOf bs 20 4
      expired := !delta && fieldOf bs 16 4 == 0, d := w.d, e := w.e }] }

section
variable {s : State} {delta f : Bool} {d : XReg} {h a : Word} {w : Well} {off : Nat}

theorem askRead_misaligned (hw : s.wellOf s.core.ctx h = some w) (hloc : s.spaceOf a.toNat = .loc off)
    (ha : a.toNat % 32 ≠ 0) : s.askRead delta d h a f = .next (s.takeTrap .addr a) := by
  simp only [State.askRead, hw, hloc, ha, ne_eq, not_false_eq_true, if_true]
  rfl

variable {segs g1 g2 : List (Home × Nat)}

/-- R130: RDELTA rejects a REQ. -/
theorem askRead_req (hw : s.wellOf s.core.ctx h = some w) (hloc : s.spaceOf a.toNat = .loc off)
    (ha : a.toNat % 32 = 0) (hsegs : s.check {} a 32 = .ok segs) (hrest : fieldOf (s.loadSegs segs) 14 2 = 0)
    (hreq : fieldOf (s.loadSegs segs) 8 4 ≠ 0) :
    s.askRead true d h a f = .next (s.takeTrap .rao (BitVec.ofNat 64 (fieldOf (s.loadSegs segs) 8 4))) := by
  unfold fieldOf at *
  simp only [State.askRead, hw, hloc, ha, ne_eq, not_true_eq_false, if_false, access_ok hsegs, hrest, Bool.true_and,
    bne_iff_ne, hreq, not_false_eq_true, if_true]
  rfl

/-- R266: the checks passed, the question sets out. -/
theorem askRead_ok (hw : s.wellOf s.core.ctx h = some w) (hloc : s.spaceOf a.toNat = .loc off)
    (ha : a.toNat % 32 = 0) (hsegs : s.check {} a 32 = .ok segs) (hrest : fieldOf (s.loadSegs segs) 14 2 = 0)
    (hreq : delta = true → fieldOf (s.loadSegs segs) 8 4 = 0)
    (hdst : s.check { kind := .store, allow := .mem012, align := if f then 2 else 4 }
      (BitVec.ofNat 64 (fieldOf (s.loadSegs segs) 0 8)) (64 * w.d * if f then 2 else 4) = .ok g1)
    (hres : s.check { kind := .store, align := 8 } (a + 24) 8 = .ok g2) :
    s.askRead delta d h a f = .next (readAsked s delta d h a f w (s.loadSegs segs)) := by
  have hno : (delta && ofBytes (((s.loadSegs segs).drop 8).take 4) != 0) = false := by
    cases delta
    · rfl
    · simpa [fieldOf] using hreq rfl
  unfold fieldOf at *
  simp only [State.askRead, hw, hloc, ha, ne_eq, not_true_eq_false, if_false, access_ok hsegs, hrest, hno,
    Bool.false_eq_true, access_ok hdst, access_ok hres]
  rfl

end

/-- RREAD and RDELTA ask nothing yet: their registers are checked. -/
theorem readWell_of {s : State} {delta f : Bool} {d : XReg} {a b : XSrc}
    (hu : Usable s (d.val :: (a.regs ++ b.regs)) (a.cells ++ b.cells)) (hp : s.core.progress = .none) :
    s.readWell delta d a b f = s.askRead delta d (s.src a) (s.src b) f := by
  rw [State.readWell, hp]
  exact hu.guard

/-! ### At the home (R266) -/

theorem readOf_head {s : State} {r : WellRead} {rest : List WellRead} (h : s.reads = r :: rest) :
    s.readOf r.core = some r := by
  rw [State.readOf, h]
  exact List.find?_cons_of_pos (beq_self_eq_true _)

theorem putRead_head {s : State} {r q : WellRead} {rest : List WellRead} (h : s.reads = r :: rest)
    (hq : q.core = r.core) (hrest : ∀ x ∈ rest, x.core ≠ r.core) : s.putRead q = { s with reads := q :: rest } := by
  have hmap : (rest.map fun x => if x.core = q.core then q else x) = rest :=
    (List.map_congr_left (g := id) fun x hx => if_neg (hq ▸ hrest x hx)).trans (List.map_id rest)
  rw [State.putRead, h, List.map_cons, hmap, if_pos hq.symm]

/-- R266: a read that can takes its position. -/
theorem tryRead_ready {s : State} {x q : WellRead} {w : Well} (hslot : (s.wellSlot q.home q.idx).well = some w)
    (hreads : s.reads = [x]) (hx : q.core = x.core) (hposts : s.postsOut q = false)
    (hready : (q.met (w.gen q.gen) || q.expired) = true) : s.tryRead q = { wellSet s q.home q.idx (w.place q).1 with
      reads := [{ q with phase := (w.place q).2, at_ := w.seqBase + w.seq.length }] } := by
  have hput := putRead_head (s := wellSet s q.home q.idx (w.place q).1) (r := x) (rest := [])
    (q := { q with phase := (w.place q).2, at_ := w.seqBase + w.seq.length }) hreads hx (by simp)
  simp only [State.tryRead, hslot, hposts, Bool.not_false, hready, Bool.and_self, if_true, modWell_of hslot]
  exact hput

/-- R266: a read that cannot waits on. -/
theorem tryRead_waits {s : State} {q : WellRead} {w : Well} (hslot : (s.wellSlot q.home q.idx).well = some w)
    (h : s.postsOut q = true ∨ (q.met (w.gen q.gen) || q.expired) = false) : s.tryRead q = s := by
  simp only [State.tryRead, hslot]
  refine if_neg ?_
  obtain h | h := h <;> simp [h]

section
variable {w : Well} {r : WellRead}

/-- R130, R269: a read that is no delta takes its position in the sequence, and records its sum in the older
checkpoint where it is a new ticket's. -/
theorem place_read (s : State) (hd : r.delta = false) : ({ wellSet s r.home r.idx (w.place r).1 with
      reads := [{ r with phase := (w.place r).2, at_ := w.seqBase + w.seq.length }] } : State)
    = readPlaced s r w (!r.met (w.gen r.gen)) := by
  by_cases hold : (w.gen r.gen).tc = 0 ∨ (w.gen r.gen).tc = (w.gen r.gen).cp0 ∨ (w.gen r.gen).tc = (w.gen r.gen).cp1
  · simp only [Well.place, hd, Bool.false_eq_true, if_false, readPlaced, hold, if_true, Bool.or_eq_true,
      decide_eq_true_eq, or_assoc, Well.position]
  · simp only [Well.place, hd, Bool.false_eq_true, if_false, readPlaced, hold, Bool.or_eq_true,
      decide_eq_true_eq, or_assoc, Well.position]
    rfl

/-- R130: a delta from a checkpoint that is not held is refused. -/
theorem place_unheld (hd : r.delta = true) (h0 : r.base ≠ 0)
    (h : (w.gen r.gen).tc < r.base ∨ (r.base ≠ (w.gen r.gen).cp0 ∧ r.base ≠ (w.gen r.gen).cp1)) :
    w.place r = (w, .refused (BitVec.ofNat 64 r.base)) := by
  by_cases htc : (w.gen r.gen).tc < r.base
  · simp only [Well.place, hd, if_true, h0, if_false, htc]
  · obtain ⟨h1, h2⟩ := h.resolve_left htc
    simp only [Well.place, hd, if_true, h0, if_false, htc, h1, h2]

/-- The checkpoint that a delta's BASE names: none for the sum itself. -/
def BaseIs (r : WellRead) (x : GenSlot) (cp : Option Bool) : Prop :=
  (r.base = 0 ∧ cp = none) ∨ (r.base ≠ 0 ∧ r.base ≤ x.tc ∧ r.base = x.cp0 ∧ cp = some false)
    ∨ (r.base ≠ 0 ∧ r.base ≤ x.tc ∧ r.base ≠ x.cp0 ∧ r.base = x.cp1 ∧ cp = some true)

theorem place_delta {cp : Option Bool} (hd : r.delta = true) (h : BaseIs r (w.gen r.gen) cp) :
    let l := logSum ((w.gen r.gen).log.drop r.base)
    w.place r = ({ w with q := w.q + 1, seq := w.seq ++ [.read r.core (r.gen % 4) cp none] },
      .placed (w.gen r.gen).tc l.1 l.2.1 l.2.2 false) := by
  obtain ⟨h0, rfl⟩ | ⟨h0, hle, h1, rfl⟩ | ⟨h0, hle, h1, h2, rfl⟩ := h
  · simp only [Well.place, hd, if_true, h0, Well.position]
  · simp only [Well.place, hd, if_true, h0, if_false, Nat.not_lt.2 hle, ← h1, Well.position]
  · simp only [Well.place, hd, if_true, h0, if_false, Nat.not_lt.2 hle, h1, ← h2, Well.position]

end

/-! #### The arrival of a question -/

section
variable {s : State} {r : WellRead} {w : Well}

theorem readArrives_none (h : (s.wellAt r.home r.idx r.inc).filter (·.ctx == r.ctx) = none) :
    s.readArrives r = s.putRead { r with phase := .refused r.handle } := by
  rw [State.readArrives, h]

variable (h : (s.wellAt r.home r.idx r.inc).filter (·.ctx == r.ctx) = some w)
include h

theorem wellSlot_of_arrival : (s.wellSlot r.home r.idx).well = some w := wellAt_some (Option.filter_eq_some_iff.1 h).1

theorem readArrives_req (hd : r.delta = false) (hreq : r.req / 2 ^ w.n ≠ 0) :
    s.readArrives r = s.putRead { r with phase := .refused (BitVec.ofNat 64 r.req) } := by
  simp only [State.readArrives, h, hd, hreq, Bool.not_false, ne_eq, not_false_eq_true, decide_true, Bool.and_self, if_true]

variable (hreq : (!r.delta && decide (r.req / 2 ^ w.n ≠ 0)) = false)
include hreq

theorem readArrives_ahead (hc : w.classOf r.gen = .ahead) :
    s.readArrives r = s.putRead { r with phase := .refused (BitVec.ofNat 64 r.gen) } := by
  simp only [State.readArrives, h, hreq, Bool.false_eq_true, if_false, hc, if_true]

theorem readArrives_retired (hc : w.classOf r.gen = .retired) : s.readArrives r
    = (wellSet s r.home r.idx { w with q := w.q + 1 }).putRead { r with phase := .retired } := by
  simp only [State.readArrives, h, hreq, Bool.false_eq_true, if_false, hc, reduceCtorEq, if_true,
    modWell_of (wellSlot_of_arrival h), position_nil]

variable {rest : List WellRead} (hreads : s.reads = r :: rest) (hrest : ∀ x ∈ rest, x.core ≠ r.core)
  (hc : w.classOf r.gen = .open_)
include hreads hrest hc

/-- What an open generation's read finds: it waits, and takes its position where it can. -/
theorem readArrives_open {u : State} (hu : ({ s with reads := { r with phase := .waiting } :: rest } : State).tryRead
      { r with phase := .waiting } = u) :
    s.readArrives r = if (u.reads.find? (·.core == r.core)).map (·.phase) = some .waiting
      && decide (16 < (u.reads.filter fun x => x.home == r.home && x.idx == r.idx && x.phase == .waiting).length)
      then s.putRead { r with phase := .returned } else u := by
  have hput := putRead_head (q := { r with phase := .waiting }) hreads rfl hrest
  simp only [State.readArrives, h, hreq, Bool.false_eq_true, if_false, hc, reduceCtorEq, hput, hu]

/-- R266: a read whose condition does not hold waits, or is returned where 16 wait already. -/
theorem readArrives_unmet (hm : r.met (w.gen r.gen) = false) (he : r.expired = false) : s.readArrives r
    = if 16 ≤ (rest.filter fun y => y.home == r.home && y.idx == r.idx && y.phase == .waiting).length
      then { s with reads := { r with phase := .returned } :: rest }
      else { s with reads := { r with phase := .waiting } :: rest } := by
  have hready : (WellRead.met { r with phase := .waiting } (w.gen r.gen) || r.expired) = false := by
    rw [he, Bool.or_false]
    exact hm
  rw [readArrives_open h hreq hreads hrest hc (tryRead_waits (wellSlot_of_arrival h) (.inr hready)),
    putRead_head (q := { r with phase := .returned }) hreads rfl hrest]
  simp only [List.find?_cons, beq_self_eq_true, Option.map_some, decide_true, Bool.true_and, decide_eq_true_eq,
    List.filter_cons, Bool.and_self, if_true, List.length_cons, Nat.lt_succ_iff]

end

/-- R266: the one read of a well, its condition met or its deadline past, takes its position as it arrives. -/
theorem readArrives_ready {s : State} {r : WellRead} {w : Well}
    (h : (s.wellAt r.home r.idx r.inc).filter (·.ctx == r.ctx) = some w)
    (hreq : (!r.delta && decide (r.req / 2 ^ w.n ≠ 0)) = false) (hreads : s.reads = [r]) (hc : w.classOf r.gen = .open_)
    (hposts : s.postsOut r = false) (hready : (r.met (w.gen r.gen) || r.expired) = true)
    (hplace : (w.place r).2 ≠ .waiting) : s.readArrives r = { wellSet s r.home r.idx (w.place r).1 with
      reads := [{ r with phase := (w.place r).2, at_ := w.seqBase + w.seq.length }] } := by
  have htry := tryRead_ready (s := { s with reads := [{ r with phase := .waiting }] }) (x := { r with phase := .waiting })
    (q := { r with phase := .waiting }) (wellSlot_of_arrival h) rfl rfl hposts hready
  rw [readArrives_open h hreq hreads (by simp) hc htry]
  refine if_neg ?_
  simp only [List.find?_cons, beq_self_eq_true, Option.map_some, Bool.and_eq_true, decide_eq_true_eq, Option.some.injEq,
    not_and]
  exact fun hw => absurd hw hplace

/-- R266: a read that takes its position waits no more. -/
theorem place_answers (w : Well) (r : WellRead) : (w.place r).2 ≠ .waiting := by
  unfold Well.place
  split
  · dsimp only
    split <;> exact ReadPhase.noConfusion
  · dsimp only
    split <;> exact ReadPhase.noConfusion

/-- A question of the current core, sent or returned, arrives over a clear way. -/
def Arrives (s : State) (r : WellRead) (t : State) : Prop :=
  (r.phase = .sent → exec (.wellReadRequest s.core.num) s = .next t)
    ∧ (r.phase = .returned → exec (.wellReadRetry s.core.num) s = .next t)

theorem arrives_of {s t : State} {r : WellRead} (hof : s.readOf s.core.num = some r) (hn : r.core = s.core.num)
    (hroute : s.routeHeld (s.askRoute s.core.num r.home) = false) (h : s.readArrives r = t) : Arrives s r t := by
  have hgo (p : ReadPhase) (hp : r.phase = p) : (if r.phase = p
      then s.onRoute (s.askRoute r.core r.home) (.next (s.readArrives r)) else .next s) = Host.Outcome.next t := by
    rw [if_pos hp, hn, onRoute_clear hroute, h]
  refine ⟨fun hp => ?_, fun hp => ?_⟩
  · change execWellReadRequest s.core.num s = _
    rw [execWellReadRequest, hof]
    exact hgo _ hp
  · change execWellReadRetry s.core.num s = _
    rw [execWellReadRetry, hof]
    exact hgo _ hp

/-! ### The deadline and the result (R266-R268) -/

/-- R266: at the deadline a waiting read is tried once more, whatever its condition. -/
theorem exec_wellReadDeadline {s : State} {r : WellRead} (hreads : s.reads = [r]) (hn : r.core = s.core.num)
    (hp : r.phase = .waiting) (hdl : r.dl ≠ 0xFFFF_FFFF) (hd : r.delta = false) : exec (.wellReadDeadline s.core.num) s
      = .next (({ s with reads := [{ r with expired := true }] } : State).tryRead { r with expired := true }) := by
  have hput := putRead_head (q := { r with expired := true }) hreads rfl (by simp)
  have hof : s.readOf s.core.num = some r := hn ▸ readOf_head hreads
  change execWellReadDeadline s.core.num s = _
  rw [execWellReadDeadline, hof]
  refine (if_neg (by simp [hdl, hd])).trans ?_
  dsimp only
  rw [hput]
  simp only [hp]

theorem exec_wellReadDeadline_none {s : State} {r : WellRead} (hof : s.readOf s.core.num = some r)
    (h : r.dl = 0xFFFF_FFFF ∨ r.delta = true) : exec (.wellReadDeadline s.core.num) s = .next s := by
  change execWellReadDeadline s.core.num s = _
  rw [execWellReadDeadline, hof]
  exact if_pos (by simpa using h)

/-- R268: the read that the current core waits for comes to its end. -/
theorem exec_wellReadResult {s u : State} {r : WellRead} (hof : s.readOf s.core.num = some r)
    (hroute : s.routeHeld (s.backRoute r.home s.core.num) = false) (hf : s.finishRead r = u)
    (hnum : u.core.num = s.core.num) : exec (.wellReadResult s.core.num) s = .next u := by
  have hown := onCore_own s (fun s => s.finishRead r) (by rw [hf]; exact hnum)
  change execWellReadResult s.core.num s = _
  simp only [execWellReadResult, hof]
  rw [onRoute_clear hroute, hown, hf]

/-- R268: STATUS is written, and X[rd] last. -/
theorem endRead_ok {s : State} {r : WellRead} {status : Nat} {v : Word} {segs : List (Home × Nat)}
    (hss : s.core.ss = false) (h : s.check { kind := .store, align := 8 } (r.desc + 24) 8 = .ok segs) :
    s.endRead r status v = wrote (s.push (r.desc + 24) segs (bytesOf 8 status)) r.rd v s.core.npc := by
  simp only [State.endRead, h]
  rw [retire_setX]
  exact afterInstr_of_ss hss

/-- R268: the elements of a read that is whole are written in their parts. -/
theorem writeRead_whole {s : State} {r : WellRead} {els : List Int} {e : Int} {t mask : Nat} {psat pinv dl : Bool}
    {segs : List (Home × Nat)} : s.writeRead r (els.map some) e t mask psat pinv dl segs
      = (s.push r.dst (cutRuns 0 segs)
          (((els.map (readElement r.bf16 e)).map fun y => bytesOf (if r.bf16 then 2 else 4) y.1).flatten)).endRead r
        (((els.map (readElement r.bf16 e)).foldl (fun m y => Nat.lor m y.2) 0) + 16 * psat.toNat + 32 * pinv.toNat
          + 64 * dl.toNat) (BitVec.ofNat 64 (t * 2 ^ 32 + mask)) := by
  have hwhole : (els.map some).findIdx? (·.isNone) = none := by simp
  simp only [State.writeRead, hwhole, List.map_map, List.length_map, readStatus]
  rw [List.take_of_length_le (by simp), List.map_map]
  rfl

theorem finishRead_placed {s : State} {r : WellRead} {t mask : Nat} {psat pinv dl : Bool} {els : List Int}
    {g : List (Home × Nat)} (hreads : s.reads = [r]) (hp : r.phase = .placed t mask psat pinv dl)
    (hels : r.elements r.d = some (els.map some))
    (hdst : s.check { kind := .store, allow := .mem012 } r.dst (els.length * if r.bf16 then 2 else 4) = .ok g) :
    s.finishRead r = ({ s with reads := [] } : State).writeRead r (els.map some) r.e t mask psat pinv dl g := by
  rw [← List.length_map (f := some) (as := els)] at hdst
  simp only [State.finishRead, hp, hels, hdst, hreads]
  simp

theorem finishRead_retired {s : State} {r : WellRead} (hreads : s.reads = [r]) (hp : r.phase = .retired) :
    s.finishRead r = ({ s with reads := [] } : State).endRead r 128 0 := by
  simp only [State.finishRead, hp, hreads]
  simp

theorem finishRead_refused {s : State} {r : WellRead} {v : Word} (hreads : s.reads = [r]) (hp : r.phase = .refused v) :
    s.finishRead r = ({ s with reads := [] } : State).takeTrap .rao v := by
  simp only [State.finishRead, hp, hreads]
  simp

/-- Settles O47: the question, its arrival at the home by the class of its generation, its deadline, its result. -/
theorem wellReads : Obligations.WellReads := by
  refine ⟨cutRuns_one, fun s d a b f w => ?_⟩
  intro h at_ size n
  refine ⟨fun hu hp hw ⟨off, hloc⟩ => ⟨fun ha => ?_, ?_⟩, ?_, ?_⟩
  · exact ⟨(readWell_of hu hp).trans (askRead_misaligned hw hloc ha),
      (readWell_of hu hp).trans (askRead_misaligned hw hloc ha)⟩
  · intro segs g1 g2 ha hsegs bs fld hdst hres hrest asks
    refine ⟨(readWell_of hu hp).trans (askRead_ok hw hloc ha hsegs hrest (by simp) hdst hres), fun hreq => ?_,
      fun hreq => ?_⟩
    · exact (readWell_of hu hp).trans (askRead_ok hw hloc ha hsegs hrest (fun _ => hreq) hdst hres)
    · exact (readWell_of hu hp).trans (askRead_req hw hloc ha hsegs hrest hreq)
  · intro r rest hreads hn hroute now arrives hrest
    have hof : s.readOf n = some r := hn ▸ readOf_head hreads
    have hothers : ∀ x ∈ rest, x.core ≠ r.core := fun x hx => hn.symm ▸ hrest x hx
    have hnow (p : ReadPhase) : s.putRead { r with phase := p } = now p :=
      putRead_head (q := { r with phase := p }) hreads rfl hothers
    have arrive {t : State} (ht : s.readArrives r = t) : arrives t := arrives_of hof hn hroute ht
    refine ⟨fun hat => arrive ((readArrives_none ?_).trans (hnow _)), fun hat hctx => ?_⟩
    · obtain hat | ⟨y, hat, hy⟩ := hat
      · rw [hat]
        rfl
      · rw [hat, Option.filter_some]
        exact if_neg (by simpa using hy)
    intro x
    have hfind : (s.wellAt r.home r.idx r.inc).filter (·.ctx == r.ctx) = some w := by
      rw [hat, Option.filter_some]
      exact if_pos (by simpa using hctx)
    refine ⟨fun hd hreq => arrive ((readArrives_req hfind hd ?_).trans (hnow _)), fun hreq => ?_⟩
    · exact Nat.ne_of_gt (Nat.div_pos hreq (by positivity))
    have hok : (!r.delta && decide (r.req / 2 ^ w.n ≠ 0)) = false := by
      obtain hd | hlt := hreq
      · rw [hd]
        rfl
      · rw [Nat.div_eq_of_lt hlt]
        simp
    refine ⟨fun hc => arrive ((readArrives_ahead hfind hok hc).trans (hnow _)), fun hc => arrive ?_,
      fun hc hd hm he => ⟨fun hfull => arrive ?_, fun honly => arrive ?_⟩, fun hc hposts honly => ?_⟩
    · exact (readArrives_retired hfind hok hc).trans (putRead_head (s := wellSet s r.home r.idx _) hreads rfl hothers)
    · exact (readArrives_unmet hfind hok hreads hothers hc hm he).trans (if_pos hfull)
    · refine (readArrives_unmet hfind hok hreads hothers hc hm he).trans (if_neg ?_)
      simp [honly]
    · have hone : s.reads = [r] := honly ▸ hreads
      have hready (hr : (r.met (w.gen r.gen) || r.expired) = true) :=
        readArrives_ready hfind hok hone hc hposts hr (place_answers w r)
      refine ⟨fun hd hr => arrive ((hready (by simpa using hr)).trans (place_read s hd)), fun hd => ?_⟩
      have hmet : (r.met (w.gen r.gen) || r.expired) = true := by simp [WellRead.met, hd]
      intro at_
      refine ⟨fun h0 hbase => arrive ((hready hmet).trans ?_), fun cp hcp => arrive ((hready hmet).trans ?_)⟩
      · rw [place_unheld hd h0 hbase]
      · rw [place_delta hd hcp, hn]
  · intro r hreads hn
    have hof : s.readOf n = some r := hn ▸ readOf_head hreads
    refine ⟨fun hp hdl hd hslot => ⟨fun hposts => ?_, fun hposts => ?_⟩,
      fun h => exec_wellReadDeadline_none hof h, ?_⟩
    · refine (exec_wellReadDeadline hreads hn hp hdl hd).trans (congrArg Host.Outcome.next ?_)
      exact (tryRead_ready (s := { s with reads := [{ r with expired := true }] }) (q := { r with expired := true })
        hslot rfl rfl hposts (by simp)).trans (place_read s hd)
    · refine (exec_wellReadDeadline hreads hn hp hdl hd).trans (congrArg Host.Outcome.next ?_)
      exact tryRead_waits (s := { s with reads := [{ r with expired := true }] }) hslot (.inl hposts)
    · intro u hss hroute
      refine ⟨fun v hp => exec_wellReadResult hof hroute (finishRead_refused hreads hp) (takeTrap_num u _ _),
        fun segs hp hres => ?_, ?_⟩
      · have hend := endRead_ok (s := u) (status := 128) (v := 0) hss ((check_reads s [] _ _ _).trans hres)
        exact exec_wellReadResult hof hroute ((finishRead_retired hreads hp).trans hend) rfl
      · intro t mask psat pinv dl els g1 g2 hp hels size out v hdst hres
        refine exec_wellReadResult hof hroute ((finishRead_placed hreads hp hels hdst).trans
          (writeRead_whole.trans (endRead_ok (s := v) hss hres))) rfl

end Sys2Proof.Claims
end

section
/-! SUPPORT. The start of a task, aging, and the wakes (R119, R169, R196-R201). -/

open Sys2Proof Sys2Proof.Machine

namespace Sys2Proof.Claims

/-! ### The cores of a state -/

/-- A core that is put into the list leaves the others. -/
theorem find?_insertCore_of_ne {c : Core} {k : Nat} (h : c.num ≠ k) : ∀ l : List Core,
    (insertCore c l).find? (·.num == k) = l.find? (·.num == k)
  | [] => by simp [insertCore, h]
  | d :: t => by
    rw [insertCore]
    split_ifs with hlt heq
    · simp [h]
    · rw [List.find?_cons_of_neg (by simpa using h), List.find?_cons_of_neg (by simpa [← heq] using h)]
    · simp only [List.find?_cons, find?_insertCore_of_ne h t]

/-- A core that is put is the one found under its number. -/
theorem getCore_putCore (s : State) {c : Core} {n : Nat} (hn : c.num = n) : (s.putCore c).getCore n = c := by
  subst hn
  rw [State.putCore]
  split
  · exact getCore_own { s with core := c }
  case isFalse h =>
    simp only [State.getCore, h, if_false]
    rw [find?_insertCore]
    rfl

/-- A core that is put leaves the others. -/
theorem getCore_putCore_of_ne (s : State) {c : Core} {k : Nat} (hk : k ≠ c.num) :
    (s.putCore c).getCore k = s.getCore k := by
  rw [State.putCore]
  split
  case isTrue h =>
    have h1 : c.num ≠ k := hk.symm
    have h2 : s.core.num ≠ k := h ▸ hk.symm
    simp only [State.getCore, h1, h2, if_false]
  case isFalse h => simp only [State.getCore, find?_insertCore_of_ne hk.symm]

/-! ### The queue of a dispatcher (R170, R198, R199) -/

/-- R170: a refill changes only the queue and the spawn queue, and each new task enters at its own priority. -/
theorem refill_queue (s : State) (dom : Nat) : ∃ q sp, s.refill dom = { s with queue := q, spawns := sp }
    ∧ ∀ y ∈ q, y ∈ s.queue ∨ y ∈ s.spawns.map fun k => { k with level := k.pri } := by
  unfold State.refill
  split
  · exact ⟨s.queue, s.spawns, rfl, fun _ h => .inl h⟩
  split
  case h_1 t ht =>
    refine ⟨_, _, rfl, fun y hy => ?_⟩
    obtain h | h := List.mem_append.1 hy
    · exact .inl h
    · rw [List.mem_singleton.1 h]
      exact .inr (List.mem_map_of_mem (List.mem_of_find?_eq_some ht))
  case h_2 => exact ⟨s.queue, s.spawns, rfl, fun _ h => .inl h⟩

/-- A task that leaves its dispatcher is in the queue no more. -/
theorem dequeue_queue (s : State) (t : Task) : ∃ q sp, s.dequeue t = { s with queue := q, spawns := sp }
    ∧ ∀ y ∈ q, y.id ≠ t.id ∨ y ∈ s.spawns.map fun k => { k with level := k.pri } := by
  obtain ⟨q, sp, hu, hq⟩ := refill_queue { s with queue := s.queue.filter (·.id != t.id) } t.dom
  refine ⟨q, sp, hu, fun y hy => (hq y hy).imp_left fun h => ?_⟩
  simpa using (List.mem_filter.1 h).2

/-- R199: of two tasks, the one that a dispatcher prefers; the first where their levels are the same. -/
def preferred (b : Option Task) (t : Task) : Option Task :=
  match b with
  | none => some t
  | some u => if u.level < t.level then some t else some u

theorem nextTaskFor_eq (s : State) (n : Nat) : s.nextTaskFor n = (s.queue.filter (s.mayStart n)).foldl preferred none := rfl

/-- The task that is preferred to all others is one of them, of the highest level. -/
theorem foldl_preferred {t : Task} : ∀ {l : List Task} {b : Option Task}, l.foldl preferred b = some t →
    (t ∈ l ∨ b = some t) ∧ (∀ q ∈ l, q.level ≤ t.level) ∧ ∀ u, b = some u → u.level ≤ t.level
  | [], b, h => ⟨.inr h, by simp, fun u hu => by rw [Option.some.inj (hu.symm.trans h)]⟩
  | q :: l, b, h => by
    obtain ⟨hmem, hall, hb⟩ := foldl_preferred (l := l) (b := preferred b q) h
    cases b with
    | none =>
      have hq : q.level ≤ t.level := hb q rfl
      refine ⟨.inl ?_, List.forall_mem_cons.2 ⟨hq, hall⟩, by simp⟩
      exact List.mem_cons.2 (hmem.symm.imp_left fun h => (Option.some.inj h).symm)
    | some u =>
      by_cases hlt : u.level < q.level
      · have hpick : preferred (some u) q = some q := if_pos hlt
        rw [hpick] at hmem hb
        have hq : q.level ≤ t.level := hb q rfl
        refine ⟨.inl ?_, List.forall_mem_cons.2 ⟨hq, hall⟩, ?_⟩
        · exact List.mem_cons.2 (hmem.symm.imp_left fun h => (Option.some.inj h).symm)
        · rintro _ ⟨⟩
          omega
      · have hpick : preferred (some u) q = some u := if_neg hlt
        rw [hpick] at hmem hb
        have hu : u.level ≤ t.level := hb u rfl
        refine ⟨hmem.imp_left (List.mem_cons_of_mem q), List.forall_mem_cons.2 ⟨by omega, hall⟩, ?_⟩
        rintro _ ⟨⟩
        exact hu

/-- R199: the next task stands in the queue, may start, and has the highest level of those that may. -/
theorem nextTaskFor_some {s : State} {n : Nat} {t : Task} (h : s.nextTaskFor n = some t) :
    t ∈ s.queue ∧ s.mayStart n t = true ∧ ∀ q ∈ s.queue, s.mayStart n q = true → q.level ≤ t.level := by
  obtain ⟨hmem, hall, -⟩ := foldl_preferred (nextTaskFor_eq s n ▸ h)
  obtain ⟨hq, hmay⟩ := List.mem_filter.1 (hmem.resolve_right (by simp))
  exact ⟨hq, hmay, fun q hq hm => hall q (List.mem_filter.2 ⟨hq, hm⟩)⟩

/-- R199: a task that may start on a core is bound to it, or to none and of its domain. -/
theorem mayStart_bound {s : State} {n : Nat} {t : Task} (h : s.mayStart n t = true) :
    t.bound = some n ∨ t.bound = none ∧ t.dom = n / 16 := by
  simp only [State.mayStart, Bool.and_eq_true] at h
  obtain ⟨⟨⟨hb, -⟩, -⟩, -⟩ := h
  cases hbound : t.bound with
  | none =>
    rw [hbound] at hb
    exact .inr ⟨rfl, by simpa [routerOf] using hb⟩
  | some c =>
    rw [hbound] at hb
    exact .inl (by simpa using hb)

theorem firstServed_false {s : State} {m n : Nat} (hm : m < n) (hr : m / 16 = n / 16) (h : s.canStart m = true) :
    s.firstServed n = false := by
  simp only [State.firstServed, Bool.not_eq_false', List.any_eq_true, List.mem_range, routerOf]
  refine ⟨m % 16, by omega, ?_⟩
  rw [← hr, Nat.div_add_mod]
  exact h

/-! ### The start (R196, R199) -/

theorem exec_taskStart_none {s : State} {n : Nat} (h : s.eligible n = false ∨ s.nextTaskFor n = none
    ∨ (∃ m < n, m / 16 = n / 16 ∧ s.canStart m = true)) : exec (.taskStart n) s = .next s := by
  change execTaskStart n s = _
  rw [execTaskStart]
  split
  case isTrue => rfl
  case isFalse hgo =>
    obtain h | h | ⟨m, hm, hr, hc⟩ := h
    · exact absurd (by simp [h]) hgo
    · rw [h]
    · exact absurd (by simp [firstServed_false hm hr hc]) hgo

section
variable {s : State} {n : Nat} {t : Task} (he : s.eligible n = true) (hf : s.firstServed n = true)
  (ht : s.nextTaskFor n = some t)
include he hf ht

theorem exec_taskStart_resident (hr : t.resident = true) : exec (.taskStart n) s
    = .next ((s.dequeue t).modCore n fun c => { c with tstate := .running, stalled := false }) := by
  change execTaskStart n s = _
  simp only [execTaskStart, he, hf, Bool.not_true, Bool.or_self, Bool.false_eq_true, if_false, ht, hr, if_true]

theorem exec_taskStart_fresh (hr : t.resident = false) (hs : t.saved = false) (hnone : (s.getCore n).task = none) :
    exec (.taskStart n) s = .next ((s.dequeue t).startFresh n t) := by
  have hstop : s.toRestore t = false := by rw [State.toRestore, hs, Bool.false_and]
  have hpark : s.parkSave n = some s := by
    simp only [State.parkSave, hnone]
  change execTaskStart n s = _
  simp only [execTaskStart, he, hf, Bool.not_true, Bool.or_self, Bool.false_eq_true, if_false, ht, hr, hstop, hpark, hs]

end

/-- R196: the core that a new task finds. -/
theorem startFresh_own (s : State) (n : Nat) (t : Task) : (s.startFresh n t).getCore n
    = { s.freshCore (s.getCore n) t with snap := (s.freshCore (s.getCore n) t).takeSnap } := by
  have hn : (s.freshCore (s.getCore n) t).num = n := getCore_num s n
  exact getCore_putCore (s.cleanRegs n) hn

theorem startFresh_other (s : State) {n k : Nat} (t : Task) (hk : k ≠ n) :
    (s.startFresh n t).getCore k = s.getCore k := by
  have hn : (s.freshCore (s.getCore n) t).num = n := getCore_num s n
  exact getCore_putCore_of_ne (s.cleanRegs n) (by simpa only [hn] using hk)

theorem taskStarts : TaskStarts := by
  refine fun s n => ⟨exec_taskStart_none, fun t he ht hfirst => ?_⟩
  obtain ⟨hq, hmay, hlevel⟩ := nextTaskFor_some ht
  have hf := firstServed_of hfirst
  obtain ⟨q, sp, hd, hqueue⟩ := dequeue_queue s t
  refine ⟨⟨hq, mayStart_bound hmay, hlevel⟩, fun hr => ?_, fun hr hs hnone => ?_⟩
  · refine ⟨_, exec_taskStart_resident he hf ht hr, ?_, ?_⟩
    · rw [hd]
      exact getCore_putCore { s with queue := q, spawns := sp } (getCore_num s n)
    · rw [hd]
      have : (({ s with queue := q, spawns := sp } : State).modCore n
          fun c => { c with tstate := .running, stalled := false }).queue = q := by
        rw [State.modCore, State.putCore]
        split <;> rfl
      rw [this]
      exact hqueue
  · refine ⟨_, exec_taskStart_fresh he hf ht hr hs hnone, ?_⟩
    rw [hd]
    refine ⟨?_, fun k hk => startFresh_other _ t hk⟩
    intro c
    have hc : c = _ := startFresh_own { s with queue := q, spawns := sp } n t
    have hn : (s.getCore n).num = n := getCore_num s n
    rw [hc]
    refine ⟨?_, rfl, rfl, rfl, rfl, rfl, rfl, BitVec.toNat_ofNat .., BitVec.toNat_ofNat .., rfl, rfl, rfl, rfl, rfl, rfl, rfl,
      rfl, fun k hk => ?_⟩
    · change some { t with bound := some (s.getCore n).num, started := s.tick } = _
      rw [hn]
    · exact Vector.getElem_ofFn hk

/-! ### Aging (R201) -/

theorem aging : Aging := by
  intro s r t q huniq
  refine ⟨fun hq hid hdom hlevel => ?_, fun _ hnone => ?_⟩
  · have hfind : (s.queue.find? fun q => q.id == t && q.dom == r && decide (q.level < 7)) = some q := by
      have hsome : (s.queue.find? fun q => q.id == t && q.dom == r && decide (q.level < 7)).isSome := by
        rw [List.find?_isSome]
        exact ⟨q, hq, by simp [hid, hdom, hlevel]⟩
      obtain ⟨k, hk⟩ := Option.isSome_iff_exists.1 hsome
      have hkid : k.id = t := by
        have := List.find?_some hk
        simp only [Bool.and_eq_true, beq_iff_eq] at this
        exact this.1.1
      rw [hk, huniq k (List.mem_of_find?_eq_some hk) hkid]
    change execTaskAgingPromotion r t s = _
    rw [execTaskAgingPromotion, hfind]
  · have hfind : (s.queue.find? fun q => q.id == t && q.dom == r && decide (q.level < 7)) = none := by
      rw [List.find?_eq_none]
      intro k hk
      have := hnone k hk
      simp only [Bool.and_eq_true, beq_iff_eq, decide_eq_true_eq, not_and]
      omega
    change execTaskAgingPromotion r t s = _
    rw [execTaskAgingPromotion, hfind]

/-! ### The wakes (R119, R169) -/

theorem waitOf_own {s : State} {t : Task} (ht : s.core.task = some t) : s.waitOf t.id = s.core.wait := by
  rw [State.waitOf, find?_own ht]

theorem watchOf_own {s : State} {t : Task} (ht : s.core.task = some t) : s.watchOf t.id = s.core.watch := by
  rw [State.watchOf, find?_own ht]

theorem exec_spinwWake {s : State} {t : Task} {e : Nat} (ht : s.core.task = some t) (hw : s.core.wait = .spinw e) :
    exec (.spinwWake t.id) s = .next (if s.watchWritten t.id then s.wake t.id else s) := by
  change execSpinwWake t.id s = _
  rw [execSpinwWake, waitOf_own ht, hw]

theorem exec_spinwTimeout {s : State} {t : Task} {e : Nat} (ht : s.core.task = some t) (hw : s.core.wait = .spinw e) :
    exec (.spinwTimeout t.id) s = .next (if e = 0 then s else s.wake t.id) := by
  change execSpinwTimeout t.id s = _
  rw [execSpinwTimeout, waitOf_own ht, hw]

theorem exec_yieldExpiry {s : State} {t : Task} {n : Nat} (ht : s.core.task = some t) (hw : s.core.wait = .yield n) :
    exec (.yieldExpiry t.id) s = .next (s.wake t.id) := by
  change execYieldExpiry t.id s = _
  rw [execYieldExpiry, waitOf_own ht, hw]

theorem wakes : Wakes := by
  intro s t e n ht hp hm hh woken
  have hwake (hw : s.core.wait.ends = true) : .next (s.wake t.id) = woken := by
    rw [wake_own ht hp hm hh, hw]
  refine ⟨fun hw => ?_, fun hw => (exec_yieldExpiry ht hw).trans (hwake (by rw [hw]; rfl))⟩
  have hends : s.core.wait.ends = true := by rw [hw]; rfl
  refine ⟨fun h hwatch => ?_, fun h hwatch hglobal => ?_, fun p a b hwatch => ?_, fun he => ?_, fun he => ?_⟩
  · have hseen : s.watchWritten t.id = true := by
      rw [State.watchWritten, watchOf_own ht, hwatch]
      cases h <;> rfl
    rw [exec_spinwWake ht hw, hseen]
    exact hwake hends
  · have hseen : s.watchWritten t.id = false := by
      rw [State.watchWritten, watchOf_own ht, hwatch]
      cases h with
      | global p a => exact absurd rfl (hglobal p a)
      | _ => rfl
    rw [exec_spinwWake ht hw, hseen]
    rfl
  · have hseen : s.watchWritten t.id = true := by rw [State.watchWritten, watchOf_own ht, hwatch]
    rw [exec_spinwWake ht hw, hseen]
    exact hwake hends
  · rw [exec_spinwTimeout ht hw, if_neg he]
    exact hwake hends
  · rw [exec_spinwTimeout ht hw, if_pos he]

/-- Settles O27: the start by the four ways it can go, aging by the one task of a number, the wakes by the core itself. -/
theorem taskScheduling : Obligations.TaskScheduling := ⟨taskStarts, aging, wakes⟩

end Sys2Proof.Claims
end

section
/-! SUPPORT. Stores on their way out of a core, and their performing at home (R107, R225-R227, R241-R251, R332). -/

open Sys2Proof Sys2Proof.Machine

namespace Sys2Proof.Claims

/-! ### The buffer's head leaves (R107) -/

/-- The state once `k` entries have left the current core's buffer. -/
theorem dropStores_own (s : State) (k : Nat) : s.dropStores s.core.num k
    = { s with core := { s.core with sb := s.core.sb.drop k, sbOld := s.core.sbOld - k } } :=
  modCore_own rfl rfl

theorem dropOldest_own {s : State} {e : SbEntry} {rest : List SbEntry} (h : s.core.sb = e :: rest) :
    s.dropOldest s.core.num = { s with core := { s.core with sb := rest, sbOld := s.core.sbOld - 1 } } := by
  rw [State.dropOldest, dropStores_own, h]
  rfl

theorem paged_iff {x : Home} : x.paged = true ↔ ∃ pa, x = .hbm pa := by
  cases x <;> simp [Home.paged]

section
variable {s : State} {e : SbEntry} {rest : List SbEntry} (h : s.core.sb = e :: rest)
include h

/-- R107: a store to local memory is performed. -/
theorem drain_local {c off : Nat} (hh : e.home = .loc c off) : exec (.storeBufferDrain s.core.num) s
    = .next (({ s with core := { s.core with sb := rest, sbOld := s.core.sbOld - 1 } } : State).storeHome e.home e.bytes) := by
  change execStoreBufferDrain s.core.num s = _
  simp only [execStoreBufferDrain, getCore_own, h, List.head?_cons]
  rw [dropOldest_own h, hh]

/-- R332: a store to another package waits for the earlier one to its line. -/
theorem drain_global_waits {p va : Nat} (hh : e.home = .global p va)
    (hw : s.core.lineOut p va e.bytes.length = true ∨ p = s.pkg ∧ ∃ f ∈ s.flying, f.core = s.core.num ∧ ∃ pa, f.entry.home = .hbm pa) :
    exec (.storeBufferDrain s.core.num) s = .next s := by
  change execStoreBufferDrain s.core.num s = _
  simp only [execStoreBufferDrain, getCore_own, h, List.head?_cons, hh]
  refine if_pos ?_
  obtain hw | ⟨hp, f, hf, hn, pa, hpa⟩ := hw
  · simp [hw]
  · have hany : (s.flying.any fun f => f.core == s.core.num && f.entry.home.paged) = true :=
      List.any_eq_true.2 ⟨f, hf, by simp [hn, hpa, Home.paged]⟩
    simp [hp, hany]

/-- R332: else it sets out as a request. -/
theorem drain_global {p va : Nat} (hh : e.home = .global p va) (hline : s.core.lineOut p va e.bytes.length = false)
    (hb : ¬(p = s.pkg ∧ ∃ f ∈ s.flying, f.core = s.core.num ∧ ∃ pa, f.entry.home = .hbm pa)) :
    exec (.storeBufferDrain s.core.num) s = .next (({ s with core := { s.core with
        sb := rest, sbOld := s.core.sbOld - 1, remoteStores := s.core.remoteStores ++ [(p, va, e.bytes.length)] } } : State).sendRequest
      { pkg := p, srcPkg := s.pkg, ctx := s.core.ctx, core := s.core.num, va := va, op := .write e.bytes }) := by
  have hgo : (p == s.pkg && s.flying.any fun f => f.core == s.core.num && f.entry.home.paged) = false := by
    rw [Bool.eq_false_iff]
    intro hc
    simp only [Bool.and_eq_true, beq_iff_eq, List.any_eq_true, paged_iff] at hc
    exact hb hc
  change execStoreBufferDrain s.core.num s = _
  simp only [execStoreBufferDrain, getCore_own, h, List.head?_cons, hh]
  rw [hline, hgo, dropOldest_own h, modCore_own rfl rfl]
  rfl

/-- R226: a store to this package's memory waits for those that go there by its global name. -/
theorem drain_alias {pa : Nat} (hh : e.home = .hbm pa) (hw : ∃ x ∈ s.core.remoteStores, x.1 = s.pkg) :
    exec (.storeBufferDrain s.core.num) s = .next s := by
  change execStoreBufferDrain s.core.num s = _
  simp only [execStoreBufferDrain, getCore_own, h, List.head?_cons, hh]
  refine if_pos ?_
  simpa [Home.paged] using hw

/-- Other memory. -/
def Elsewhere (x : Home) : Prop := match x with
  | .vault _ => True
  | .hbm _ => True
  | .mmio _ => True
  | _ => False

/-- R225: a store to other memory is on its way, by one phase. -/
theorem drain_one (hh : Elsewhere e.home) (hfree : (e.home.paged && s.core.remoteStores.any (·.1 == s.pkg)) = false)
    (htwo : ((s.layer (layerOf s.core.num)).twoPhase && !e.home.baseDie) = false) :
    exec (.storeBufferDrain s.core.num) s = .next { s with
      core := { s.core with sb := rest, sbOld := s.core.sbOld - 1 }
      flying := s.flying ++ [{ core := s.core.num, entry := e }] } := by
  change execStoreBufferDrain s.core.num s = _
  simp only [execStoreBufferDrain, getCore_own, h, List.head?_cons]
  split
  case h_1 hc => rw [hc] at hh; exact hh.elim
  case h_2 hc => rw [hc] at hh; exact hh.elim
  case h_3 hc => rw [hc] at hh; exact hh.elim
  case h_4 =>
    rw [hfree, htwo, dropOldest_own h]
    rfl

/-- R241, R242: a store to a vault goes by an intermediate router while the layer routes in two phases. -/
theorem drain_two {off : Nat} (hh : e.home = .vault off) (htwo : (s.layer (layerOf s.core.num)).twoPhase = true) :
    exec (.storeBufferDrain s.core.num) s = .next { s with
      core := { s.core with sb := rest, sbOld := s.core.sbOld - 1, draws := s.core.draws + 1 }
      flying := s.flying ++ [{ core := s.core.num, entry := e, via := s.intermediate s.core.num (off / 2 ^ 21) }] } := by
  change execStoreBufferDrain s.core.num s = _
  simp only [execStoreBufferDrain, getCore_own, h, List.head?_cons, hh]
  rw [htwo, dropOldest_own h, modCore_own rfl rfl]
  rfl

end

/-- R241: the intermediate router of a layer that routes in two phases. -/
theorem detour_two {s : State} {i k p q : Nat} (h : (s.layer (layerOfRouter p)).twoPhase = true) :
    s.detour i k p q = if 32 * layerOfRouter p + (Config.draw i k).toNat = p
        ∨ 32 * layerOfRouter p + (Config.draw i k).toNat = q then none
      else some (32 * layerOfRouter p + (Config.draw i k).toNat) := by
  simp only [State.detour, h, if_true, Bool.or_eq_true, decide_eq_true_eq]

theorem detour_one {s : State} {i k p q : Nat} (h : (s.layer (layerOfRouter p)).twoPhase = false) :
    s.detour i k p q = none := by
  simp [State.detour, h]

/-! ### A store to the mirrored region (R251) -/

/-- The piece that an entry within one chunk makes. -/
def pieceOf (n : Nat) (off : SbEntry → Nat) (x : SbEntry) : MirrorStore := { core := n, off := off x, bytes := x.bytes }

/-- R251: bytes that do not leave their chunk make one piece. -/
theorem chunkPieces_one {n off : Nat} {bs : List Byte} (hfit : off % 16 + bs.length ≤ 16) (hne : bs ≠ []) :
    chunkPieces n (bs.length + 1) off bs = [{ core := n, off := off, bytes := bs }] := by
  obtain ⟨m, hm⟩ : ∃ m, bs.length = m + 1 := Nat.exists_eq_succ_of_ne_zero (by simpa using hne)
  have hempty : bs.isEmpty = false := by simpa using hne
  have htake : bs.take (16 - off % 16) = bs := List.take_of_length_le (by omega)
  have hdrop : bs.drop (16 - off % 16) = [] := List.drop_of_length_le (by omega)
  simp [chunkPieces, hempty, htake, hdrop, hm]

/-- The pieces of a store, each a place of its own or a part of the place before it. -/
def withConts (n : Nat) (off : SbEntry → Nat) (es : List SbEntry) : List MirrorStore :=
  es.mapIdx fun i x =>
    { pieceOf n off x with cont := decide (0 < i) && (es[i - 1]?).any fun y => off y / 16 == off x / 16 }

theorem shareFrom_pieces (n : Nat) (off : SbEntry → Nat) : ∀ (es : List SbEntry) (y : SbEntry),
    shareChunks.shareFrom (off y / 16) (es.map (pieceOf n off)) = es.mapIdx fun i x =>
      { pieceOf n off x with cont := ((y :: es)[i]?).any fun y => off y / 16 == off x / 16 }
  | [], _ => rfl
  | x :: es, y => by
    rw [List.map_cons, shareChunks.shareFrom, List.mapIdx_cons]
    refine congrArg₂ List.cons ?_ (shareFrom_pieces n off es x)
    simp [pieceOf, eq_comm]

theorem shareChunks_pieces (n : Nat) (off : SbEntry → Nat) : ∀ es : List SbEntry,
    shareChunks (es.map (pieceOf n off)) = withConts n off es
  | [] => rfl
  | [x] => by simp [shareChunks, withConts, pieceOf]
  | x :: y :: es => by
    rw [List.map_cons, List.map_cons, shareChunks, withConts, List.mapIdx_cons]
    refine congrArg₂ List.cons rfl ?_
    exact shareFrom_pieces n off (y :: es) x

/-- R251: the pieces of a store whose entries each lie within a chunk. -/
theorem storePieces_eq {n : Nat} {off : SbEntry → Nat} {es : List SbEntry}
    (h : ∀ x ∈ es, x.home = .mirror (off x) ∧ off x % 16 + x.bytes.length ≤ 16 ∧ x.bytes ≠ []) :
    storePieces n es = withConts n off es := by
  have hone : ((es.map fun e => match e.home with
      | .mirror off => chunkPieces n (e.bytes.length + 1) off e.bytes
      | _ => []).flatten) = es.map (pieceOf n off) := by
    rw [← List.flatMap_def, ← List.flatMap_singleton' (es.map (pieceOf n off)), List.flatMap_map]
    refine List.flatMap_congr fun x hx => ?_
    obtain ⟨hhome, hfit, hne⟩ := h x hx
    rw [hhome]
    exact chunkPieces_one hfit hne
  rw [← shareChunks_pieces, ← hone]
  rfl

/-- R251: a store's entries are those that end with the first one that no other follows. -/
theorem oldestStore_eq {tail : List SbEntry} : ∀ {es : List SbEntry}, es ≠ [] → (∀ x ∈ es.dropLast, x.more = true) →
    (∀ x ∈ es.getLast?, x.more = false) → oldestStore (es ++ tail) = es
  | [], h, _, _ => absurd rfl h
  | [x], _, _, hlast => by
    have : x.more = false := hlast x rfl
    simp [oldestStore, this]
  | x :: y :: es, _, hmore, hlast => by
    have hx : x.more = true := hmore x List.mem_cons_self
    have ih := oldestStore_eq (tail := tail) (es := y :: es) (List.cons_ne_nil _ _)
      (fun z hz => hmore z (List.mem_cons_of_mem x hz)) (by simpa using hlast)
    rw [List.cons_append, oldestStore, hx, if_pos rfl, ih]

/-- R251: the whole store enters the mirror queue, or waits for room. -/
theorem drain_mirror {s : State} {es tail : List SbEntry} {off : SbEntry → Nat} (h : s.core.sb = es ++ tail) (hne : es ≠ [])
    (hin : ∀ x ∈ es, x.home = .mirror (off x) ∧ off x % 16 + x.bytes.length ≤ 16 ∧ x.bytes ≠ [])
    (hmore : ∀ x ∈ es.dropLast, x.more = true) (hlast : ∀ x ∈ es.getLast?, x.more = false) :
    exec (.storeBufferDrain s.core.num) s
      = if 128 < placesOf ((s.layer (layerOf s.core.num)).mq ++ withConts s.core.num off es) then .next s
        else .next (({ s with core := { s.core with sb := tail, sbOld := s.core.sbOld - es.length } } : State).modLayer
          (layerOf s.core.num) fun l => { l with mq := l.mq ++ withConts s.core.num off es }) := by
  obtain ⟨e, t, rfl⟩ := List.exists_cons_of_ne_nil hne
  obtain ⟨hhome, -, -⟩ := hin e List.mem_cons_self
  have hhead : s.core.sb.head? = some e := by rw [h]; rfl
  change execStoreBufferDrain s.core.num s = _
  simp only [execStoreBufferDrain, getCore_own, hhead, hhome]
  rw [h, oldestStore_eq hne hmore hlast, storePieces_eq hin, dropStores_own, h, List.drop_left]

theorem storesLeave : StoresLeave := by
  intro s e rest h n u goes
  have hlayer : layerOfRouter (routerOf n) = n / 512 := Nat.div_div_eq_div_mul n 16 32
  refine ⟨fun c off hh => drain_local h hh, ?_, ?_, ?_, ?_, ?_⟩
  · intro es tail off hsb hne _ hin hmore hlast q pieces taken
    have hdrain := drain_mirror hsb hne hin hmore hlast
    exact ⟨fun hroom => hdrain.trans (if_neg (Nat.not_lt.2 hroom)), fun hfull => hdrain.trans (if_pos hfull)⟩
  · intro p va hh r v behind
    refine ⟨drain_global_waits h hh, fun hline hb => (drain_global h hh hline hb).trans ?_⟩
    rw [State.sendRequest]
  · exact fun ⟨pa, hh⟩ hw => drain_alias h hh hw
  · rintro (⟨⟨pa, hh⟩, hnone⟩ | ⟨off, hh⟩ | ⟨⟨off, hh⟩, htwo⟩)
    · refine drain_one h (by rw [hh]; trivial) ?_ (by rw [hh]; simp [Home.baseDie])
      rw [hh]
      simpa [Home.paged] using hnone
    · exact drain_one h (by rw [hh]; trivial) (by rw [hh]; rfl) (by rw [hh]; simp [Home.baseDie])
    · refine drain_one h (by rw [hh]; trivial) (by rw [hh]; rfl) ?_
      rw [show (s.layer (layerOf s.core.num)).twoPhase = false from htwo]
      rfl
  · intro off hh htwo r
    refine (drain_two h hh htwo).trans ?_
    rw [State.intermediate, getCore_own, detour_two (by rw [hlayer]; exact htwo), hlayer]
    rfl

/-! ### A store is performed at its home (R225, R241, R279) -/

theorem oldestFlying_some {s : State} {k : Nat} {f : Flying} (hf : s.flying[k]? = some f)
    (h : ∀ g ∈ s.flying.take k, g.core ≠ f.core) : s.oldestFlying k = some f := by
  have hnone : (s.flying.take k).any (·.core == f.core) = false := by simpa [List.any_eq_false] using h
  rw [State.oldestFlying, hf, Option.filter_some, hnone]
  rfl

theorem oldestFlying_none {s : State} {k : Nat} {f : Flying} (hf : s.flying[k]? = some f)
    (h : ¬∀ g ∈ s.flying.take k, g.core ≠ f.core) : s.oldestFlying k = none := by
  have hany : (s.flying.take k).any (·.core == f.core) = true := by
    push Not at h
    obtain ⟨g, hg, he⟩ := h
    exact List.any_eq_true.2 ⟨g, hg, by simpa using he⟩
  rw [State.oldestFlying, hf, Option.filter_some, hany]
  rfl

/-- The router that answers for a store's home: 384 for the base die. -/
def answers (f : Flying) : Nat := if f.entry.home.baseDie then 384 else f.entry.home.dest f.core

/-- R241: an answer of a router goes by an intermediate one while its layer routes in two phases. -/
theorem ackFrom_home (s : State) (n h r : Nat) (hr : r = 32 * (h / 32) + (Config.draw (12288 + h) s.tick).toNat) :
    s.ackFrom n .home h = { core := n, cls := .home, home := h
                            via := if h < 384 ∧ (s.layer (h / 32)).twoPhase = true ∧ r ≠ h ∧ r ≠ n / 16 then some r
                                   else none } := by
  by_cases hlt : h < numRouters
  · cases htwo : (s.layer (layerOfRouter h)).twoPhase with
    | false =>
      have hno : ¬(h < 384 ∧ (s.layer (h / 32)).twoPhase = true ∧ r ≠ h ∧ r ≠ n / 16) := by
        rintro ⟨-, h2, -⟩
        exact absurd (htwo.symm.trans h2) (by decide)
      rw [State.ackFrom, if_pos hlt, State.backVia, detour_one htwo, if_neg hno]
    | true =>
      have hvia : (s.detour (answerer h) s.tick h (routerOf n))
          = if h < 384 ∧ (s.layer (h / 32)).twoPhase = true ∧ r ≠ h ∧ r ≠ n / 16 then some r else none := by
        rw [detour_two htwo, show 32 * layerOfRouter h + (Config.draw (answerer h) s.tick).toNat = r from hr.symm]
        by_cases heq : r = h ∨ r = n / 16
        · exact (if_pos heq).trans (if_neg (by tauto)).symm
        · exact (if_neg heq).trans (if_pos ⟨hlt, htwo, by tauto, by tauto⟩).symm
      rw [State.ackFrom, if_pos hlt, State.backVia, hvia]
  · rw [State.ackFrom, if_neg hlt, if_neg fun hc => hlt hc.1]

section
variable {s : State} {k : Nat} {f : Flying} (hf : s.oldestFlying k = some f)
include hf

/-- R246: a store whose way is not clear raises the wake lines there. -/
theorem exec_storePerform_held (hr : s.routeHeld f.route = true) :
    exec (.storePerformAtHome k) s = .next (s.raiseWakes f.route) := by
  change execStorePerformAtHome k s = _
  rw [execStorePerformAtHome, hf]
  exact if_pos hr

/-- R225: a store to plain memory is performed. -/
theorem exec_storePerform (hp : Plain [(f.entry.home, 0)]) (hr : s.routeHeld f.route = false)
    (hport : ∀ pa, f.entry.home = .hbm pa → s.portFrozen pa = false) :
    exec (.storePerformAtHome k) s = .next (s.performStore k f) := by
  obtain ⟨hin, -⟩ := hp
  have hhome := hin _ List.mem_cons_self
  change execStorePerformAtHome k s = _
  simp only [execStorePerformAtHome, hf]
  rw [onRoute_clear hr]
  split
  case h_1 pa hpa => rw [hport pa hpa]; rfl
  case h_2 off hoff => rw [hoff] at hhome; exact hhome.elim
  case h_3 => rfl

/-- R328: one behind a frozen port waits. -/
theorem exec_storePerform_frozen {pa : Nat} (hpa : f.entry.home = .hbm pa) (hr : s.routeHeld f.route = false)
    (hport : s.portFrozen pa = true) : exec (.storePerformAtHome k) s = .next s := by
  change execStorePerformAtHome k s = _
  simp only [execStorePerformAtHome, hf, hpa]
  rw [onRoute_clear hr, hport]
  rfl

end

theorem exec_storePerform_none {s : State} {k : Nat} (hf : s.oldestFlying k = none) :
    exec (.storePerformAtHome k) s = .next s := by
  change execStorePerformAtHome k s = _
  rw [execStorePerformAtHome, hf]

theorem storesPerformed : StoresPerformed := by
  intro s k f hf hp h r u eldest
  have hanswers : answers f = h := by
    obtain ⟨hin, -⟩ := hp
    have hhome := hin _ List.mem_cons_self
    rw [answers]
    cases hh : f.entry.home <;> simp_all [Home.baseDie, h]
  refine ⟨fun he hr hport => ?_, fun he hr => exec_storePerform_held (oldestFlying_some hf he) hr, fun hr pa hpa hport => ?_,
    fun he => exec_storePerform_none (oldestFlying_none hf he), fun i a ha => ⟨fun hr => ?_, fun hr => ?_⟩, ?_⟩
  · refine (exec_storePerform (oldestFlying_some hf he) hp hr hport).trans (congrArg Host.Outcome.next ?_)
    change ({ s with flying := s.flying.eraseIdx k, acks := s.acks ++ [s.ackFrom f.core .home (answers f)] } : State).storeHome
      f.entry.home f.entry.bytes = _
    rw [hanswers, ackFrom_home s f.core h r rfl]
  · by_cases he : eldest
    · exact exec_storePerform_frozen (oldestFlying_some hf he) hpa hr hport
    · exact exec_storePerform_none (oldestFlying_none hf he)
  · change execAcknowledgementReceive i s = _
    rw [execAcknowledgementReceive, ha]
    exact if_neg (Bool.eq_false_iff.1 hr)
  · change execAcknowledgementReceive i s = _
    rw [execAcknowledgementReceive, ha]
    exact if_pos hr
  · exact congrArg Host.Outcome.next (modCore_own rfl rfl)

/-- Settles O29: the head of the buffer by its home, and the oldest store on its way by its route. -/
theorem postedStores : Obligations.PostedStores := ⟨storesLeave, storesPerformed⟩

end Sys2Proof.Claims
end

section
/-! SUPPORT. A part of a copy, and the end of its entry (R122, R241, R316). -/

open Sys2Proof Sys2Proof.Machine

namespace Sys2Proof.Claims

/-! ### A store to memory (R119, R225) -/

/-- R119: a store to memory changes nothing of the current core but what it watches. -/
theorem storeHome_core {s : State} {h : Home} {bs : List Byte} (hm : (∃ off, h = .vault off) ∨ ∃ pa, h = .hbm pa) :
    (s.storeHome h bs).core = s.core.see h bs.length := by
  obtain ⟨off, rfl⟩ | ⟨pa, rfl⟩ := hm <;> rw [State.storeHome] <;> split <;> rfl

theorem storeHome_terms {s : State} {h : Home} {bs : List Byte} (hm : (∃ off, h = .vault off) ∨ ∃ pa, h = .hbm pa) :
    (s.storeHome h bs).terms = s.terms := by
  obtain ⟨off, rfl⟩ | ⟨pa, rfl⟩ := hm <;> rw [State.storeHome] <;> split <;> rfl

/-! ### What an engine reaches -/

/-- R309: the pages of a range of space 0 lie in HBM. -/
theorem reachPages_hbm {s : State} {unit : Option Nat} {asid va n : Nat} {k : Kind} {segs : List (Home × Nat)}
    (h : s.reachPages unit asid k va n = .ok segs) : ∀ g ∈ segs, ∃ pa, g.1 = .hbm pa := by
  refine List.foldlRecOn (motive := fun r : Reach => ∀ segs, r = .ok segs → ∀ g ∈ segs, ∃ pa, g.1 = .hbm pa)
    (pagesOf (n / 2 ^ 21 + 2) va n) _ ?_ ?_ segs h
  · rintro _ ⟨⟩ g hg
    exact absurd hg List.not_mem_nil
  · intro r hr p _ segs hsegs
    split at hsegs
    case h_1 old =>
      dsimp only at hsegs
      split at hsegs
      case h_1 =>
        split_ifs at hsegs
        obtain rfl := Reach.ok.inj hsegs
        intro g hg
        obtain hg | hg := List.mem_append.1 hg
        · exact hr old rfl g hg
        · exact ⟨_, congrArg Prod.fst (List.mem_singleton.1 hg)⟩
      case h_2 => cases hsegs
      case h_3 => cases hsegs
    case h_2 => exact hr segs hsegs

/-- An access that an engine makes in a vault names an address of a vault. -/
theorem spaceOf_of_reach {s : State} {n asid len off m : Nat} {k : Kind} {a : Word}
    (h : s.reach n asid k a len = .ok [(.vault off, m)]) : ∃ o, s.spaceOf a.toNat = .vault o := by
  unfold State.reach at h
  dsimp only at h
  split at h
  · cases h
  · split at h
    case h_1 =>
      obtain ⟨pa, hpa⟩ := reachPages_hbm h _ List.mem_cons_self
      cases hpa
    case h_2 o ho => exact ⟨o, ho⟩
    all_goals cases h

theorem lineFree_vault {s : State} {a : Word} {o : Nat} (h : s.spaceOf a.toNat = .vault o) (n len : Nat) :
    s.lineFree n a len = true := by
  rw [State.lineFree, h]

theorem markPages_vault {s : State} {a : Word} {o : Nat} (h : s.spaceOf a.toNat = .vault o) (unit : Option Nat)
    (asid len : Nat) (d : Bool) : s.markPages unit asid a len d = s := by
  rw [State.markPages, h]

theorem onRoutes_clear {s : State} {ws : List (List Nat)} {k : Out} (h : ∀ w ∈ ws, s.routeHeld w = false) :
    s.onRoutes ws k = k := by
  refine if_neg ?_
  rw [Bool.not_eq_true, List.any_eq_false]
  exact fun w hw => by simp [h w hw]

theorem mirrorRoom_vault {s : State} {l off m : Nat} (h : placesOf (s.layer l).mq ≤ 128) :
    s.mirrorRoom l [(.vault off, m)] = true := by
  simpa [State.mirrorRoom, Home.chunks] using h

/-- Bytes that an engine writes to a vault, none of them poisoned. -/
theorem engineWrite_vault (s : State) (n off : Nat) (bs : List Byte) :
    s.engineWrite n [(.vault off, bs.length)] bs [] = s.storeHome (.vault off) bs := by
  rw [State.engineWrite, State.engineWrite, List.take_length]
  rfl

/-! ### An entry of the current core -/

theorem setIfInBounds_eq_set {α : Type} {n i : Nat} (v : Vector α n) (h : i < n) (x : α) :
    v.setIfInBounds i x = v.set i x h := by
  ext j hj
  simp [Vector.getElem_set, Vector.getElem_setIfInBounds]

section
variable {s : State} {e : Fin 16} {k : LockEntry} (hk : s.core.locks[e] = some k)
include hk

theorem getD_lock : s.core.locks.toList.getD e none = some k := by
  have hlen : e.val < s.core.locks.toList.length := by simp
  rw [List.getD_eq_getElem?_getD, List.getElem?_eq_getElem hlen]
  simpa using hk

theorem lockAt_own : s.lockAt s.core.num e = some k := by
  rw [State.lockAt, getCore_own]
  exact getD_lock hk

theorem modLock_own (f : LockEntry → LockEntry) : s.modLock s.core.num e f
    = { s with core := { s.core with locks := s.core.locks.set e.val (some (f k)) } } := by
  rw [State.modLock, modCore_own rfl rfl, getD_lock hk, setIfInBounds_eq_set _ e.isLt]
  rfl

end

/-! ### A region that restarts (R110, R316, R317) -/

/-- R110: a restart of a core that has no remote load outstanding, in a state without terms. -/
theorem restartFor_own {s : State} {w : Wait} (ht : s.terms = []) (hr : s.core.rorder = []) : s.restartFor w = { s with
    core := { ({ s.core with rorder := [], rwait := false } : Core).restore with tstate := .parked, wait := w }
    reads := s.reads.filter (·.core != s.core.num), terms := [], walks := s.walks.filter (·.core != s.core.num) } := by
  have hleave : s.leaveUnits s.core.num = { s with
      reads := s.reads.filter (·.core != s.core.num), terms := [], walks := s.walks.filter (·.core != s.core.num) } := by
    simp only [State.leaveUnits, ht, List.any_nil, Bool.false_eq_true, if_false, List.filterMap_nil]
  rw [State.restartFor, hleave, State.abortSlots, hr]
  rfl

/-- The tasks that wait for their turn, less the one that stands on the current core. -/
def queueWithout (s : State) : List Task := s.queue.filter fun q => !(q.resident && some q.id == s.core.task.map Task.id)

/-- R316: the region of a core that is not frozen, its instruction still to be asked for, restarts. -/
theorem restartAt_own {s : State} {w : Wait} (hc : s.core.committed = false) (hf : s.core.frozen = false)
    (ht : s.terms = []) (hr : s.core.rorder = []) :
    s.restartAt s.core.num w = ({ s with queue := queueWithout s } : State).restartFor w := by
  have hown := onCore_own { s with queue := queueWithout s } (fun s => s.restartFor w)
    (by rw [restartFor_own (s := { s with queue := queueWithout s }) ht hr]; rfl)
  rw [State.restartAt, getCore_own]
  simp only [hc, Bool.false_eq_true, if_false, hf]
  exact hown

/-- R317: the record of a fault changes nothing of the current core but what it watches, and no term. -/
theorem fault_core (s : State) (asid vpn ctx kind : Nat) (source : Option (Nat × Nat)) :
    (∃ w, (s.fault asid vpn ctx kind source).core = { s.core with watch := w })
      ∧ (s.fault asid vpn ctx kind source).terms = s.terms := by
  unfold State.fault
  split
  · rw [State.joinFault]
    exact ⟨⟨_, storeHome_core (.inr ⟨_, rfl⟩)⟩, storeHome_terms (.inr ⟨_, rfl⟩)⟩
  · dsimp only
    split
    · exact ⟨⟨s.core.watch, rfl⟩, rfl⟩
    · exact ⟨⟨_, storeHome_core (.inr ⟨_, rfl⟩)⟩, storeHome_terms (.inr ⟨_, rfl⟩)⟩

/-! ### The engine's steps -/

section
variable {s : State} {e : Fin 16} {p : Nat} {k : LockEntry} (hk : s.core.locks[e] = some k) (hn : s.core.num < 6144)
include hk hn

/-- R363: an engine that may not go on moves nothing. -/
theorem exec_part_idle (h : s.engineRuns s.core.num = false) : exec (.copyEnginePart s.core.num e.val p) s = .next s := by
  change execCopyEnginePart s.core.num e.val p s = _
  rw [execCopyEnginePart, if_neg (show s.core.num ≠ numCores from Nat.ne_of_lt hn), lockAt_own hk]
  exact if_neg (by simp [h])

variable (hc : k.kind = .copy) (hrun : s.engineRuns s.core.num = true) (hord : s.engineOrdered s.core.num = true)
  (hlen : 16 * p < k.len) (hparts : p ∉ k.parts) (hasked : p ∉ k.asked) (hgone : p ∉ k.gone)
  (hsrc : s.lineFree s.core.num (partAt k.src p) (partLen k.len p) = true)
  (hdst : s.lineFree s.core.num (partAt k.dst p) (partLen k.len p) = true)
  (hways : ∀ w ∈ s.engineWays s.core.num (partAt k.src p) ++ s.engineWays s.core.num (partAt k.dst p), s.routeHeld w = false)
include hc hrun hord hlen hparts hasked hgone hsrc hdst hways

/-- R122: a part that is due moves. -/
theorem exec_part : exec (.copyEnginePart s.core.num e.val p) s = .next (s.movePart s.core.num e p k) := by
  have hdue : s.partDue s.core.num k p = true := by
    simp [State.partDue, hc, hlen, hparts, hasked, hgone]
  have hread : k.nextRead p = (partAt k.src p, partLen k.len p) := by simp only [LockEntry.nextRead, hc]
  change execCopyEnginePart s.core.num e.val p s = _
  rw [execCopyEnginePart, if_neg (show s.core.num ≠ numCores from Nat.ne_of_lt hn), lockAt_own hk]
  dsimp only
  rw [hread, hrun, hord, hdue, hsrc, hdst]
  exact onRoutes_clear hways

end

/-- R316, R317: a page that is not resident is recorded, and the task's region restarts. -/
theorem engineFault_own {s : State} {asid vpn : Nat} (hrun : s.engineRuns s.core.num = true)
    (hord : s.engineOrdered s.core.num = true) (hcom : s.core.committed = false) (hterms : s.terms = []) :
    let u := s.engineFault s.core.num asid vpn
    u.core.tstate = .parked ∧ u.core.wait = .translation (vpn * 2 ^ 21) 4 ∧ u.core.pc = s.core.snap.pc
      ∧ u.core.locks = s.core.locks ∧ u.faults = (s.fault asid vpn s.core.ctx 4 none).faults := by
  have hfrozen : s.core.frozen = false := by
    rw [State.engineRuns, getCore_own] at hrun
    simp only [Bool.and_eq_true, Bool.not_eq_true'] at hrun
    exact hrun.1.1.1.2
  have horder : s.core.rorder = [] := by
    rw [State.engineOrdered, getCore_own] at hord
    simp only [Bool.and_eq_true, List.isEmpty_iff] at hord
    exact hord.2
  obtain ⟨⟨w, hcore⟩, hu⟩ := fault_core s asid vpn s.core.ctx 4 none
  generalize hv : s.fault asid vpn s.core.ctx 4 none = v at hcore hu
  have hnum : s.core.num = v.core.num := by rw [hcore]
  have hrestart := restartAt_own (s := v) (w := .translation (vpn * 2 ^ 21) 4) (by rw [hcore]; exact hcom)
    (by rw [hcore]; exact hfrozen) (hu.trans hterms) (by rw [hcore]; exact horder)
  have hfor := restartFor_own (s := { v with queue := queueWithout v }) (w := .translation (vpn * 2 ^ 21) 4)
    (hu.trans hterms) (show v.core.rorder = [] by rw [hcore]; exact horder)
  intro u
  have hu : u = v.restartAt s.core.num (.translation (vpn * 2 ^ 21) 4) := by
    change (s.fault asid vpn (s.getCore s.core.num).ctx 4 none).restartAt s.core.num _ = _
    rw [getCore_own, hv]
  rw [hu, hnum, hrestart, hfor, hcore]
  exact ⟨rfl, rfl, rfl, rfl, rfl⟩

/-- R122: the part that moves from vault to vault. -/
theorem movePart_vaults {s : State} {e : Fin 16} {p src dst : Nat} {k : LockEntry}
    (hc : k.kind = .copy) (hclean : s.poison = []) (hmq : placesOf (s.layer (layerOf s.core.num)).mq ≤ 128)
    (hsrc : s.reach s.core.num (s.ctxAsid s.core.ctx) .load (partAt k.src p) (partLen k.len p)
      = .ok [(.vault src, partLen k.len p)])
    (hdst : s.reach s.core.num (s.ctxAsid s.core.ctx) .store (partAt k.dst p) (partLen k.len p)
      = .ok [(.vault dst, partLen k.len p)]) :
    let bs := (List.range (partLen k.len p)).map fun i => s.vault.read (src + i)
    s.movePart s.core.num e p k = (s.storeHome (.vault dst) bs).modLock s.core.num e (LockEntry.partDone p) := by
  intro bs
  obtain ⟨o, ho⟩ := spaceOf_of_reach hsrc
  obtain ⟨o', ho'⟩ := spaceOf_of_reach hdst
  have hread : k.nextRead p = (partAt k.src p, partLen k.len p) := by simp only [LockEntry.nextRead, hc]
  have hlen : bs.length = partLen k.len p := by simp [bs]
  have hbytes : s.engineRead (layerOf s.core.num) [(.vault src, partLen k.len p)] = (bs, []) :=
    engineRead_of_clean hclean ..
  have hland : s.landPart s.core.num e p k bs [] = (s.storeHome (.vault dst) bs).modLock s.core.num e (LockEntry.partDone p) := by
    rw [← hlen] at hdst
    simp only [State.landPart, getCore_own, hdst]
    rw [mirrorRoom_vault hmq, markPages_vault ho', engineWrite_vault]
    rfl
  simp only [State.movePart, hread, getCore_own, hsrc, hbytes, State.land, hc]
  rw [markPages_vault ho, loaded_inMemory (by simp [InMemory]), hland]

section
variable {s : State} {e : Fin 16} {p : Nat} {k : LockEntry} (hc : k.kind = .copy)
include hc

/-- R316: a denied access ends the copy, and the task owes PROT. -/
theorem movePart_denied {off : Nat} (howed : s.core.owed = none) (hden : s.reach s.core.num (s.ctxAsid s.core.ctx) .load
      (partAt k.src p) (partLen k.len p) = .denied off) : s.movePart s.core.num e p k = { s with core := { s.core with
        locks := s.core.locks.set e.val none
        owed := some { cause := .prot, tval := partAt k.src p + BitVec.ofNat 64 off } } } := by
  have hread : k.nextRead p = (partAt k.src p, partLen k.len p) := by simp only [LockEntry.nextRead, hc]
  simp only [State.movePart, hread, getCore_own, hden]
  rw [State.engineTrap, modCore_own rfl rfl, setIfInBounds_eq_set _ e.isLt]
  simp only [Core.owe, howed]

theorem movePart_absent {vpn : Nat} (habs : s.reach s.core.num (s.ctxAsid s.core.ctx) .load
      (partAt k.src p) (partLen k.len p) = .absent vpn) :
    s.movePart s.core.num e p k = s.engineFault s.core.num (s.ctxAsid s.core.ctx) vpn := by
  have hread : k.nextRead p = (partAt k.src p, partLen k.len p) := by simp only [LockEntry.nextRead, hc]
  simp only [State.movePart, hread, getCore_own, habs]

end

/-- Settles O33: the part's two ends by what the engine reaches there, and the entry's end by its count of parts. -/
theorem copyEngine : Obligations.CopyEngine := by
  intro s e p k src dst hk hc n m hn
  refine ⟨?_, ?_, exec_part_idle hk hn, fun hfin => ?_, fun hcount => ?_⟩
  · intro hrun hord hclean hlen hparts hasked hgone _ _ _ hsrc hdst hmq hways u
    obtain ⟨o, ho⟩ := spaceOf_of_reach hsrc
    obtain ⟨o', ho'⟩ := spaceOf_of_reach hdst
    refine (exec_part hk hn hc hrun hord hlen hparts hasked hgone (lineFree_vault ho _ _) (lineFree_vault ho' _ _)
      hways).trans (congrArg Host.Outcome.next ((movePart_vaults hc hclean hmq hsrc hdst).trans ?_))
    have hcore : u.core = s.core.see (.vault (dst + 16 * p)) _ := storeHome_core (.inl ⟨_, rfl⟩)
    have hnum : u.core.num = s.core.num := by rw [hcore]; rfl
    have hlock : u.core.locks[e] = some k := by rw [hcore]; exact hk
    have := modLock_own hlock (LockEntry.partDone p)
    rw [hnum] at this
    exact this
  · intro hrun hord hlen hparts hasked hgone hsrc hdst hways
    have hpart := exec_part hk hn hc hrun hord hlen hparts hasked hgone hsrc hdst hways
    refine ⟨fun off hden howed => hpart.trans (congrArg Host.Outcome.next (movePart_denied hc howed hden)),
      fun vpn habs hcom hterms => ⟨_, hpart.trans (congrArg Host.Outcome.next (movePart_absent hc habs)), ?_⟩⟩
    exact engineFault_own hrun hord hcom hterms
  · change execCopyEngineComplete n e.val s = _
    rw [execCopyEngineComplete, lockAt_own hk]
    dsimp only
    rw [hfin, modCore_own rfl rfl, setIfInBounds_eq_set _ e.isLt]
    rfl
  · have hfin : s.copyFinished n k = false := by simp [State.copyFinished, hc, hcount]
    change execCopyEngineComplete n e.val s = _
    rw [execCopyEngineComplete, lockAt_own hk]
    dsimp only
    rw [hfin]
    rfl

end Sys2Proof.Claims
end

section
/-! SUPPORT. A fill in a state whose vault lists its bytes out of order (R117, R278). -/

open Sys2Proof Sys2Proof.Machine

namespace Sys2Proof.Claims

/-- A core right after reset whose protection regions let it write the first 64 bytes of the vaults, and a vault whose
list of bytes has byte 5 before byte 3: no list that a write makes, for `Memory.write` keeps the addresses in ascending
order. -/
def unsortedVault : State :=
  { core := { rlim := 8, prot := Vector.replicate 16 (2 ^ 63 + 2 ^ 60 + 2 ^ 58) }, vault := [(5, 1), (3, 7)] }

/-- An instruction that names no register finds nothing in its way. -/
theorem unsortedVault_usable : Usable unsortedVault [] [] :=
  ⟨fun _ hi => absurd hi List.not_mem_nil, by decide, fun _ hc => absurd hc List.not_mem_nil⟩

/-- Byte 3 of the vaults of an outcome's next state. -/
def byteThree : Out → Byte
  | .next t => t.vault.read 3
  | _ => 0

/-- Filled with zero, the vaults' first word keeps its byte 3, which stands behind the head of the list, where a write of
zero does not look for it. -/
theorem byteThree_fill : byteThree (exec (.bkopFill (.lit32 0) (.lit64 0x1000_0000_0000_0000) (.lit32 1)) unsortedVault)
    = 7 := by decide +kernel

/-- What the checks of the fill find. -/
theorem unsortedVault_checks :
    unsortedVault.bankOk 0x1000_0000_0000_0000 1 = true ∧ unsortedVault.performed = true
      ∧ unsortedVault.mustWait [(.vault 0, 4)] = false
      ∧ unsortedVault.check { kind := .store } 0x1000_0000_0000_0000 4 = .ok [(.vault 0, 4)] := by decide +kernel

/-- Refutes O11: in `unsortedVault`, whose vault is in no canonical form, a fill of the first word with zero leaves
byte 3 as it was, although the byte lies in the word. -/
theorem not_atomicOperations : ¬ Obligations.AtomicOperations := by
  rintro ⟨-, hbank⟩
  obtain ⟨hok, hperf, hwait, hcheck⟩ := unsortedVault_checks
  obtain ⟨-, hfill⟩ := hbank unsortedVault 0 (.lit32 0) (.lit64 0x1000_0000_0000_0000) (.lit32 1) [(.vault 0, 4)] hok hperf
    hwait
  obtain ⟨u, hexec, hbytes, -⟩ := hfill unsortedVault_usable hcheck
  have hplain : Plain [(.vault 0, 4)] := ⟨by simp [InMemory], by simp⟩
  have hbyte : u.vault.read 3 = 0 := hbytes hplain rfl (by decide) (.vault 3) (by simp)
  have hseven : u.vault.read 3 = 7 := (congrArg byteThree hexec).symm.trans byteThree_fill
  exact absurd (hbyte.symm.trans hseven) (by decide)

end Sys2Proof.Claims
end

section
/-! SUPPORT. Requests at a package's interface (R309, R313, R318, R332, R356). -/

open Sys2Proof Sys2Proof.Machine

namespace Sys2Proof.Claims

/-! ### What the operations of an access keep -/

/-- The package and its poison are as they were. -/
def SamePlace (s u : State) : Prop := u.pkg = s.pkg ∧ u.poison = s.poison

theorem SamePlace.refl (s : State) : SamePlace s s := ⟨rfl, rfl⟩

theorem SamePlace.trans {s u v : State} (h : SamePlace s u) (h' : SamePlace u v) : SamePlace s v :=
  ⟨h'.1.trans h.1, h'.2.trans h.2⟩

theorem samePlace_setPte (s : State) (t f e : Nat) : SamePlace s (s.setPte t f e) := by
  rw [State.setPte]
  split <;> exact ⟨rfl, rfl⟩

/-- R309: what an access that goes through leaves of the tables. -/
theorem samePlace_passed (s : State) (unit : Option Nat) (d : Bool) (asid vpn : Nat) :
    SamePlace s (s.passed unit d asid vpn) := by
  rw [State.passed]
  split
  · exact .refl s
  · split
    · split
      · exact samePlace_setPte s ..
      · split
        · exact samePlace_setPte s ..
        · exact .refl s
    · exact .refl s

theorem samePlace_passes (s : State) (unit : Option Nat) (d : Bool) (asid : Nat) (l : List Nat) :
    SamePlace s (l.foldl (fun v p => v.passed unit d asid p) s) :=
  List.foldlRecOn (motive := SamePlace s) l _ (.refl s) fun u hu p _ => hu.trans (samePlace_passed u unit d asid p)

theorem addPin_pkg (s : State) (asid vpn : Nat) (up : Bool) : (s.addPin asid vpn up).pkg = s.pkg := by
  rw [State.addPin]
  split
  · exact (samePlace_setPte s ..).1
  · rfl

theorem storeSegs_pkg : ∀ (l : List (Home × Nat)) (s : State) (bs : List Byte), (∀ g ∈ l, ∃ pa, g.1 = .hbm pa) →
    (s.storeSegs l bs).pkg = s.pkg
  | [], _, _, _ => rfl
  | (h, n) :: t, s, bs, hl => by
    obtain ⟨⟨pa, hpa⟩, ht⟩ := List.forall_mem_cons.1 hl
    obtain rfl : h = .hbm pa := hpa
    rw [State.storeSegs, storeSegs_pkg t _ _ ht]
    exact (onward_storeHome_hbm (T := fun _ => True) s pa _).pkg

theorem fault_pkg (s : State) (asid vpn ctx kind : Nat) (source : Option (Nat × Nat)) :
    (s.fault asid vpn ctx kind source).pkg = s.pkg := by
  unfold State.fault
  split
  · exact (onward_storeHome_hbm (T := fun _ => True) s _ _).pkg
  · dsimp only
    split
    · rfl
    · dsimp only
      exact (onward_storeHome_hbm (T := fun _ => True) s _ _).pkg

theorem malformedBy_pkg (s : State) (m : Nat × Nat) (ctx : Option Nat) (asid vpn : Nat) :
    (s.malformedBy m ctx asid vpn).pkg = s.pkg := by
  have hrecord : (s.malformed asid vpn).pkg = s.pkg := (onward_postError (T := fun _ => True) s _).pkg
  rw [State.malformedBy]
  split
  · rw [State.stopUnit]
    split
    · exact hrecord
    · exact ((onward_frozen (T := fun _ => True) (s.malformed asid vpn) [m]).trans (onward_postError _ _)).pkg.trans hrecord
  · exact hrecord

theorem armWatch_frame (s : State) (r : Request) (pas : List (Nat × Nat)) :
    SamePlace s (s.armWatch r pas) ∧ (s.armWatch r pas).hbm = s.hbm := by
  have hmod (n : Nat) (f : Core → Core) : SamePlace s (s.modCore n f) ∧ (s.modCore n f).hbm = s.hbm := by
    rw [State.modCore, State.putCore]
    split <;> exact ⟨⟨rfl, rfl⟩, rfl⟩
  unfold State.armWatch
  dsimp only
  split
  · split
    · exact hmod ..
    · exact ⟨.refl s, rfl⟩
  · exact ⟨.refl s, rfl⟩

/-! ### The answer (R313) -/

/-- Which kind of response answers a request. -/
def answerKind (r : Request) : RespKind := match r.part with
  | none => r.op.resp
  | some _ => if r.op.writes then .wrote else .part

/-- The answer of package `pkg` to a request. -/
def answerOf (pkg : Nat) (r : Request) (x : Remote) : Response :=
  { core := r.core, slot := r.slot, pkg := pkg, op := answerKind r, res := x, part := r.part
    key := r.key, encl := r.encl, store := if r.op.writes then some r else none }

/-- The answer is on its way, to a core of this package or by the fabric. -/
def answered (v : State) (pkg : Nat) (r : Request) (x : Remote) : State :=
  if r.srcPkg = pkg then { v with responses := v.responses ++ [answerOf pkg r x] }
  else { v with out := v.out ++ [.response r.srcPkg (answerOf pkg r x)] }

theorem respond_eq {v : State} {pkg : Nat} {r : Request} {x : Remote} (hpkg : v.pkg = pkg) (hbad : r.bad = [])
    (hop : r.op ≠ .unpin) : v.respond r x = answered v pkg r x := by
  subst hpkg
  rw [State.respond]
  split
  · exact absurd ‹_› hop
  · rw [hbad]
    rfl

/-! ### What is read (R356) -/

theorem foldl_read {f : List Byte × Option Nat → Nat × Nat → List Byte × Option Nat} {b : Nat × Nat → List Byte}
    (hf : ∀ acc g, f (acc, none) g = (acc ++ b g, none)) : ∀ (l : List (Nat × Nat)) (acc : List Byte),
    l.foldl f (acc, none) = (acc ++ l.flatMap b, none)
  | [], acc => by simp
  | g :: t, acc => by
    rw [List.foldl_cons, hf, foldl_read hf t, List.flatMap_cons, List.append_assoc]

theorem readSegs_of_clean {s : State} (h : s.poison = []) (segs : List (Nat × Nat)) :
    s.readSegs segs = (segs.flatMap fun g => s.hbm.readBytes g.1 g.2, none) := by
  have := foldl_read (b := fun g => s.hbm.readBytes g.1 g.2)
    (f := fun r g => (r.1 ++ s.hbm.readBytes g.1 g.2, match r.2 with
      | some x => some x
      | none => (s.poisonHit [] (.hbm g.1) g.2).map (· + r.1.length)))
    (fun acc g => by simp [poisonHit_of_clean h]) segs []
  exact this

theorem badSegs_of_clean {s : State} (h : s.poison = []) (segs : List (Nat × Nat)) : s.badSegs segs = [] := by
  simp [State.badSegs, poisonHit_of_clean h]

/-- R356: a read of memory without poison is answered with its bytes. -/
theorem serveRead_of_clean {s : State} {r : Request} (h : s.poison = []) (hbad : r.bad = []) (segs : List (Nat × Nat)) :
    s.serveRead r segs = s.respond r (.data (ofBytes (segs.flatMap fun g => s.hbm.readBytes g.1 g.2))) := by
  have hsame : { r with bad := [] } = r := by rw [← hbad]
  rw [State.serveRead, readSegs_of_clean h, badSegs_of_clean h, hsame]
  split <;> rfl

/-! ### The request at its port -/

/-- What a request that is not an UNPIN comes to, once its address space is known. -/
def requestOutcome (s : State) (k : Nat) (r : Request) (asid : Nat) : Out :=
  let u := { s with requests := s.requests.eraseIdx k }
  match s.incoming (s.portUnit r.srcPkg) asid r.op.kind r.va r.op.size with
  | .ok segs =>
    if s.incomingWaits r.op asid (pageNums r.va r.op.size) segs then .next s
    else .next (u.serve r (s.portUnit r.srcPkg) asid segs)
  | .denied off => .next (u.refuseRequest r off)
  | .malformed off vpn => .next ((u.malformedBy (3, s.portUnit r.srcPkg - numRouters) none asid vpn).refuseRequest r off)
  | .absent _ vpn => .next ((u.fault asid vpn r.ctx r.op.kind.bit (some (r.srcPkg, r.ctx))).respond r .xlat)

section
variable {s : State} {k : Nat} {r : Request} (hr : s.requests[k]? = some r)
include hr

/-- R332: an earlier request of the same core to the same line goes first. -/
theorem exec_request_clash (h : ∃ q ∈ s.requests.take k, r.clashes q = true) :
    exec (.remoteRequestReceive k) s = .next s := by
  change execRemoteRequestReceive k s = _
  rw [execRemoteRequestReceive, hr]
  exact if_pos (List.any_eq_true.2 h)

variable (hfirst : ∀ q ∈ s.requests.take k, r.clashes q = false)
  (hroute : s.routeHeld (if r.srcPkg = s.pkg then downRoute r.core else []) = false)
include hfirst

omit hr in
theorem none_clashes : ¬(s.requests.take k).any r.clashes = true := by
  rw [Bool.not_eq_true, List.any_eq_false]
  exact fun q hq => by simp [hfirst q hq]

include hroute

theorem exec_request_unknown (hasid : s.importAsid r.srcPkg r.ctx = none) (hop : r.op ≠ .unpin) :
    exec (.remoteRequestReceive k) s = .next (({ s with requests := s.requests.eraseIdx k } : State).refuseRequest r 0) := by
  change execRemoteRequestReceive k s = _
  rw [execRemoteRequestReceive, hr]
  refine (if_neg (none_clashes hfirst)).trans ((onRoute_clear hroute).trans ?_)
  rw [hasid]
  dsimp only
  split
  case h_1 hu => exact absurd hu hop
  case h_2 => rfl

variable {asid : Nat} (hasid : s.importAsid r.srcPkg r.ctx = some asid)
include hasid

theorem exec_request_unpin (hop : r.op = .unpin) : exec (.remoteRequestReceive k) s
    = .next (({ s with requests := s.requests.eraseIdx k } : State).addPin asid (r.va / 2 ^ 21) false) := by
  change execRemoteRequestReceive k s = _
  rw [execRemoteRequestReceive, hr]
  refine (if_neg (none_clashes hfirst)).trans ((onRoute_clear hroute).trans ?_)
  rw [hasid]
  dsimp only
  split
  case h_1 => rfl
  case h_2 hne => exact absurd hop hne

theorem exec_request (hop : r.op ≠ .unpin) : exec (.remoteRequestReceive k) s = requestOutcome s k r asid := by
  change execRemoteRequestReceive k s = _
  rw [execRemoteRequestReceive, hr]
  refine (if_neg (none_clashes hfirst)).trans ((onRoute_clear hroute).trans ?_)
  rw [hasid]
  dsimp only
  split
  case h_1 hu => exact absurd hu hop
  case h_2 => rfl

end

/-! ### The service (R309, R356) -/

section
variable {s : State} {r : Request} {unit asid : Nat} {segs : List (Nat × Nat)}

/-- The state once the walks of a request have set A, and D for a write. -/
def walked (s : State) (r : Request) (unit asid : Nat) : State :=
  (pageNums r.va r.op.size).foldl (fun v p => v.passed (some unit) r.op.writes asid p) s

theorem samePlace_walked : SamePlace s (walked s r unit asid) := samePlace_passes ..

theorem serve_read {n : Nat} (hop : r.op = .read n) (hclean : s.poison = []) (hbad : r.bad = []) :
    s.serve r unit asid segs = ((walked s r unit asid).armWatch r segs).respond r
      (.data (ofBytes (segs.flatMap fun g => (walked s r unit asid).hbm.readBytes g.1 g.2))) := by
  obtain ⟨hplace, hhbm⟩ := armWatch_frame (walked s r unit asid) r segs
  have hserve : s.serve r unit asid segs = ((walked s r unit asid).armWatch r segs).serveRead r segs := by
    unfold State.serve
    dsimp only
    rw [show (pageNums r.va r.op.size).foldl (fun v p => v.passed (some unit) r.op.writes asid p) s
      = walked s r unit asid from rfl, hop]
  rw [hserve, serveRead_of_clean (hplace.2.trans (samePlace_walked.2.trans hclean)) hbad, hhbm]

theorem serve_fetch {n : Nat} (hop : r.op = .fetch n) (hclean : s.poison = []) (hbad : r.bad = []) :
    s.serve r unit asid segs = (walked s r unit asid).respond r
      (.data (ofBytes (segs.flatMap fun g => (walked s r unit asid).hbm.readBytes g.1 g.2))) := by
  have hserve : s.serve r unit asid segs = (walked s r unit asid).serveRead r segs := by
    unfold State.serve
    dsimp only
    rw [show (pageNums r.va r.op.size).foldl (fun v p => v.passed (some unit) r.op.writes asid p) s
      = walked s r unit asid from rfl, hop]
  rw [hserve, serveRead_of_clean (samePlace_walked.2.trans hclean) hbad]

theorem serve_write {bs : List Byte} (hop : r.op = .write bs) (hbad : r.bad = []) : s.serve r unit asid segs
    = ((walked s r unit asid).storeSegs (segs.map fun g => (.hbm g.1, g.2)) bs).respond r (.data 0) := by
  unfold State.serve
  dsimp only
  rw [show (pageNums r.va r.op.size).foldl (fun v p => v.passed (some unit) r.op.writes asid p) s
    = walked s r unit asid from rfl, hop]
  dsimp only
  rw [hbad]
  rfl

theorem serve_amo {o n x y pa : Nat} (hop : r.op = .amo o n x y) (hsegs : segs = [(pa, n)]) (hclean : s.poison = []) :
    s.serve r unit asid segs = ((walked s r unit asid).amoHome (.hbm pa) o n x y).2.respond r
      (.data ((walked s r unit asid).amoHome (.hbm pa) o n x y).1) := by
  have hpoison : (walked s r unit asid).poisonHit [] (.hbm pa) n = none :=
    poisonHit_of_clean (samePlace_walked.2.trans hclean) ..
  subst hsegs
  unfold State.serve
  dsimp only
  rw [show (pageNums r.va r.op.size).foldl (fun v p => v.passed (some unit) r.op.writes asid p) s
    = walked s r unit asid from rfl, hop]
  simp only [List.head?_cons, Option.map_some, Option.getD_some, hpoison]

theorem serve_check {n : Nat} {kd : Kind} {p : Bool} (hop : r.op = .check n kd p) : s.serve r unit asid segs
    = (if p then (walked s r unit asid).addPin asid (r.va / 2 ^ 21) true else walked s r unit asid).respond r (.data 0) := by
  unfold State.serve
  dsimp only
  rw [show (pageNums r.va r.op.size).foldl (fun v p => v.passed (some unit) r.op.writes asid p) s
    = walked s r unit asid from rfl, hop]

end

theorem remoteRequests : RemoteRequests := by
  intro s k r hr hbad hclean hroute port u goes kind answers
  refine ⟨exec_request_clash hr, fun hfirst => ⟨fun hasid hop => ?_, fun asid hasid => ⟨exec_request_unpin hr hfirst hroute hasid,
    fun hop => ?_⟩⟩⟩
  · exact (exec_request_unknown hr hfirst hroute hasid hop).trans (congrArg Host.Outcome.next (respond_eq rfl hbad hop))
  have hexec := exec_request hr hfirst hroute hasid hop
  have answer {v : State} {x : Remote} (hpkg : v.pkg = s.pkg) (h : requestOutcome s k r asid = .next (v.respond r x)) :
      answers v x := (hexec.trans h).trans (congrArg Host.Outcome.next (respond_eq hpkg hbad hop))
  refine ⟨fun off hin => answer (v := u) rfl ?_, fun off vpn hin => answer (malformedBy_pkg u ..) ?_,
    fun off vpn hin => answer (fault_pkg u ..) ?_, fun segs hin => ⟨fun hw => hexec.trans ?_, fun hw => ?_⟩⟩
  · rw [requestOutcome, hin]
    rfl
  · rw [requestOutcome, hin]
    rfl
  · rw [requestOutcome, hin]
  · rw [requestOutcome, hin]
    exact if_pos hw
  · intro v bytes
    have hserve : requestOutcome s k r asid = .next (u.serve r port asid segs) := by
      rw [requestOutcome, hin]
      exact if_neg (Bool.eq_false_iff.1 hw)
    have hv : SamePlace u v := samePlace_walked (s := u)
    refine ⟨fun n h => answer ?_ (hserve.trans (congrArg Host.Outcome.next (serve_read h hclean hbad))),
      fun n h => answer hv.1 (hserve.trans (congrArg Host.Outcome.next (serve_fetch h hclean hbad))),
      fun bs h => answer ?_ (hserve.trans (congrArg Host.Outcome.next (serve_write h hbad))),
      fun o n x y pa h hsegs => answer ?_ (hserve.trans (congrArg Host.Outcome.next (serve_amo h hsegs hclean))),
      fun n kd p h => answer ?_ (hserve.trans (congrArg Host.Outcome.next (serve_check h)))⟩
    · exact (armWatch_frame v r segs).1.1.trans hv.1
    · refine (storeSegs_pkg _ v bs fun g hg => ?_).trans hv.1
      obtain ⟨x, -, rfl⟩ := List.mem_map.1 hg
      exact ⟨x.1, rfl⟩
    · exact (onward_storeHome_hbm (T := fun _ => True) v pa _).pkg.trans hv.1
    · cases p
      · exact hv.1
      · exact (addPin_pkg v ..).trans hv.1

/-! ### The watch of a SPINW (R119) -/

theorem watchArmed : WatchArmed := by
  intro s r i q segs hn hm hslot hq
  have huse : (((s.getCore r.core).slots.toList.getD r.slot none).map RSlot.use) = some q.use := by
    rw [hn, hslot, getCore_own, List.getD_eq_getElem?_getD, List.getElem?_eq_getElem (by simp)]
    simpa using congrArg (Option.map RSlot.use) hq
  refine ⟨fun d e pa n t hu hsegs hpkg hpart => ?_, fun hu => ?_⟩
  · unfold State.armWatch
    dsimp only
    rw [huse, hu, hsegs]
    refine (if_pos (by simp [hpkg, hpart])).trans (Eq.trans ?_
      (modCore_own (s := s) (f := fun c => { c with watch := some (.hbm (pa / 64 * 64), false) }) rfl rfl))
    rw [hn, getCore_own, hm]
    rfl
  · unfold State.armWatch
    dsimp only
    rw [huse]
    split
    case h_1 d e pa n t heq => exact absurd (Option.some.inj heq) (hu d e)
    case h_2 => rfl

end Sys2Proof.Claims
end

section
/-! SUPPORT. Responses, and the end of the oldest remote load (R109, R112, R119, R226, R318, R350-R352). -/

open Sys2Proof Sys2Proof.Machine

namespace Sys2Proof.Claims

/-! ### A response arrives (R350) -/

theorem dropFirst_eq_eraseP {α : Type} (p : α → Bool) : ∀ l : List α, dropFirst p l = l.eraseP p
  | [] => rfl
  | a :: t => by
    rw [dropFirst, List.eraseP_cons, dropFirst_eq_eraseP p t]
    cases p a <;> rfl

/-- A slot of the current core. -/
theorem getD_slot {c : Core} {i : Fin 8} {q : RSlot} (h : c.slots[i] = some q) : c.slots.toList.getD i.val none = some q := by
  rw [List.getD_eq_getElem?_getD, List.getElem?_eq_getElem (by simp)]
  simpa using h

/-- The state with a response taken from the interface. -/
abbrev responseTaken (s : State) (k : Nat) : State := { s with responses := s.responses.eraseIdx k }

section
variable {s : State} {k : Nat} {r : Response} (hr : s.responses[k]? = some r) (hn : r.core = s.core.num)
  (hroute : s.routeHeld (upRoute r.core) = false)
include hr hn hroute

/-- R350, R351: a response takes its reserved slot, or frees it where the load was aborted. -/
theorem exec_response_slot {i : Fin 8} {q : RSlot} (hop : r.op = .slot) (hi : r.slot = i.val) (hq : s.core.slots[i] = some q) :
    exec (.remoteResponseArrival k) s = .next { s with
      responses := s.responses.eraseIdx k
      core := { s.core with slots := s.core.slots.set i.val (if q.dead then none else some { q with resp := some r.res }) } } := by
  change execRemoteResponseArrival k s = _
  rw [execRemoteResponseArrival, hr]
  refine (onRoute_clear hroute).trans ?_
  dsimp only
  rw [hop]
  rw [modCore_own (s := responseTaken s k) hn.symm hn.symm, hi, setIfInBounds_eq_set _ i.isLt]
  exact congrArg Host.Outcome.next (congrArg (fun o => ({ responseTaken s k with
    core := { s.core with slots := s.core.slots.set i.val (match o with
      | some q => if q.dead then none else some { q with resp := some r.res }
      | none => none) } } : State)) (getD_slot hq))

variable {w : Request} (hop : r.op = .store) (hw : r.store = some w)
include hop hw

omit hn in
theorem exec_response_store : exec (.remoteResponseArrival k) s
    = .next (({ s with responses := s.responses.eraseIdx k } : State).storeBack w r.core r.res) := by
  change execRemoteResponseArrival k s = _
  rw [execRemoteResponseArrival, hr]
  refine (onRoute_clear hroute).trans ?_
  dsimp only
  rw [hop, hw]

/-- R226: an acknowledgement is counted. -/
theorem exec_response_data {x : Nat} (hx : r.res = .data x) : exec (.remoteResponseArrival k) s
    = .next (State.notice { s with responses := s.responses.eraseIdx k, core := { s.core with
        remoteStores := s.core.remoteStores.eraseP fun x => x.1 == w.pkg && x.2.1 == w.va } }
      (.global w.pkg w.va) w.op.size) := by
  rw [exec_response_store hr hroute hop hw, hx, State.storeBack, modCore_own (s := responseTaken s k) hn.symm hn.symm, Core.storeDone,
    dropFirst_eq_eraseP]

/-- R313: one that denies the store leaves its fault for the next instruction boundary. -/
theorem exec_response_trap {c : Cause} {off : Nat} (hx : r.res = .trap c off) (howed : s.core.owed = none) :
    exec (.remoteResponseArrival k) s = .next { s with
      responses := s.responses.eraseIdx k
      core := { s.core with
        remoteStores := s.core.remoteStores.eraseP fun x => x.1 == w.pkg && x.2.1 == w.va
        owed := some { cause := c, tval := BitVec.ofNat 64 (2 ^ 63 + w.pkg * 2 ^ 53 + w.va + off) } } } := by
  rw [exec_response_store hr hroute hop hw, hx, State.storeBack, modCore_own (s := responseTaken s k) hn.symm hn.symm]
  simp only [Core.storeDone, Core.owe, howed, dropFirst_eq_eraseP]

end

/-! ### The oldest remote load is over (R352) -/

/-- The state once the oldest remote load has freed its slot. -/
def slotFreed (s : State) (i : Fin 8) (rest : List (Nat × Fin 8)) : State :=
  { s with core := { s.core with slots := s.core.slots.set i.val none, rorder := rest } }

/-- The same, with the core free to go on. -/
def loadEnded (s : State) (i : Fin 8) (rest : List (Nat × Fin 8)) : State :=
  let u := slotFreed s i rest
  { u with core := { u.core with rwait := false, stalled := false } }

theorem exec_loadWrite {s t : State} (h : s.remoteWrite = t) (hnum : t.core.num = s.core.num) :
    exec (.remoteLoadWrite s.core.num) s = .next t := by
  subst h
  exact congrArg Host.Outcome.next (onCore_own s State.remoteWrite hnum)

section
variable {s : State} {i : Fin 8} {q : RSlot} {rest : List (Nat × Fin 8)}
  (hord : s.core.rorder = (s.core.num, i) :: rest) (hq : s.core.slots[i] = some q)
include hord hq

omit hord in
theorem slot_own : s.slot (s.core.num, i) = some q := by
  rw [State.slot, getCore_own]
  exact hq

theorem remoteWrite_none (h : q.resp = none) : s.remoteWrite = s := by
  simp only [State.remoteWrite, hord, slot_own hq, h]

/-- R226: a GLD waits for the core's older stores to its bytes. -/
theorem remoteWrite_older {x : Remote} (h : q.resp = some x) (hold : s.olderStore q = true) : s.remoteWrite = s := by
  simp only [State.remoteWrite, hord, slot_own hq, h, hold, if_true]

theorem remoteWrite_data {v : Nat} (h : q.resp = some (.data v)) (hold : s.olderStore q = false) :
    s.remoteWrite = (slotFreed s i rest).remoteData q v := by
  simp only [State.remoteWrite, hord, slot_own hq, h, hold, Bool.false_eq_true, if_false]
  rw [State.freeRSlot, modCore_own rfl rfl]
  rfl

theorem remoteWrite_trap {c : Cause} {off : Nat} (h : q.resp = some (.trap c off)) (hold : s.olderStore q = false) :
    s.remoteWrite = (slotFreed s i rest).remoteTrap q c off := by
  simp only [State.remoteWrite, hord, slot_own hq, h, hold, Bool.false_eq_true, if_false]
  rw [State.freeRSlot, modCore_own rfl rfl]
  rfl

end

/-! #### Its register (R352) -/

/-- What a fault puts back of a slot, with a register as an earlier load has written it. -/
def slotKept (d : XReg) (x : Word) (k : RSlot) : RSlot := { k with x := k.x.set d.val x }

theorem slotKept_twice (d : XReg) (x : Word) (k : RSlot) : slotKept d x (slotKept d x k) = slotKept d x k := by
  simp [slotKept]

/-- The slots of the core whose indices are listed keep the register as it is. -/
def slotsKept (c : Core) (d : XReg) (l : List (Nat × Fin 8)) : Vector (Option RSlot) 8 :=
  Vector.ofFn fun j => if (c.num, j) ∈ l then c.slots[j].map (slotKept d c.x[d]) else c.slots[j]

/-- One listed slot keeps the register. -/
def keepSlot (d : XReg) (s : State) (q : Nat × Fin 8) : State :=
  s.modCore q.1 fun c => { c with slots := c.slots.set q.2.val (c.slots[q.2].map (slotKept d s.core.x[d])) }

theorem keepSlot_own {d : XReg} {s : State} {q : Nat × Fin 8} (h : q.1 = s.core.num) : keepSlot d s q
    = { s with core := { s.core with slots := s.core.slots.set q.2.val (s.core.slots[q.2].map (slotKept d s.core.x[d])) } } :=
  modCore_own h.symm h.symm

theorem slotsKept_nil (c : Core) (d : XReg) : slotsKept c d [] = c.slots := by
  ext j hj
  simp [slotsKept]

/-- A slot that is listed twice keeps the register once. -/
theorem slotsKept_cons (c : Core) (d : XReg) {q : Nat × Fin 8} (h : q.1 = c.num) (t : List (Nat × Fin 8)) :
    slotsKept { c with slots := c.slots.set q.2.val (c.slots[q.2].map (slotKept d c.x[d])) } d t
      = slotsKept c d (q :: t) := by
  obtain ⟨n, i⟩ := q
  obtain rfl : n = c.num := h
  apply Vector.ext
  intro j hj
  simp only [slotsKept, Vector.getElem_ofFn, List.mem_cons, Prod.mk.injEq, true_and]
  by_cases hij : (⟨j, hj⟩ : Fin 8) = i
  · subst hij
    have htwice : ∀ o : Option RSlot, (o.map (slotKept d c.x[d])).map (slotKept d c.x[d]) = o.map (slotKept d c.x[d]) := by
      intro o
      cases o <;> simp [slotKept_twice]
    simp only [true_or, if_true, Fin.getElem_fin, Vector.getElem_set_self]
    split
    · exact htwice _
    · rfl
  · have hne : i.val ≠ j := fun h => hij (Fin.ext h.symm)
    simp only [hij, false_or, Fin.getElem_fin, Vector.getElem_set_ne _ _ hne]

theorem foldl_keepSlot (d : XReg) : ∀ (l : List (Nat × Fin 8)) (s : State), (∀ r ∈ l, r.1 = s.core.num) →
    l.foldl (keepSlot d) s = { s with core := { s.core with slots := slotsKept s.core d l } }
  | [], s, _ => by rw [List.foldl_nil, slotsKept_nil]
  | q :: t, s, h => by
    obtain ⟨hq, ht⟩ := List.forall_mem_cons.1 h
    rw [List.foldl_cons, foldl_keepSlot d t _ (by rw [keepSlot_own hq]; exact ht), keepSlot_own hq, ← slotsKept_cons s.core d hq t]

/-- R352: the later loads' slots keep the register as it is. -/
theorem keepX_eq (s : State) (d : XReg) (h : ∀ r ∈ s.core.rorder, r.1 = s.core.num) :
    s.keepX d = kept d s.core.rorder s := foldl_keepSlot d s.core.rorder s h

theorem afterInstr_kept {s : State} (d : XReg) (rest : List (Nat × Fin 8)) (h : s.core.ss = false) :
    (kept d rest s).afterInstr = kept d rest s := afterInstr_of_ss h

/-! #### The end of each kind of load -/

/-- `s` with the register of a remote load written. -/
def loadSet (s : State) (d : XReg) (x : Word) : State := { s with
  core := { s.core with x := if d.val = 0 then s.core.x else s.core.x.set d.val x }
  poison := if d.val = 0 then s.poison else cleaned s (cellX d.val) }

/-- The core is free to go on. -/
abbrev loadReady (s : State) : State := { s with core := { s.core with rwait := false, stalled := false } }

theorem setX_loadSet (s : State) (d : XReg) (x : Word) : s.setX d x = loadSet s d x := setX_eq s d x

section
variable {s : State} {q : RSlot} {v : Nat} (hss : s.core.ss = false)

section
variable (hown : ∀ r ∈ s.core.rorder, r.1 = s.core.num)
include hss hown

theorem remoteData_ld {d : XReg} {acq : Bool} (hu : q.use = .ld d .b64 acq) :
    s.remoteData q v = kept d s.core.rorder (loadSet (loadReady s) d (BitVec.ofNat 64 v)) := by
  simp only [State.remoteData, hu]
  rw [State.setLoad, extendLoad, setX_loadSet, keepX_eq (loadSet (loadReady s) d (BitVec.ofNat 64 v)) d hown]
  · exact afterInstr_kept d _ hss
  all_goals nofun

theorem remoteData_amo {d : XReg} {wide uns : Bool} (hu : q.use = .amo d wide uns) :
    s.remoteData q v = (kept d s.core.rorder (loadSet (loadReady s) d
      (if uns then BitVec.ofNat 64 v else BitVec.ofInt 64 (toS (8 * if wide then 8 else 4) v)))).newRegion := by
  simp only [State.remoteData, hu]
  rw [setX_loadSet, keepX_eq (loadSet (loadReady s) d _) d hown]
  refine afterInstr_of_ss ?_
  rw [newRegion_core]
  exact hss

end

/-- The bytes that an atomic returns, as the signed integer of their width. -/
theorem toS_wide (wide : Bool) (v : Nat) : toS (8 * if wide then 8 else 4) v
    = if wide then (BitVec.ofNat 64 v).toInt else (BitVec.ofNat 32 v).toInt := by
  cases wide <;> simp only [toS, BitVec.toInt_eq_toNat_cond, BitVec.toNat_ofNat] <;> rfl

/-- A GLD writes local memory (R115). -/
theorem storeHome_local_core (s : State) (a : Nat) (bs : List Byte) :
    (s.storeHome (.loc s.core.num a) bs).core.num = s.core.num ∧ (s.storeHome (.loc s.core.num a) bs).core.ss = s.core.ss := by
  have hcore : (s.storeHome (.loc s.core.num a) bs).core
      = { s.core.see (.loc s.core.num a) bs.length with
          loc := (s.core.see (.loc s.core.num a) bs.length).loc.writeBytes a bs } := by
    rw [State.storeHome]
    split <;> dsimp only <;> rw [modCore_own] <;> rfl
  rw [hcore]
  exact ⟨rfl, rfl⟩

include hss in
theorem remoteData_gld {a n : Nat} (hu : q.use = .gld a n) :
    s.remoteData q v = (loadReady s).storeHome (.loc s.core.num (a % 2 ^ 14)) (bytesOf n v) := by
  simp only [State.remoteData, hu]
  exact afterInstr_of_ss ((storeHome_local_core (loadReady s) _ _).2.trans hss)

theorem wokenUp_of_not {s : State} (h : s.core.woken = false) : s.wokenUp = s := by
  rw [State.wokenUp, ← h]

/-- R119: SPINW is done where the word has another value. -/
theorem spinwData_changed {d : XReg} {e : Nat} {w : Word} (hs : s.core.ss = false) (hwoken : s.core.woken = false)
    (h : w ≠ s.rx d) : s.spinwData q d e w = wrote { s with core := { s.core with watch := none } } d w s.core.npc := by
  have hgo : (s.core.woken || w != s.rx d) = true := by simp [h]
  rw [State.spinwData, if_pos hgo]
  dsimp only
  rw [wokenUp_of_not (by rw [setX_eq]; exact hwoken), retire_setX]
  exact afterInstr_of_ss hs

/-- R119: else it parks, on the line of its watch. -/
theorem spinwData_same {d : XReg} {e : Nat} {w : Word} {h : Home × Bool} (hwoken : s.core.woken = false)
    (hfrozen : s.core.frozen = false) (hw : w = s.rx d) (hwatch : s.core.watch = some h) :
    s.spinwData q d e w = parked s (.spinw e) := by
  have hgo : ¬ (s.core.woken || w != s.rx d) = true := by simp [hwoken, hw]
  rw [State.spinwData, if_neg hgo, hfrozen, if_neg Bool.false_ne_true]
  dsimp only
  rw [hwatch]
  dsimp only
  rw [← hwatch]
  rfl

theorem abortSlots_nil (h : s.core.rorder = []) : s.abortSlots = { s with core := { s.core with rorder := [], rwait := false } } := by
  rw [State.abortSlots, h, List.foldl_nil]

/-- R352: a denied load traps at its instruction. -/
theorem remoteTrap_of_last {c : Cause} {off : Nat} (h : s.core.rorder = []) (hfrozen : s.core.frozen = false) :
    s.remoteTrap q c off = State.takeTrap { s with core := { s.core with
      x := q.x, a := q.a, pc := q.pc, npc := q.npc, rwait := false, stalled := false } }
      c (q.addr + BitVec.ofNat 64 off) := by
  rw [State.remoteTrap, abortSlots_nil h, Core.backTo]
  dsimp only
  rw [hfrozen, if_neg Bool.false_ne_true, ← h]

end

/-! ### The statement -/

theorem olderStore_of_locals {s : State} {q : RSlot} (h : q.use.locals = none) : s.olderStore q = false := by
  rw [State.olderStore, h]

section
variable {s : State} {i : Fin 8} {q : RSlot} {rest : List (Nat × Fin 8)} {v : Nat}
  (hord : s.core.rorder = (s.core.num, i) :: rest) (hq : s.core.slots[i] = some q) (hdata : q.resp = some (.data v))
  (hss : s.core.ss = false)
include hord hq hdata

/-- No older store stands before a load into a register. -/
theorem remoteWrite_register (h : q.use.locals = none) : s.remoteWrite = (slotFreed s i rest).remoteData q v :=
  remoteWrite_data hord hq hdata (olderStore_of_locals h)

include hss

theorem exec_loadWrite_ld {d : XReg} {acq : Bool} (hown : ∀ r ∈ rest, r.1 = s.core.num) (hu : q.use = .ld d .b64 acq) :
    exec (.remoteLoadWrite s.core.num) s = .next (kept d rest (loadSet (loadEnded s i rest) d (BitVec.ofNat 64 v))) := by
  have h := remoteWrite_register hord hq hdata (by rw [hu]; rfl)
  rw [remoteData_ld (s := slotFreed s i rest) hss hown hu] at h
  exact exec_loadWrite h rfl

theorem exec_loadWrite_amo {d : XReg} {wide uns : Bool} (hown : ∀ r ∈ rest, r.1 = s.core.num)
    (hu : q.use = .amo d wide uns) : exec (.remoteLoadWrite s.core.num) s
      = .next (kept d rest (loadSet (loadEnded s i rest) d (if uns then BitVec.ofNat 64 v
          else BitVec.ofInt 64 (if wide then (BitVec.ofNat 64 v).toInt else (BitVec.ofNat 32 v).toInt)))).newRegion := by
  have h := remoteWrite_register hord hq hdata (by rw [hu]; rfl)
  rw [remoteData_amo (s := slotFreed s i rest) hss hown hu, toS_wide] at h
  refine exec_loadWrite h ?_
  rw [newRegion_core]
  rfl

theorem exec_loadWrite_gld {a n : Nat} (hu : q.use = .gld a n) (hold : s.olderStore q = false) :
    exec (.remoteLoadWrite s.core.num) s
      = .next ((loadEnded s i rest).storeHome (.loc s.core.num (a % 2 ^ 14)) (bytesOf n v)) := by
  have h := remoteWrite_data hord hq hdata hold
  rw [remoteData_gld (s := slotFreed s i rest) hss hu] at h
  exact exec_loadWrite h (storeHome_local_core (loadEnded s i rest) _ _).1

omit hss in
theorem remoteWrite_spinw {d : XReg} {e : Nat} (hu : q.use = .spinw d e) :
    s.remoteWrite = (loadEnded s i rest).spinwData q d e (BitVec.ofNat 64 v) := by
  rw [remoteWrite_register hord hq hdata (by rw [hu]; rfl)]
  simp only [State.remoteData, hu]
  rfl

theorem exec_loadWrite_spinw_changed {d : XReg} {e : Nat} (hu : q.use = .spinw d e) (hwoken : s.core.woken = false)
    (hw : BitVec.ofNat 64 v ≠ s.rx d) : exec (.remoteLoadWrite s.core.num) s
      = .next (wrote { loadEnded s i rest with core := { (loadEnded s i rest).core with watch := none } } d
          (BitVec.ofNat 64 v) s.core.npc) := by
  have h := remoteWrite_spinw hord hq hdata hu
  rw [spinwData_changed (s := loadEnded s i rest) hss hwoken hw] at h
  exact exec_loadWrite h rfl

omit hss in
theorem exec_loadWrite_spinw_same {d : XReg} {e : Nat} {g : Home × Bool} (hu : q.use = .spinw d e)
    (hfrozen : s.core.frozen = false) (hwoken : s.core.woken = false) (hw : BitVec.ofNat 64 v = s.rx d)
    (hwatch : s.core.watch = some g) :
    exec (.remoteLoadWrite s.core.num) s = .next (parked (loadEnded s i rest) (.spinw e)) := by
  have h := remoteWrite_spinw hord hq hdata hu
  rw [spinwData_same (s := loadEnded s i rest) hwoken hfrozen hw hwatch] at h
  exact exec_loadWrite h rfl

end

theorem exec_loadWrite_trap {s : State} {i : Fin 8} {q : RSlot} {c : Cause} {off : Nat}
    (hord : s.core.rorder = [(s.core.num, i)]) (hq : s.core.slots[i] = some q) (htrap : q.resp = some (.trap c off))
    (hfrozen : s.core.frozen = false) (hold : s.olderStore q = false) : exec (.remoteLoadWrite s.core.num) s
      = .next (State.takeTrap { slotFreed s i [] with core := { (slotFreed s i []).core with
          x := q.x, a := q.a, pc := q.pc, npc := q.npc, rwait := false, stalled := false } }
          c (q.addr + BitVec.ofNat 64 off)) := by
  have h := remoteWrite_trap hord hq htrap hold
  rw [remoteTrap_of_last (s := slotFreed s i []) rfl hfrozen] at h
  exact exec_loadWrite h (takeTrap_num ..)

theorem remoteResponses : RemoteResponses := by
  intro s k r i q rest d v
  refine ⟨?_, ?_⟩
  · intro hr hn hroute u becomes
    refine ⟨fun hop hi hq => exec_response_slot hr hn hroute hop hi hq, ?_⟩
    intro w hop hw counted
    exact ⟨fun x hx => exec_response_data hr hn hroute hop hw hx,
      fun c off hx howed => exec_response_trap hr hn hroute hop hw hx howed⟩
  · intro hord hq freed ended sets goes
    refine ⟨fun h => exec_loadWrite (remoteWrite_none hord hq h) rfl, ?_, ?_⟩
    · intro hdata hss hown
      refine ⟨?_, ?_, ?_, ?_⟩
      · intro a hu
        exact exec_loadWrite_ld hord hq hdata hss hown hu
      · intro w un hu
        exact exec_loadWrite_amo hord hq hdata hss hown hu
      · intro a n hu
        exact ⟨fun hold => exec_loadWrite_gld hord hq hdata hss hu hold,
          fun hold => exec_loadWrite (remoteWrite_older hord hq hdata hold) rfl⟩
      · intro e hu hfrozen hwoken w
        exact ⟨fun hw => exec_loadWrite_spinw_changed hord hq hdata hss hu hwoken hw,
          fun hw g hg => exec_loadWrite_spinw_same hord hq hdata hu hfrozen hwoken hw hg⟩
    · intro c off htrap hrest hfrozen hold
      subst hrest
      exact exec_loadWrite_trap hord hq htrap hfrozen hold

/-- Settles O32, part by part: the requests at a package's interface, the watch of a SPINW, and the responses
with the loads they end. -/
theorem remotePackets : Obligations.RemotePackets := ⟨remoteRequests, watchArmed, remoteResponses⟩

end Sys2Proof.Claims
end
